-- ==== Sys2Proof/Word.lean ====
section
/-! DEFINITION. The word types of the MWE2406 and the plainest arithmetic on them. -/

namespace Sys2Proof

/-- One endpoint, register or SRAM word (R5: every endpoint is 32 bits wide). -/
abbrev Word := BitVec 32

/-- One byte of a memory, a frame or a bus. -/
abbrev Byte := BitVec 8

/-- A value of TIME: a 64-bit count of 10 ns ticks (R419). -/
abbrev Time := BitVec 64

/-- A word's bits as the natural number they spell. -/
abbrev Word.ofNat (n : Nat) : Word := BitVec.ofNat 32 n

end Sys2Proof
end

