-- ==== Sys2Proof/Syntax.lean ====
section
/-! DEFINITION. The commands of the MWE2406 (spec/opcode_table.json), one constructor of `Instr` per row,
and the operand types they carry. What the outside world supplies (a converter's code, a received frame, a
comparator's finding, a host request) is an operand; what the part itself holds is read from the state. -/

namespace Sys2Proof

/-- The three paths by which an endpoint is reached (R421, R431, R490): the Innkeeper's own port,
the chain, and the host port. -/
inductive Path where
  | ink | chain | host
  deriving DecidableEq, Repr, Inhabited

/-- The two chain ports (R204). -/
inductive Port where
  | north | south
  deriving DecidableEq, Repr, Inhabited

/-- The index of a port in its register block: North 0, South 1 (R230). -/
def Port.idx : Port → Nat
  | .north => 0
  | .south => 1

/-- The opposite port of a device. -/
def Port.opp : Port → Port
  | .north => .south
  | .south => .north

/-- What SECDED finds on one access (R291, R373, R378). -/
inductive Ecc where
  | clean | corrected | uncorrectable
  deriving DecidableEq, Repr, Inhabited

/-- What SECDED finds in what one command reads: the Innkeeper's data SRAM behind the mailbox (R291), the room buffer that
holds the frame or request and the stream-table entry (R373), the Cellar (R378).
(DESIGN CHOICE, log entry 68.) -/
structure Upsets where
  data : Ecc := .clean
  room : Ecc := .clean
  entry : Ecc := .clean
  cel : Ecc := .clean
  deriving DecidableEq, Repr, Inhabited

/-- What the checks around one Innkeeper instruction find: the fetch of its word, the residue or compare
checker, the access to data SRAM (R291, R300).
(DESIGN CHOICE, log entry 4.) -/
structure InkEnv where
  fetch : Ecc
  check : Bool
  data : Ecc
  deriving DecidableEq, Repr, Inhabited

/-- An instruction of the Innkeeper whose checks all pass. -/
def InkEnv.ok : InkEnv := ⟨.clean, false, .clean⟩

/-- A chain frame (R217): its header fields, its payload words, and what the receiver finds besides the
fields: whether the CRC of R219 matched, whether any form case of R221 other than those of the fields arose, and what
SECDED finds in the memories the frame is kept in and reaches. -/
structure Frame where
  cls : Nat
  typ : Nat
  src : Nat
  dst : Nat
  gen : Nat
  gst : Nat
  seq : Nat
  len : Nat
  strm : Nat
  time : Nat
  crd : List Nat
  ack : Nat
  payload : List Word
  crcOk : Bool
  formOk : Bool
  ecc : Upsets := ⟨.clean, .clean, .clean, .clean⟩
  deriving DecidableEq, Repr, Inhabited

/-- A host-port request (R260): its fields, whether its CRC was right, and whether its response was clocked out to the
final CRC byte (R261). `counter` and `tag` are those of an AUTH request (R263); `ecc` is what SECDED finds on its way. -/
structure HostReq where
  cmd : Nat
  flags : Nat
  count : Nat
  addr : Nat
  data : List Word
  counter : Nat
  tag : List Byte
  crcOk : Bool
  whole : Bool
  ecc : Upsets := ⟨.clean, .clean, .clean, .clean⟩
  deriving DecidableEq, Repr, Inhabited

/-- What one switching cycle of phase `x` shows (R146 to R150, R156, R168, R178): the mean sense voltage over it in µV,
V_OUT in mV, the error amplifier's output V_C in µV, the sense voltage at the turn-on in µV and its up-slope in µV/µs, the
instant in ns after the turn-on at which the fast limit ended the on-time, where it did, and whether VSTK is above 30.0 V.
(DESIGN CHOICE, log entry 73.) -/
structure PhcObs where
  x : Nat
  sense : Int
  vout : Nat
  vc : Nat
  valley : Int
  up : Nat
  sc : Option Nat
  vin : Bool
  deriving DecidableEq, Repr, Inhabited

/-- What a start check shows (R163, R164): V_OUT at the check and at the start of the soft start, in mV. -/
structure StartObs where
  vout : Nat
  vStart : Nat
  deriving DecidableEq, Repr, Inhabited

/-- What a satellite-bus transaction or pass shows (R269–R277): presence and attention in the reset sequence, and the bytes
read from the line after the request, the reply's CRC-8 last. -/
structure SatObs where
  present : Bool
  attn : Bool
  reply : List Byte
  deriving DecidableEq, Repr, Inhabited

/-- What a reset sequence tried on a short shows (R268, R271), and whether the line reads high after it. -/
structure RetryObs where
  reset : SatObs
  high : Bool
  deriving DecidableEq, Repr, Inhabited

/-- What the Porter sees at a KCLK edge beside what it holds (R413, R415): the WAKE pin, and whether its sensor reads below
135 °C. -/
structure WakeObs where
  pin : Bool
  cool : Bool
  deriving DecidableEq, Repr, Inhabited

/-- The Guard's filtered conditions (R346). -/
inductive GuardCond where
  | ov (cell : Nat)
  | uv (cell : Nat)
  | th (k : Nat)
  | oc (positive : Bool)
  | die
  deriving DecidableEq, Repr, Inhabited

/-- What a comparator of the Guard sees at one sample (R345, R346): for a cell its voltage in µV, for a thermistor V(TH) and in
`y` V(THREF) in µV, for the current V(ISP) − V(ISN) in µV, for the die its temperature in 0.01 °C. -/
structure GuardSample where
  c : GuardCond
  x : Int
  y : Int
  deriving DecidableEq, Repr, Inhabited

/-- The level of a safety input, and for how many GCLK cycles it has held it since it was last reported (R348). -/
structure SiObs where
  level : Bool
  cycles : Nat
  deriving DecidableEq, Repr, Inhabited

/-- The two safety output pins (R342). -/
inductive SafePin where
  | soa | sob
  deriving DecidableEq, Repr, Inhabited

/-- Why a received frame is discarded (R221): its CRC, its form, or a code violation outside a frame. -/
inductive DiscardWhy where
  | crc | fmt | violation
  deriving DecidableEq, Repr, Inhabited

/-- What the checks beside one correction and filter step of SDP find: no mismatch; one of the mod-3 check in the correction
stage, or in the CIC or FIR path (R103); or, in the channel's signal-path state, a single-bit error or an uncorrectable one
(R373).
(DESIGN CHOICE, log entry 68.) -/
inductive Residue where
  | ok | correction | filter | healed | upset
  deriving DecidableEq, Repr, Inhabited

/-- An output instant that comes up (R88), and what SECDED finds in the set's staging (R373).
(DESIGN CHOICE, log entry 68.) -/
structure SetObs where
  ts : Time
  stage : Ecc
  deriving DecidableEq, Repr, Inhabited

/-- What ends a result: whether the last of its mod-3 checks fails (R124), and what SECDED finds in the accumulators and in the
result's staging (R373).
(DESIGN CHOICE, log entry 68.) -/
structure ResultObs where
  bad : Bool
  acc : Ecc
  stage : Ecc
  deriving DecidableEq, Repr, Inhabited

/-- How a record's write ends: whether it verifies (R390), and what SECDED finds in the write queue it was taken from
(R373).
(DESIGN CHOICE, log entry 68.) -/
structure WriteObs where
  verifyOk : Bool
  queue : Ecc
  deriving DecidableEq, Repr, Inhabited

/-- What ends the unlock sequence (R438): whether the cleared key registers read back as zero, and the last step done before
TST falls, 7 where it stays high.
(DEDUCED, log entry 67.) -/
structure UnlockObs where
  zeroReadback : Bool
  done : Nat
  deriving DecidableEq, Repr, Inhabited

/-- The quantity a compensation timer trims (R198). -/
inductive TcKind where
  | keeper | mainRc | reference
  deriving DecidableEq, Repr, Inhabited

/-- The commands: one constructor per row of spec/opcode_table.json, in the table's order. A register write
carries the word written; the paths matter where R295, R421 and R431 tell them apart. -/
inductive Instr where
  -- endpoints
  | registerWrite (p : Path) (a : Nat) (v : Word)
  -- measurement array (spec/02_measurement_array.md)
  | sampleTrigger (t : Time)
  | conversionEnd (conv code : Nat) (residue : Residue)
  | arrayDisable
  | measTrigWrite (v : Word)
  | refEnable
  | refDisable
  | refSettled
  | chEnWrite (v : Word)
  | calStart
  | calAccept
  | calOffsetPhaseEnd
  | calGainPhaseEnd (gains offs : List Int)
  | hkCal
  | hkCalDone (gain off : Int)
  | trvCtrlWrite (v : Word)
  | trvStepBoundary
  | trvTakeoverCheck
  | trvCalEnd (gain off : Int)
  | trvHandbackCheck
  | trvOffsetCheckEnd (off : Int)
  | convFailClear (v : Word)
  | parkReleaseStart
  | hkRoundStart
  | hkEntryEnd (value : Nat)
  | hkInject (v : Word)
  | hkDisable
  | owStart (v : Word)
  | owSinksOn
  | owSinksOff
  | owPassEnd
  | snap
  -- sample datapath (spec/03_sample_datapath.md)
  | setWrite (o : SetObs)
  | resRead (p : Path) (n : Nat)
  | sdpCfgWrite (v : Word)
  | sdpChEnWrite (v : Word)
  | scfgWrite (n : Nat) (v : Word)
  | smaskWrite (n : Nat) (v : Word)
  | accSnap (v : Word)
  -- impedance engine (spec/04_impedance_engine.md)
  | impCtrlWrite (v : Word)
  | toneWrite (t : Nat) (v : Word)
  | twinWrite (t : Nat) (v : Word)
  | ctxCfgWrite (c : Nat) (v : Word)
  | fundamentalBoundary (t : Time)
  | impResultWrite (c : Nat) (reBad imBad : Bool) (o : ResultObs)
  | fbCtrlWrite (v : Word)
  | fbSwitch
  | fbResultWrite (reBad imBad : Bool) (o : ResultObs)
  | impBlockTimeout (n : Nat)
  -- phase controller (spec/05_phase_controller.md)
  | phcEnable (v : Word)
  | phcDisable (v : Word)
  | phcRestart
  | switchingCycle (o : PhcObs)
  | trimSat (x : Nat)
  | scOverride (x : Nat)
  | startCheck (o : StartObs)
  | hiccupEnd
  | throwsClear
  | outputCollapse
  | inputLow
  | inputRecover
  | busOv
  | busOvRelease
  | senseLoss (x : Nat)
  | openPhase (x : Nat)
  -- balancing and thermal (spec/06_balancing_and_thermal.md)
  | slotStart (t : Time)
  | slotEnd
  | switchOvercurrent (n : Nat)
  | balCtrlWrite (v : Word)
  | thmEvaluate (ds : List Int)
  | rorRelease
  | lostClr
  | tcTrim (q : TcKind)
  | thermalShutdownComplete
  | thermalRecovery
  | porterHardLimit
  -- chain ports (spec/07_chain_link.md)
  | portEnable (p : Port)
  | portDisable (p : Port)
  | silenceEnd (p : Port)
  | wakeToneEnd (p : Port)
  | peerDetected (p : Port)
  | trainingBlock (p : Port) (good peerOk : Bool)
  | trainTimeout (p : Port)
  | alignTimeout (p : Port)
  | helloTimer (p : Port)
  | lnkHello (p : Port) (f : Frame)
  | wakeToneHeard (p : Port)
  | eqAdapt (p : Port) (target : Nat)
  | lnkIdle (p : Port) (f : Frame)
  | idleSend (p : Port)
  | frameTransmit (p : Port)
  | retryTimer (p : Port)
  | streamFrame (p : Port) (f : Frame)
  | lockLoss (p : Port)
  | frameTimeout (p : Port)
  | discardLimit (p : Port)
  -- chain network, time and head (spec/08_chain_network.md)
  | netSearch (p : Port) (f : Frame)
  | netAssign (p : Port) (f : Frame)
  | netRoute (p : Port) (f : Frame)
  | netLink (p : Port) (f : Frame)
  | srch
  | netStepTimeout
  | sched
  | baseApply (t : Time)
  | rttTimer
  | lnkRttRequest (p : Port) (f : Frame) (rxFrac : Nat)
  | lnkRttResponse (p : Port) (f : Frame) (t4 : Int)
  | epochSend (t : Time)
  | epoch (p : Port) (trx : Int)
  | epochTimeout
  | read (p : Port) (f : Frame)
  | write (p : Port) (f : Frame)
  | modify (p : Port) (f : Frame)
  | bulkOpen (p : Port) (f : Frame)
  | bulkNak (p : Port) (f : Frame)
  | bulkClose (p : Port) (f : Frame)
  | bulkData (p : Port) (f : Frame)
  | controlResponse (p : Port) (f : Frame)
  | requestTimeout (dst tag : Nat)
  | mirrorRefresh (n : Nat)
  | mread (r : HostReq)
  | lread (r : HostReq)
  | hostWrite (r : HostReq)
  | hostModify (r : HostReq)
  | result (r : HostReq)
  | rread (r : HostReq)
  | hstat (r : HostReq)
  | bwrite (r : HostReq)
  | hostUnknownCmd (r : HostReq)
  | hcsAbort
  -- satellite bus (spec/09_satellite_bus.md)
  | satTransaction (v : Word)
  | satTransactionEnd (o : SatObs)
  | spuEnd
  | pollRound (o : SatObs)
  | podReadEnd (o : SatObs)
  | satSrch
  | satAsrch
  | searchPassEnd (o : SatObs) (cells : List (BitVec 16))
  | satShort
  | shortRetry (o : RetryObs)
  | satDisable
  | podFree (v : Word)
  -- Innkeeper (spec/10_innkeeper.md)
  | add (e : InkEnv) (rd ra rb : BitVec 4)
  | sub (e : InkEnv) (rd ra rb : BitVec 4)
  | and (e : InkEnv) (rd ra rb : BitVec 4)
  | or (e : InkEnv) (rd ra rb : BitVec 4)
  | xor (e : InkEnv) (rd ra rb : BitVec 4)
  | shl (e : InkEnv) (rd ra rb : BitVec 4)
  | shr (e : InkEnv) (rd ra rb : BitVec 4)
  | sar (e : InkEnv) (rd ra rb : BitVec 4)
  | mul (e : InkEnv) (rd ra rb : BitVec 4)
  | mulh (e : InkEnv) (rd ra rb : BitVec 4)
  | mulhu (e : InkEnv) (rd ra rb : BitVec 4)
  | div (e : InkEnv) (rd ra rb : BitVec 4)
  | divu (e : InkEnv) (rd ra rb : BitVec 4)
  | min (e : InkEnv) (rd ra rb : BitVec 4)
  | max (e : InkEnv) (rd ra rb : BitVec 4)
  | addi (e : InkEnv) (rd ra : BitVec 4) (imm : BitVec 18)
  | andi (e : InkEnv) (rd ra : BitVec 4) (imm : BitVec 18)
  | ori (e : InkEnv) (rd ra : BitVec 4) (imm : BitVec 18)
  | xori (e : InkEnv) (rd ra : BitVec 4) (imm : BitVec 18)
  | shli (e : InkEnv) (rd ra : BitVec 4) (sh : BitVec 5)
  | shri (e : InkEnv) (rd ra : BitVec 4) (sh : BitVec 5)
  | sari (e : InkEnv) (rd ra : BitVec 4) (sh : BitVec 5)
  | lui (e : InkEnv) (rd : BitVec 4) (imm : BitVec 18)
  | cmpi (e : InkEnv) (ra : BitVec 4) (imm : BitVec 18)
  | lw (e : InkEnv) (rd ra : BitVec 4) (imm : BitVec 18)
  | sw (e : InkEnv) (rd ra : BitVec 4) (imm : BitVec 18)
  | lb (e : InkEnv) (rd ra : BitVec 4) (imm : BitVec 18)
  | sb (e : InkEnv) (rd ra : BitVec 4) (imm : BitVec 18)
  | lde (e : InkEnv) (rd ra : BitVec 4) (imm : BitVec 18)
  | ste (e : InkEnv) (rd ra : BitVec 4) (imm : BitVec 18)
  | xrd (e : InkEnv) (rd ra rb : BitVec 4) (cnt : BitVec 6)
  | xwr (e : InkEnv) (rd ra rb : BitVec 4) (cnt : BitVec 6)
  | xmod (e : InkEnv) (rd ra rb : BitVec 4)
  | bcc (e : InkEnv) (cond : BitVec 4) (off : BitVec 18)
  | jal (e : InkEnv) (off : BitVec 26)
  | jr (e : InkEnv) (ra : BitVec 4)
  | call (e : InkEnv) (off : BitVec 26)
  | callr (e : InkEnv) (ra : BitVec 4)
  | ret (e : InkEnv)
  | wfe (e : InkEnv) (rd ra : BitVec 4)
  | wfeWake
  | sev (e : InkEnv) (clr set : BitVec 8)
  | wds (e : InkEnv) (ra : BitVec 4)
  | illegalInstruction (e : InkEnv)
  | inkStop (p : Path)
  | inkResume (p : Path)
  | inkRestart (p : Path)
  | tmrWrite (n : Nat) (v : Word)
  | tmrExpiry (n : Nat)
  | swset (v : Word)
  | grdNote (p : Port) (f : Frame)
  -- start-up and loader (spec/11_start_and_image.md)
  | startEntry
  | pllLock (vpp : Bool)
  | copyJudged (sram : Ecc)
  | lstat (r : HostReq)
  | ferase (r : HostReq)
  | fwrite (r : HostReq)
  | fread (r : HostReq)
  | reboot (r : HostReq)
  | flashDone (err : Bool)
  -- Guard (spec/12_guard.md)
  | guardFilterTrip (ms : List GuardSample)
  | gclkCheck (count : Nat)
  | siDebounce (k : Nat) (chB : Bool) (o : SiObs)
  | guardTick (ms : List GuardSample)
  | discFault (k : Nat)
  | sutPass
  | readbackMismatch (pin : SafePin) (level : Bool)
  | loopLost
  | loopOk
  | wdWindowOpen (advance : Nat)
  | wdLate
  | wdResponse
  | grdUnlk (v : Word)
  | grdCommit (v : Word)
  | grdFltClear (v : Word) (ms : List GuardSample)
  | standbyCheck
  | standbyCheckEnd (ms : List GuardSample)
  -- Store (spec/13_store.md)
  | celEnable (v : Word)
  | celReady
  | celDisable (v : Word)
  | celRefresh
  | ringCfgWrite (n : Nat) (v : Word)
  | ringRdWrite (n : Nat) (v : Word)
  | ledgerWriteStart
  | ledgerWriteDone (o : WriteObs)
  | sectorEraseDone
  | ldgRdRead (p : Path)
  | crcCfg (u : Nat) (v : Word)
  | crcInit (u : Nat) (v : Word)
  | crcData (u : Nat) (v : Word)
  | crcDatab (u : Nat) (v : Word)
  | crcStateWrite (u : Nat) (v : Word)
  -- Porter (spec/14_porter_and_power.md)
  | reqRun (v : Word) (tst : Bool)
  | reqRecover (v : Word)
  | reqHalt (v : Word)
  | rcvClear (v : Word)
  | haltLedgerDrained
  | selftestItemEnd (ran failed : Bool) (detail : Word)
  | domRequest (v : Word)
  | domainOn (d : Nat)
  | domainOff (d : Nat)
  | supplyLimit
  | vstkUndervoltage
  | vstkRecoverWake
  | powerOn
  | powerLoss
  | wakeAccept (o : WakeObs)
  | vstkWindowCheck (vstk : Nat)
  | stbyTimeout
  | nrst
  | nrstRelease
  | nrstStuck
  | timelRead (p : Path)
  -- OTP, keys and test (spec/15_trust_and_test.md)
  | otpDataRead (p : Path)
  | otpProgram (p : Path) (v : Word) (vpp : Bool)
  | fuseBlow (p : Path) (v : Word) (vpp : Bool)
  | prgDone (verifyOk : Bool)
  | testSel (v : Word)
  | testKeyArm (v : Word) (tst : Bool)
  | testKeyUnlock (v : Word) (o : UnlockObs)
  | testKeyTimeout
  | tstFall
  -- rows added at the table's end
  | timeLoad
  | vdd5SourceChange (fromVsup : Bool)
  | readbackAgree (pin : SafePin)
  | backgroundScrub (e : Ecc)
  | frameDiscarded (p : Port) (why : DiscardWhy)
  | reqBadTarget (v : Word)
  deriving DecidableEq, Repr

end Sys2Proof
end

