-- ==== Sys2Proof/Decode.lean ====
section
/-! DEFINITION. The commands that words spell: by the table's bits none, since no row of spec/opcode_table.json gives
bits; and the Innkeeper's instruction words (R296, R297), which the block fetches from its own program SRAM. -/

namespace Sys2Proof

/-- The command a word spells by the table's bits: none, since no row gives bits.
(DEDUCED, log entry 2.) -/
def decodeTableWord (_nbits _w : Nat) : Option Instr := none

/-! ### Instruction words of the Innkeeper -/

/-- The instruction of format R that FN names. -/
def inkDecodeR (e : InkEnv) (fn : Nat) (rd ra rb : BitVec 4) : Instr :=
  match fn with
  | 0x00 => .add e rd ra rb
  | 0x01 => .sub e rd ra rb
  | 0x02 => .and e rd ra rb
  | 0x03 => .or e rd ra rb
  | 0x04 => .xor e rd ra rb
  | 0x05 => .shl e rd ra rb
  | 0x06 => .shr e rd ra rb
  | 0x07 => .sar e rd ra rb
  | 0x08 => .mul e rd ra rb
  | 0x09 => .mulh e rd ra rb
  | 0x0A => .mulhu e rd ra rb
  | 0x0B => .div e rd ra rb
  | 0x0C => .divu e rd ra rb
  | 0x0D => .min e rd ra rb
  | 0x0E => .max e rd ra rb
  | _ => .illegalInstruction e

/-- An instruction where the bits that must be 0 are 0, else the illegal one. -/
def inkIf (ok : Bool) (e : InkEnv) (i : Instr) : Instr := if ok then i else .illegalInstruction e

/-- The Innkeeper's instruction that a word spells (R296, R297).
(DESIGN CHOICE, log entry 4.) -/
def inkDecode (e : InkEnv) (w : Word) : Instr :=
  let rd := w.extractLsb' 22 4
  let ra := w.extractLsb' 18 4
  let rb := w.extractLsb' 14 4
  let imm := w.extractLsb' 0 18
  let off := w.extractLsb' 0 26
  let cnt := w.extractLsb' 8 6
  let shift := imm.extractLsb' 5 13 == 0
  let x := w.extractLsb' 0 8 == 0
  let n := imm == 0
  match (w.extractLsb' 26 6).toNat with
  | 0x00 => inkIf (w.extractLsb' 6 8 == 0) e (inkDecodeR e (w.extractLsb' 0 6).toNat rd ra rb)
  | 0x01 => .addi e rd ra imm
  | 0x02 => .andi e rd ra imm
  | 0x03 => .ori e rd ra imm
  | 0x04 => .xori e rd ra imm
  | 0x05 => inkIf shift e (.shli e rd ra (imm.extractLsb' 0 5))
  | 0x06 => inkIf shift e (.shri e rd ra (imm.extractLsb' 0 5))
  | 0x07 => inkIf shift e (.sari e rd ra (imm.extractLsb' 0 5))
  | 0x08 => inkIf (ra == 0) e (.lui e rd imm)
  | 0x09 => inkIf (rd == 0) e (.cmpi e ra imm)
  | 0x10 => .lw e rd ra imm
  | 0x11 => .sw e rd ra imm
  | 0x12 => .lb e rd ra imm
  | 0x13 => .sb e rd ra imm
  | 0x14 => .lde e rd ra imm
  | 0x15 => .ste e rd ra imm
  | 0x18 => inkIf x e (.xrd e rd ra rb cnt)
  | 0x19 => inkIf x e (.xwr e rd ra rb cnt)
  | 0x1A => inkIf (x && cnt == 1) e (.xmod e rd ra rb)
  | 0x20 => inkIf (ra == 0) e (.bcc e rd imm)
  | 0x21 => .jal e off
  | 0x22 => inkIf (rd == 0 && n) e (.jr e ra)
  | 0x23 => .call e off
  | 0x24 => inkIf (rd == 0 && n) e (.callr e ra)
  | 0x25 => inkIf (rd == 0 && ra == 0 && n) e (.ret e)
  | 0x28 => inkIf n e (.wfe e rd ra)
  | 0x29 => inkIf (rd == 0 && ra == 0 && imm.extractLsb' 16 2 == 0) e
      (.sev e (imm.extractLsb' 8 8) (imm.extractLsb' 0 8))
  | 0x2A => inkIf (rd == 0 && n) e (.wds e ra)
  | _ => .illegalInstruction e

end Sys2Proof
end

