-- ==== Sys2Proof/Machine/Crc.lean ====
section
/-! DEFINITION. The check codes of the part: CRC-8 (R274), CRC-16/CCITT (R260), CRC-32 (R326) and CRC-32C (R219). -/

namespace Sys2Proof.Machine

/-- One bit step of a reflected 32-bit CRC with reflected polynomial `p`. -/
def crcStepR (p c : BitVec 32) : BitVec 32 := if c.getLsbD 0 then (c >>> 1) ^^^ p else c >>> 1

/-- One byte absorbed by a reflected 32-bit CRC, bit 0 first. -/
def crcByteR (p c : BitVec 32) (b : Byte) : BitVec 32 :=
  let c0 := c ^^^ b.zeroExtend 32
  crcStepR p (crcStepR p (crcStepR p (crcStepR p (crcStepR p (crcStepR p (crcStepR p (crcStepR p c0)))))))

/-- One bit step of an unreflected CRC of width `w`. -/
def crcStepL {w : Nat} (p c : BitVec w) : BitVec w := if c.getLsbD (w - 1) then (c <<< 1) ^^^ p else c <<< 1

/-- One byte absorbed by an unreflected CRC of width `w`, bit 7 first. -/
def crcByteL {w : Nat} (p c : BitVec w) (b : Byte) : BitVec w :=
  let c0 := c ^^^ (b.zeroExtend w <<< (w - 8))
  crcStepL p (crcStepL p (crcStepL p (crcStepL p (crcStepL p (crcStepL p (crcStepL p (crcStepL p c0)))))))

/-- The check codes by their POLY number (R396). -/
inductive CrcKind where
  | crc8 | crc16 | crc32 | crc32c
  deriving DecidableEq, Repr

/-- The CRC that a POLY value selects (R396). -/
def CrcKind.ofPoly : Nat → CrcKind
  | 0 => .crc8
  | 1 => .crc16
  | 2 => .crc32
  | _ => .crc32c

/-- The initial running value of each CRC, right-aligned. -/
def CrcKind.init : CrcKind → Word
  | .crc8 => 0xFF
  | .crc16 => 0xFFFF
  | .crc32 => 0xFFFFFFFF
  | .crc32c => 0xFFFFFFFF

/-- The final XOR of each CRC. -/
def CrcKind.final : CrcKind → Word
  | .crc8 => 0xFF
  | .crc16 => 0
  | .crc32 => 0xFFFFFFFF
  | .crc32c => 0xFFFFFFFF

/-- The bits of a running value. -/
def CrcKind.bits : CrcKind → Word
  | .crc8 => 0xFF
  | .crc16 => 0xFFFF
  | .crc32 => 0xFFFFFFFF
  | .crc32c => 0xFFFFFFFF

/-- One byte absorbed. -/
def CrcKind.byte (k : CrcKind) (c : Word) (b : Byte) : Word :=
  match k with
  | .crc8 => (crcByteL (0x2F : BitVec 8) (c.extractLsb' 0 8) b).zeroExtend 32
  | .crc16 => (crcByteL (0x1021 : BitVec 16) (c.extractLsb' 0 16) b).zeroExtend 32
  | .crc32 => crcByteR 0xEDB88320 c b
  | .crc32c => crcByteR 0x82F63B78 c b

/-- Bytes absorbed in order. -/
def CrcKind.absorb (k : CrcKind) (c : Word) : List Byte → Word
  | [] => c
  | b :: bs => k.absorb (k.byte c b) bs

/-- The CRC of a byte string. -/
def CrcKind.of (k : CrcKind) (bs : List Byte) : Word := k.absorb k.init bs ^^^ k.final

end Sys2Proof.Machine
end

