-- ==== Sys2Proof/Config.lean ====
section
/-! DEFINITION. What one implementation fixes and the spec leaves open: free values, constants without a body.
Each is named in the assumption log. -/

namespace Sys2Proof

/-- The content a Ledger position is left with by a write that was aborted or whose verify failed (R391), per draw.
(DESIGN CHOICE, log entry 9.) -/
opaque Config.ledgerLeft : Nat → List Word

/-- What an abandoned erase leaves at each of a sector's sixteen positions (R391), per draw.
(DESIGN CHOICE, log entry 9.) -/
opaque Config.eraseLeft : Nat → Nat → List Word

/-- The byte offset of an uncorrectable SRAM error within its memory, as STO_ECC_ADDR.OFFSET gives it (R373), per draw; it is
taken modulo the memory's size.
(DESIGN CHOICE, log entry 68.) -/
opaque Config.eccPlace : Nat → Nat

/-- GCLK cycles of the Guard's challenge register between its last use and the first window of a START (R356, R357), per
draw.
(DESIGN CHOICE, log entry 40.) -/
opaque Config.bootCycles : Nat → Nat

/-- The internal form of the running register of a CRC unit, as a mask over it, per polynomial (R397).
(DESIGN CHOICE, log entry 10.) -/
opaque Config.crcForm : Nat → Word

/-- Whether the correction stage rounds up a value that lies between two steps of 1/16 µV (R84), by the exact value in
1/2^20 µV.
(DESIGN CHOICE, log entry 11.) -/
opaque Config.corrRoundsUp : Int → Bool

/-- The coefficient of the decimation FIR (R85, R87) in 1/2^40, by rate and by the distance from the output instant in
ticks.
(DESIGN CHOICE, log entry 12.) -/
opaque Config.firTap : Nat → Nat → Int

/-- A quotient whose divisor is zero (R121, R134), by its dividend.
(DESIGN CHOICE, log entry 13.) -/
opaque Config.byZero : Int → Int

/-- Whether a quantity the phase controller reports in whole units is rounded up (R149, R153, R173), by dividend and
divisor.
(DESIGN CHOICE, log entry 14.) -/
opaque Config.phcUp : Int → Int → Bool

/-- N_ACT at the start of a soft start (R158, R163), by the bounds it lies within.
(DESIGN CHOICE, log entry 16.) -/
opaque Config.startPhases : Nat → Nat → Nat

/-- A compensation trim after an update (R198), by quantity and trim before, per draw.
(DESIGN CHOICE, log entry 17.) -/
opaque Config.tcTrim : Nat → Nat → Nat → Nat

/-- The codes of the main RC's trim (1) and of the reference's (2) that make up their step limits, 0.05 % and 20 ppm
(R198): what a code is worth is not stated.
(DESIGN CHOICE, log entry 17.) -/
opaque Config.tcStep : Nat → Nat

/-- The change of the main oscillator's frequency, in 1/256 ppb, for a change of RCTRIM by so many codes (R198, R247).
(DESIGN CHOICE, log entry 17.) -/
opaque Config.rcShift : Int → Int

/-- The fraction of a tick at which a frame's SOF escape leaves (R245), in 1/256 tick, per draw.
(DESIGN CHOICE, log entry 18.) -/
opaque Config.txFrac : Nat → Nat

/-- Whether a one-way delay that lies between two steps of 1/256 tick is rounded up (R246), by twice the delay.
(DESIGN CHOICE, log entry 19.) -/
opaque Config.delayUp : Int → Bool

/-- Whether a quotient that lies half-way between two whole numbers is rounded up (R247), by twice the quotient.
(DESIGN CHOICE, log entry 19.) -/
opaque Config.tieUp : Int → Bool

/-- Whether y is rounded up to a whole ppb in CHN_TIME_FREQ (R247), by y in 1/256 ppb.
(DESIGN CHOICE, log entry 19.) -/
opaque Config.freqUp : Int → Bool

/-- The seed of the Guard's challenge register at a switch-on of D6 (R357), per draw.
(DESIGN CHOICE, log entry 20.) -/
opaque Config.grdSeed : Nat → BitVec 16

/-- The level FLO holds after it has stopped toggling (R353), by the number of the stop.
(DESIGN CHOICE, log entry 82.) -/
opaque Config.floStop : Nat → Bool

/-- The rising threshold of the Guard's die comparator above 150 °C, in 0.01 °C (R346, R471); it is taken modulo 801.
(DESIGN CHOICE, log entry 83.) -/
opaque Config.dieTrip : Nat

/-- How far into a Guard millisecond a write reaches the Guard (R339, R362), in GCLK cycles, per draw; it is taken modulo
4,000.
(DESIGN CHOICE, log entry 69.) -/
opaque Config.tickPart : Nat → Nat

/-- Which of the unused XIDs a chain transaction gets (R305), per draw.
(DESIGN CHOICE, log entry 21.) -/
opaque Config.xidPick : Nat → Nat

/-- The bits of a word that stay weak after a re-burn (R433), per draw.
(DESIGN CHOICE, log entry 22.) -/
opaque Config.stillWeak : Nat → BitVec 39

/-- The bits a failed or interrupted burn leaves burned (R434, R435), per draw.
(DESIGN CHOICE, log entry 22.) -/
opaque Config.burnLeft : Nat → BitVec 39

/-- The bits a failed or interrupted burn leaves weak (R434, R435), per draw.
(DESIGN CHOICE, log entry 22.) -/
opaque Config.burnWeak : Nat → BitVec 39

/-- THM_TC as regions 1 and 2 load it, in the vendor's own format (R427), by the words of both.
(DESIGN CHOICE, log entry 23.) -/
opaque Config.otpTrims : List Word → Word

/-- TIME ticks since the last KCLK edge when D4 switches off (R420).
(DESIGN CHOICE, log entry 24.) -/
opaque Config.sinceEdge : Nat → Nat

end Sys2Proof
end

