-- ==== Sys2Proof/Machine/Sparse.lean ====
section
/-! DEFINITION. Sparse storage: a list of (address, value) pairs in one canonical form, addresses strictly rising
and no entry equal to what an unlisted address reads as. The endpoint file and every addressed memory use it. -/

namespace Sys2Proof.Machine

variable {α : Type} [DecidableEq α]

/-- The value at address `a`: the listed one, else what `d` gives for an unlisted address. -/
def Sparse.get (d : Nat → α) : List (Nat × α) → Nat → α
  | [], a => d a
  | (k, v) :: m, a => if k = a then v else Sparse.get d m a

/-- An entry put at its place in address order. -/
def Sparse.insert (a : Nat) (v : α) : List (Nat × α) → List (Nat × α)
  | [] => [(a, v)]
  | (k, w) :: m => if a < k then (a, v) :: (k, w) :: m else (k, w) :: Sparse.insert a v m

/-- Every entry at address `a` taken out. -/
def Sparse.drop (a : Nat) : List (Nat × α) → List (Nat × α)
  | [] => []
  | (k, w) :: m => if k = a then Sparse.drop a m else (k, w) :: Sparse.drop a m

/-- The value `v` stored at address `a`; storing what an unlisted address reads as takes the entry out. -/
def Sparse.set (d : Nat → α) (m : List (Nat × α)) (a : Nat) (v : α) : List (Nat × α) :=
  if v = d a then Sparse.drop a m else Sparse.insert a v (Sparse.drop a m)

/-- Only the entries whose address `p` accepts are kept; the others read as unlisted from then on. -/
def Sparse.keep (p : Nat → Bool) : List (Nat × α) → List (Nat × α)
  | [] => []
  | (k, w) :: m => if p k then (k, w) :: Sparse.keep p m else Sparse.keep p m

/-- Addresses strictly rising from above `lo`, and no entry at its unlisted value. -/
def Sparse.wfFrom (d : Nat → α) : Option Nat → List (Nat × α) → Bool
  | _, [] => true
  | lo, (k, v) :: m => (match lo with | none => true | some l => decide (l < k)) && decide (v ≠ d k)
      && Sparse.wfFrom d (some k) m

/-- The canonical form. -/
def Sparse.wf (d : Nat → α) (m : List (Nat × α)) : Bool := Sparse.wfFrom d none m

end Sys2Proof.Machine
end

