-- ==== Sys2Proof/Machine/RegMap.lean ====
section
/-! DEFINITION. The local endpoint map (R491, spec/18_endpoint_map.md) and the field tables of the
chapters: every register's address, every field's place, and per register its reset value and the
masks of its access codes (R6). A register that repeats takes its index as an argument. "From OTP"
registers read 0 until the trim step of START (R83, R203). -/

namespace Sys2Proof.Machine

/-- A field of an endpoint register: the register's local address, the field's lowest bit and its width. -/
structure Fld where
  addr : Nat
  lo : Nat
  w : Nat
  deriving DecidableEq, Repr

/-! ### Register addresses -/

/-- PTR_STAT (R422). -/ def A.PTR_STAT : Nat := 0x0000
/-- PTR_REQ (R422). -/ def A.PTR_REQ : Nat := 0x0001
/-- PTR_CFG (R422). -/ def A.PTR_CFG : Nat := 0x0002
/-- PTR_DOM (R422). -/ def A.PTR_DOM : Nat := 0x0003
/-- PTR_DOM_STAT (R422). -/ def A.PTR_DOM_STAT : Nat := 0x0004
/-- PTR_EVT (R422). -/ def A.PTR_EVT : Nat := 0x0005
/-- PTR_EVT_EN (R422). -/ def A.PTR_EVT_EN : Nat := 0x0006
/-- PTR_RST (R422). -/ def A.PTR_RST : Nat := 0x0007
/-- PTR_RCV (R422). -/ def A.PTR_RCV : Nat := 0x0008
/-- PTR_WAKE_EN (R422). -/ def A.PTR_WAKE_EN : Nat := 0x0009
/-- PTR_WAKE_CAUSE (R422). -/ def A.PTR_WAKE_CAUSE : Nat := 0x000A
/-- PTR_WCFG (R422). -/ def A.PTR_WCFG : Nat := 0x000B
/-- PTR_TIMEL (R422). -/ def A.PTR_TIMEL : Nat := 0x000C
/-- PTR_TIMEH (R422). -/ def A.PTR_TIMEH : Nat := 0x000D
/-- PTR_ALARML (R422). -/ def A.PTR_ALARML : Nat := 0x000E
/-- PTR_ALARMH (R422). -/ def A.PTR_ALARMH : Nat := 0x000F
/-- THM_CTRL (R203). -/ def A.THM_CTRL : Nat := 0x0100
/-- THM_STAT (R203). -/ def A.THM_STAT : Nat := 0x0101
/-- THM_LIM (R203). -/ def A.THM_LIM : Nat := 0x0102
/-- THM_ROR (R203). -/ def A.THM_ROR : Nat := 0x0103
/-- THM_XCHK (R203). -/ def A.THM_XCHK : Nat := 0x0104
/-- THM_EVT (R203). -/ def A.THM_EVT : Nat := 0x0105
/-- THM_EVT_EN (R203). -/ def A.THM_EVT_EN : Nat := 0x0106
/-- THM_FAIL (R203). -/ def A.THM_FAIL : Nat := 0x0107
/-- THM_DSn, n below 4 (R203). -/ def A.THM_DS (n : Nat) : Nat := 0x0108 + n
/-- THM_TC (R203). -/ def A.THM_TC : Nat := 0x010C
/-- THM_SD (R203). -/ def A.THM_SD : Nat := 0x010D
/-- TRU_STAT (R445). -/ def A.TRU_STAT : Nat := 0x0140
/-- TRU_EVT (R445). -/ def A.TRU_EVT : Nat := 0x0141
/-- TRU_EVT_EN (R445). -/ def A.TRU_EVT_EN : Nat := 0x0142
/-- OTP_LOCK (R445). -/ def A.OTP_LOCK : Nat := 0x0143
/-- TRU_LOCKF (R445). -/ def A.TRU_LOCKF : Nat := 0x0144
/-- TRU_RSTAT (R445). -/ def A.TRU_RSTAT : Nat := 0x0145
/-- TRU_OTP_ADDR (R445). -/ def A.TRU_OTP_ADDR : Nat := 0x0146
/-- TRU_OTP_DATA (R445). -/ def A.TRU_OTP_DATA : Nat := 0x0147
/-- TRU_OTP_CHK (R445). -/ def A.TRU_OTP_CHK : Nat := 0x0148
/-- TRU_PRG_DATA (R445). -/ def A.TRU_PRG_DATA : Nat := 0x0149
/-- TRU_PRG_CTRL (R445). -/ def A.TRU_PRG_CTRL : Nat := 0x014A
/-- TRU_PRG_STAT (R445). -/ def A.TRU_PRG_STAT : Nat := 0x014B
/-- TRU_WEAK (R445). -/ def A.TRU_WEAK : Nat := 0x014C
/-- TRU_TEST_SEL (R445). -/ def A.TRU_TEST_SEL : Nat := 0x014D
/-- TRU_TEST_KEY (R445). -/ def A.TRU_TEST_KEY : Nat := 0x014E
/-- TRU_ST (R445). -/ def A.TRU_ST : Nat := 0x014F
/-- TRU_ST_DET (R445). -/ def A.TRU_ST_DET : Nat := 0x0150
/-- MEAS_CTRL (R83). -/ def A.MEAS_CTRL : Nat := 0x0200
/-- MEAS_STAT (R83). -/ def A.MEAS_STAT : Nat := 0x0201
/-- MEAS_CH_EN (R83). -/ def A.MEAS_CH_EN : Nat := 0x0202
/-- MEAS_REF (R83). -/ def A.MEAS_REF : Nat := 0x0203
/-- MEAS_TRIG (R83). -/ def A.MEAS_TRIG : Nat := 0x0204
/-- MEAS_CAL (R83). -/ def A.MEAS_CAL : Nat := 0x0205
/-- MEAS_CAL_ERR (R83). -/ def A.MEAS_CAL_ERR : Nat := 0x0206
/-- MEAS_TRV_CTRL (R83). -/ def A.MEAS_TRV_CTRL : Nat := 0x0207
/-- MEAS_TRV_TOL (R83). -/ def A.MEAS_TRV_TOL : Nat := 0x0208
/-- MEAS_TRV_STAT (R83). -/ def A.MEAS_TRV_STAT : Nat := 0x0209
/-- MEAS_TRV_CNT (R83). -/ def A.MEAS_TRV_CNT : Nat := 0x020A
/-- MEAS_CONV_FAIL (R83). -/ def A.MEAS_CONV_FAIL : Nat := 0x020B
/-- MEAS_HK_MASK (R83). -/ def A.MEAS_HK_MASK : Nat := 0x020C
/-- MEAS_HK_CFG (R83). -/ def A.MEAS_HK_CFG : Nat := 0x020D
/-- MEAS_HK_INJ (R83). -/ def A.MEAS_HK_INJ : Nat := 0x020E
/-- MEAS_EVT (R83). -/ def A.MEAS_EVT : Nat := 0x020F
/-- MEAS_EVT_EN (R83). -/ def A.MEAS_EVT_EN : Nat := 0x0210
/-- MEAS_OW_CTRL (R83). -/ def A.MEAS_OW_CTRL : Nat := 0x0211
/-- MEAS_OW_CFG (R83). -/ def A.MEAS_OW_CFG : Nat := 0x0212
/-- MEAS_OW_RES (R83). -/ def A.MEAS_OW_RES : Nat := 0x0213
/-- MEAS_SNAP (R83). -/ def A.MEAS_SNAP : Nat := 0x0214
/-- MEAS_RAWn, n below 26 (R83). -/ def A.MEAS_RAW (n : Nat) : Nat := 0x0220 + n
/-- MEAS_RAWTIME (R83). -/ def A.MEAS_RAWTIME : Nat := 0x023A
/-- MEAS_GAINn, n below 27 (R83). -/ def A.MEAS_GAIN (n : Nat) : Nat := 0x0240 + n
/-- MEAS_OFFn, n below 27 (R83). -/ def A.MEAS_OFF (n : Nat) : Nat := 0x0260 + n
/-- MEAS_HKn, n below 16 (R83). -/ def A.MEAS_HK (n : Nat) : Nat := 0x0280 + n
/-- MEAS_HK_INJR (R83). -/ def A.MEAS_HK_INJR : Nat := 0x0290
/-- SDP_CFG (R106). -/ def A.SDP_CFG : Nat := 0x0400
/-- SDP_STAT (R106). -/ def A.SDP_STAT : Nat := 0x0401
/-- SDP_CH_EN (R106). -/ def A.SDP_CH_EN : Nat := 0x0402
/-- SDP_ACC_CTRL (R106). -/ def A.SDP_ACC_CTRL : Nat := 0x0403
/-- SDP_ACC_TSL (R106). -/ def A.SDP_ACC_TSL : Nat := 0x0404
/-- SDP_ACC_TSH (R106). -/ def A.SDP_ACC_TSH : Nat := 0x0405
/-- SDP_RCNT (R106). -/ def A.SDP_RCNT : Nat := 0x0406
/-- SDP_OVRCNT (R106). -/ def A.SDP_OVRCNT : Nat := 0x0407
/-- SDP_EVT (R106). -/ def A.SDP_EVT : Nat := 0x0408
/-- SDP_EVT_EN (R106). -/ def A.SDP_EVT_EN : Nat := 0x0409
/-- SDP_SET_TSL (R106). -/ def A.SDP_SET_TSL : Nat := 0x040A
/-- SDP_SET_TSH (R106). -/ def A.SDP_SET_TSH : Nat := 0x040B
/-- SDP_SETFLG (R106). -/ def A.SDP_SETFLG : Nat := 0x040C
/-- SDP_RESn, n below 25 (R106). -/ def A.SDP_RES (n : Nat) : Nat := 0x0420 + n
/-- SDP_SCFGn, n below 24 (R106). -/ def A.SDP_SCFG (n : Nat) : Nat := 0x0440 + n
/-- SDP_SMASKn, n below 24 (R106). -/ def A.SDP_SMASK (n : Nat) : Nat := 0x0460 + n
/-- SDP_ACCLn, n below 25 (R106). -/ def A.SDP_ACCL (n : Nat) : Nat := 0x0480 + n
/-- SDP_ACCHn, n below 25 (R106). -/ def A.SDP_ACCH (n : Nat) : Nat := 0x04A0 + n
/-- SDP_ACNTn, n below 25 (R106). -/ def A.SDP_ACNT (n : Nat) : Nat := 0x04C0 + n
/-- SDP_MINn, n below 25 (R106). -/ def A.SDP_MIN (n : Nat) : Nat := 0x04E0 + n
/-- SDP_MAXn, n below 25 (R106). -/ def A.SDP_MAX (n : Nat) : Nat := 0x0500 + n
/-- IMP_CTRL (R140). -/ def A.IMP_CTRL : Nat := 0x0800
/-- IMP_STAT (R140). -/ def A.IMP_STAT : Nat := 0x0801
/-- IMP_GRID (R140). -/ def A.IMP_GRID : Nat := 0x0802
/-- IMP_RSHUNT (R140). -/ def A.IMP_RSHUNT : Nat := 0x0803
/-- IMP_LIM (R140). -/ def A.IMP_LIM : Nat := 0x0804
/-- IMP_EVT (R140). -/ def A.IMP_EVT : Nat := 0x0805
/-- IMP_EVT_EN (R140). -/ def A.IMP_EVT_EN : Nat := 0x0806
/-- IMP_RCNT (R140). -/ def A.IMP_RCNT : Nat := 0x0807
/-- IMP_NEWn, n below 5 (R140). -/ def A.IMP_NEW (n : Nat) : Nat := 0x0808 + n
/-- IMP_TONEn, n below 6 (R140). -/ def A.IMP_TONE (n : Nat) : Nat := 0x0810 + n
/-- IMP_TWINn, n below 6 (R140). -/ def A.IMP_TWIN (n : Nat) : Nat := 0x0818 + n
/-- IMP_FB_CTRL (R140). -/ def A.IMP_FB_CTRL : Nat := 0x0820
/-- IMP_FB_TONE (R140). -/ def A.IMP_FB_TONE : Nat := 0x0821
/-- IMP_FB_RBAL (R140). -/ def A.IMP_FB_RBAL : Nat := 0x0822
/-- IMP_FB_STAT (R140). -/ def A.IMP_FB_STAT : Nat := 0x0823
/-- IMP_FB_ZRE (R140). -/ def A.IMP_FB_ZRE : Nat := 0x0824
/-- IMP_FB_ZIM (R140). -/ def A.IMP_FB_ZIM : Nat := 0x0825
/-- IMP_CTX_CFGn, n below 160 (R140). -/ def A.IMP_CTX_CFG (n : Nat) : Nat := 0x0900 + 4 * n
/-- IMP_CTX_STATn, n below 160 (R140). -/ def A.IMP_CTX_STAT (n : Nat) : Nat := 0x0901 + 4 * n
/-- IMP_CTX_ZREn, n below 160 (R140). -/ def A.IMP_CTX_ZRE (n : Nat) : Nat := 0x0902 + 4 * n
/-- IMP_CTX_ZIMn, n below 160 (R140). -/ def A.IMP_CTX_ZIM (n : Nat) : Nat := 0x0903 + 4 * n
/-- PHC_CTRL (R178). -/ def A.PHC_CTRL : Nat := 0x0C00
/-- PHC_STAT (R178). -/ def A.PHC_STAT : Nat := 0x0C01
/-- PHC_VSET (R178). -/ def A.PHC_VSET : Nat := 0x0C02
/-- PHC_FSW (R178). -/ def A.PHC_FSW : Nat := 0x0C03
/-- PHC_LL (R178). -/ def A.PHC_LL : Nat := 0x0C04
/-- PHC_COMP (R178). -/ def A.PHC_COMP : Nat := 0x0C05
/-- PHC_SLOPE (R178). -/ def A.PHC_SLOPE : Nat := 0x0C06
/-- PHC_RSENSE (R178). -/ def A.PHC_RSENSE : Nat := 0x0C07
/-- PHC_SCLIM (R178). -/ def A.PHC_SCLIM : Nat := 0x0C08
/-- PHC_OLIM (R178). -/ def A.PHC_OLIM : Nat := 0x0C09
/-- PHC_SS (R178). -/ def A.PHC_SS : Nat := 0x0C0A
/-- PHC_SHED (R178). -/ def A.PHC_SHED : Nat := 0x0C0B
/-- PHC_SHED_I (R178). -/ def A.PHC_SHED_I : Nat := 0x0C0C
/-- PHC_TRIMCFG (R178). -/ def A.PHC_TRIMCFG : Nat := 0x0C0D
/-- PHC_SHARE (R178). -/ def A.PHC_SHARE : Nat := 0x0C0E
/-- PHC_SHARE_CFG (R178). -/ def A.PHC_SHARE_CFG : Nat := 0x0C0F
/-- PHC_TRIMn, n below 6 (R178). -/ def A.PHC_TRIM (n : Nat) : Nat := 0x0C10 + n
/-- PHC_SHARE_STAT (R178). -/ def A.PHC_SHARE_STAT : Nat := 0x0C16
/-- PHC_IPHn, n below 6 (R178). -/ def A.PHC_IPH (n : Nat) : Nat := 0x0C18 + n
/-- PHC_IOUT (R178). -/ def A.PHC_IOUT : Nat := 0x0C1E
/-- PHC_VOUT (R178). -/ def A.PHC_VOUT : Nat := 0x0C1F
/-- PHC_EVT (R178). -/ def A.PHC_EVT : Nat := 0x0C20
/-- PHC_EVT_EN (R178). -/ def A.PHC_EVT_EN : Nat := 0x0C21
/-- PHC_FAIL (R178). -/ def A.PHC_FAIL : Nat := 0x0C22
/-- PHC_OVR (R178). -/ def A.PHC_OVR : Nat := 0x0C23
/-- PHC_FLT (R178). -/ def A.PHC_FLT : Nat := 0x0C24
/-- PHC_FLT_TSL (R178). -/ def A.PHC_FLT_TSL : Nat := 0x0C25
/-- PHC_FLT_TSH (R178). -/ def A.PHC_FLT_TSH : Nat := 0x0C26
/-- PHC_SCCNT (R178). -/ def A.PHC_SCCNT : Nat := 0x0C27
/-- BAL_CTRL (R203). -/ def A.BAL_CTRL : Nat := 0x0E00
/-- BAL_REQ (R203). -/ def A.BAL_REQ : Nat := 0x0E01
/-- BAL_STAT (R203). -/ def A.BAL_STAT : Nat := 0x0E02
/-- BAL_DEF (R203). -/ def A.BAL_DEF : Nat := 0x0E03
/-- BAL_DONE (R203). -/ def A.BAL_DONE : Nat := 0x0E04
/-- BAL_FAULT (R203). -/ def A.BAL_FAULT : Nat := 0x0E05
/-- BAL_EVT (R203). -/ def A.BAL_EVT : Nat := 0x0E06
/-- BAL_EVT_EN (R203). -/ def A.BAL_EVT_EN : Nat := 0x0E07
/-- BAL_SLOTS (R203). -/ def A.BAL_SLOTS : Nat := 0x0E08
/-- BAL_CNTn, n below 24 (R203). -/ def A.BAL_CNT (n : Nat) : Nat := 0x0E20 + n
/-- GRD_STAT (R371). -/ def A.GRD_STAT : Nat := 0x0F00
/-- GRD_FLT (R371). -/ def A.GRD_FLT : Nat := 0x0F01
/-- GRD_FSRC (R371). -/ def A.GRD_FSRC : Nat := 0x0F02
/-- GRD_OVC (R371). -/ def A.GRD_OVC : Nat := 0x0F03
/-- GRD_UVC (R371). -/ def A.GRD_UVC : Nat := 0x0F04
/-- GRD_SI (R371). -/ def A.GRD_SI : Nat := 0x0F05
/-- GRD_LOOP (R371). -/ def A.GRD_LOOP : Nat := 0x0F06
/-- GRD_WD (R371). -/ def A.GRD_WD : Nat := 0x0F07
/-- GRD_EVT (R371). -/ def A.GRD_EVT : Nat := 0x0F08
/-- GRD_EVT_EN (R371). -/ def A.GRD_EVT_EN : Nat := 0x0F09
/-- GRD_PCRC (R371). -/ def A.GRD_PCRC : Nat := 0x0F0A
/-- GRD_COMMIT (R371). -/ def A.GRD_COMMIT : Nat := 0x0F0B
/-- GRD_UNLK (R371). -/ def A.GRD_UNLK : Nat := 0x0F0C
/-- GRD_FLT_TSL (R371). -/ def A.GRD_FLT_TSL : Nat := 0x0F0D
/-- GRD_FLT_TSH (R371). -/ def A.GRD_FLT_TSH : Nat := 0x0F0E
/-- GRD_Pn, n below 64 (R371). -/ def A.GRD_P (n : Nat) : Nat := 0x0F40 + n
/-- CHN_P_CTRLn, n below 2 (R230). -/ def A.CHN_P_CTRL (n : Nat) : Nat := 0x1000 + 16 * n
/-- CHN_P_STATn, n below 2 (R230). -/ def A.CHN_P_STAT (n : Nat) : Nat := 0x1001 + 16 * n
/-- CHN_P_CNTn, n below 2 (R230). -/ def A.CHN_P_CNT (n : Nat) : Nat := 0x1002 + 16 * n
/-- CHN_P_EQn, n below 2 (R230). -/ def A.CHN_P_EQ (n : Nat) : Nat := 0x1003 + 16 * n
/-- CHN_P_EVTn, n below 2 (R230). -/ def A.CHN_P_EVT (n : Nat) : Nat := 0x1004 + 16 * n
/-- CHN_P_EVT_ENn, n below 2 (R230). -/ def A.CHN_P_EVT_EN (n : Nat) : Nat := 0x1005 + 16 * n
/-- CHN_P_ERRn, n below 2 (R230). -/ def A.CHN_P_ERR (n : Nat) : Nat := 0x1006 + 16 * n
/-- CHN_P_GAPn, n below 2 (R230). -/ def A.CHN_P_GAP (n : Nat) : Nat := 0x1007 + 16 * n
/-- CHN_P_RTXn, n below 2 (R230). -/ def A.CHN_P_RTX (n : Nat) : Nat := 0x1008 + 16 * n
/-- CHN_P_DISCn, n below 2 (R230). -/ def A.CHN_P_DISC (n : Nat) : Nat := 0x1009 + 16 * n
/-- CHN_P_FRXn, n below 2 (R230). -/ def A.CHN_P_FRX (n : Nat) : Nat := 0x100A + 16 * n
/-- CHN_P_FTXn, n below 2 (R230). -/ def A.CHN_P_FTX (n : Nat) : Nat := 0x100B + 16 * n
/-- CHN_P_PEERHn, n below 2 (R230). -/ def A.CHN_P_PEERH (n : Nat) : Nat := 0x100C + 16 * n
/-- CHN_P_PEERLn, n below 2 (R230). -/ def A.CHN_P_PEERL (n : Nat) : Nat := 0x100D + 16 * n
/-- CHN_NET_CTRL (R265). -/ def A.CHN_NET_CTRL : Nat := 0x1020
/-- CHN_NET_STAT (R265). -/ def A.CHN_NET_STAT : Nat := 0x1021
/-- CHN_NET_EVT (R265). -/ def A.CHN_NET_EVT : Nat := 0x1022
/-- CHN_NET_EVT_EN (R265). -/ def A.CHN_NET_EVT_EN : Nat := 0x1023
/-- CHN_NET_CFG (R265). -/ def A.CHN_NET_CFG : Nat := 0x1024
/-- CHN_NET_CNT (R265). -/ def A.CHN_NET_CNT : Nat := 0x1025
/-- CHN_TIME_STAT (R265). -/ def A.CHN_TIME_STAT : Nat := 0x1026
/-- CHN_TIME_DLY (R265). -/ def A.CHN_TIME_DLY : Nat := 0x1027
/-- CHN_TIME_FREQ (R265). -/ def A.CHN_TIME_FREQ : Nat := 0x1028
/-- CHN_EPOCH_BL (R265). -/ def A.CHN_EPOCH_BL : Nat := 0x1029
/-- CHN_EPOCH_BH (R265). -/ def A.CHN_EPOCH_BH : Nat := 0x102A
/-- CHN_EPOCH_NBL (R265). -/ def A.CHN_EPOCH_NBL : Nat := 0x102B
/-- CHN_EPOCH_NBH (R265). -/ def A.CHN_EPOCH_NBH : Nat := 0x102C
/-- CHN_EPOCH_ACTL (R265). -/ def A.CHN_EPOCH_ACTL : Nat := 0x102D
/-- CHN_EPOCH_ACTH (R265). -/ def A.CHN_EPOCH_ACTH : Nat := 0x102E
/-- CHN_HOST_CFG (R265). -/ def A.CHN_HOST_CFG : Nat := 0x102F
/-- CHN_HOST_STAT (R265). -/ def A.CHN_HOST_STAT : Nat := 0x1030
/-- CHN_HOST_IRQEN (R265). -/ def A.CHN_HOST_IRQEN : Nat := 0x1031
/-- CHN_HOST_CNT (R265). -/ def A.CHN_HOST_CNT : Nat := 0x1032
/-- CHN_MIR_BASE (R265). -/ def A.CHN_MIR_BASE : Nat := 0x1033
/-- CHN_HEAD_UNK (R265). -/ def A.CHN_HEAD_UNK : Nat := 0x1034
/-- CHN_LOSTL (R265). -/ def A.CHN_LOSTL : Nat := 0x1036
/-- CHN_LOSTH (R265). -/ def A.CHN_LOSTH : Nat := 0x1037
/-- CHN_ASGL (R265). -/ def A.CHN_ASGL : Nat := 0x1038
/-- CHN_ASGH (R265). -/ def A.CHN_ASGH : Nat := 0x1039
/-- CHN_POSn, n below 16 (R265). -/ def A.CHN_POS (n : Nat) : Nat := 0x1040 + n
/-- CHN_MIR_An, n below 16 (R265). -/ def A.CHN_MIR_A (n : Nat) : Nat := 0x1050 + 2 * n
/-- CHN_MIR_Pn, n below 16 (R265). -/ def A.CHN_MIR_P (n : Nat) : Nat := 0x1051 + 2 * n
/-- CHN_BIND_Hn, n below 64 (R265). -/ def A.CHN_BIND_H (n : Nat) : Nat := 0x1100 + 2 * n
/-- CHN_BIND_Ln, n below 64 (R265). -/ def A.CHN_BIND_L (n : Nat) : Nat := 0x1101 + 2 * n
/-- CHN_SLOTF_Hn, n below 64 (R265). -/ def A.CHN_SLOTF_H (n : Nat) : Nat := 0x1180 + 2 * n
/-- CHN_SLOTF_Ln, n below 64 (R265). -/ def A.CHN_SLOTF_L (n : Nat) : Nat := 0x1181 + 2 * n
/-- STB_CFGn, n below 1536 (R265). -/ def A.STB_CFG (n : Nat) : Nat := 0x1400 + 2 * n
/-- STB_STATn, n below 1536 (R265). -/ def A.STB_STAT (n : Nat) : Nat := 0x1401 + 2 * n
/-- SAT_CTRL (R288). -/ def A.SAT_CTRL : Nat := 0x2000
/-- SAT_STAT (R288). -/ def A.SAT_STAT : Nat := 0x2001
/-- SAT_CFG (R288). -/ def A.SAT_CFG : Nat := 0x2002
/-- SAT_EVT (R288). -/ def A.SAT_EVT : Nat := 0x2003
/-- SAT_EVT_EN (R288). -/ def A.SAT_EVT_EN : Nat := 0x2004
/-- SAT_XCTL (R288). -/ def A.SAT_XCTL : Nat := 0x2005
/-- SAT_XSTAT (R288). -/ def A.SAT_XSTAT : Nat := 0x2006
/-- SAT_XDATn, n below 4 (R288). -/ def A.SAT_XDAT (n : Nat) : Nat := 0x2008 + n
/-- SAT_CNT (R288). -/ def A.SAT_CNT : Nat := 0x200C
/-- SAT_VALID (R288). -/ def A.SAT_VALID : Nat := 0x200D
/-- SAT_ATTN (R288). -/ def A.SAT_ATTN : Nat := 0x200E
/-- SAT_LOSTP (R288). -/ def A.SAT_LOSTP : Nat := 0x200F
/-- SAT_POD_Hn, n below 32 (R288). -/ def A.SAT_POD_H (n : Nat) : Nat := 0x2040 + 2 * n
/-- SAT_POD_Ln, n below 32 (R288). -/ def A.SAT_POD_L (n : Nat) : Nat := 0x2041 + 2 * n
/-- SAT_RDn, n below 32 (R288). -/ def A.SAT_RD (n : Nat) : Nat := 0x2080 + n
/-- SAT_RSn, n below 32 (R288). -/ def A.SAT_RS (n : Nat) : Nat := 0x20A0 + n
/-- INK_CTRL (R317). -/ def A.INK_CTRL : Nat := 0x2100
/-- INK_STAT (R317). -/ def A.INK_STAT : Nat := 0x2101
/-- INK_ENTRY (R317). -/ def A.INK_ENTRY : Nat := 0x2102
/-- INK_FLT (R317). -/ def A.INK_FLT : Nat := 0x2103
/-- INK_FLT_TSL (R317). -/ def A.INK_FLT_TSL : Nat := 0x2104
/-- INK_FLT_TSH (R317). -/ def A.INK_FLT_TSH : Nat := 0x2105
/-- INK_EPEND (R317). -/ def A.INK_EPEND : Nat := 0x2106
/-- INK_EVT (R317). -/ def A.INK_EVT : Nat := 0x2107
/-- INK_SWSET (R317). -/ def A.INK_SWSET : Nat := 0x2108
/-- INK_XCPL (R317). -/ def A.INK_XCPL : Nat := 0x2109
/-- INK_XSTAT (R317). -/ def A.INK_XSTAT : Nat := 0x210A
/-- INK_SAFE (R317). -/ def A.INK_SAFE : Nat := 0x210B
/-- INK_WDC (R317). -/ def A.INK_WDC : Nat := 0x210C
/-- INK_SLATL (R317). -/ def A.INK_SLATL : Nat := 0x210D
/-- INK_SLATH (R317). -/ def A.INK_SLATH : Nat := 0x210E
/-- INK_SLATG (R317). -/ def A.INK_SLATG : Nat := 0x210F
/-- INK_ECC (R317). -/ def A.INK_ECC : Nat := 0x2110
/-- INK_MBXA (R317). -/ def A.INK_MBXA : Nat := 0x2111
/-- INK_TMRn, n below 4 (R317). -/ def A.INK_TMR (n : Nat) : Nat := 0x2114 + n
/-- STO_EVT (R398). -/ def A.STO_EVT : Nat := 0x2200
/-- STO_EVT_EN (R398). -/ def A.STO_EVT_EN : Nat := 0x2201
/-- STO_ECC (R398). -/ def A.STO_ECC : Nat := 0x2202
/-- STO_ECC_ADDR (R398). -/ def A.STO_ECC_ADDR : Nat := 0x2203
/-- STO_CEL_CTRL (R398). -/ def A.STO_CEL_CTRL : Nat := 0x2210
/-- STO_CEL_STAT (R398). -/ def A.STO_CEL_STAT : Nat := 0x2211
/-- STO_CEL_ECC (R398). -/ def A.STO_CEL_ECC : Nat := 0x2212
/-- STO_CEL_ADDR (R398). -/ def A.STO_CEL_ADDR : Nat := 0x2213
/-- STO_RING_EVT (R398). -/ def A.STO_RING_EVT : Nat := 0x2214
/-- STO_RING_EVT_EN (R398). -/ def A.STO_RING_EVT_EN : Nat := 0x2215
/-- STO_LDG_STAT (R398). -/ def A.STO_LDG_STAT : Nat := 0x2220
/-- STO_LDG_NEW (R398). -/ def A.STO_LDG_NEW : Nat := 0x2221
/-- STO_LDG_LOG (R398). -/ def A.STO_LDG_LOG : Nat := 0x2222
/-- STO_LDG_RA (R398). -/ def A.STO_LDG_RA : Nat := 0x2223
/-- STO_LDG_RD (R398). -/ def A.STO_LDG_RD : Nat := 0x2224
/-- STO_CRC_CFGn, n below 4 (R398). -/ def A.STO_CRC_CFG (n : Nat) : Nat := 0x2230 + 8 * n
/-- STO_CRC_DATAn, n below 4 (R398). -/ def A.STO_CRC_DATA (n : Nat) : Nat := 0x2231 + 8 * n
/-- STO_CRC_DATABn, n below 4 (R398). -/ def A.STO_CRC_DATAB (n : Nat) : Nat := 0x2232 + 8 * n
/-- STO_CRC_RESn, n below 4 (R398). -/ def A.STO_CRC_RES (n : Nat) : Nat := 0x2233 + 8 * n
/-- STO_CRC_STATEn, n below 4 (R398). -/ def A.STO_CRC_STATE (n : Nat) : Nat := 0x2234 + 8 * n
/-- STO_RING_CFGn, n below 16 (R398). -/ def A.STO_RING_CFG (n : Nat) : Nat := 0x2280 + 8 * n
/-- STO_RING_BASEn, n below 16 (R398). -/ def A.STO_RING_BASE (n : Nat) : Nat := 0x2281 + 8 * n
/-- STO_RING_SIZEn, n below 16 (R398). -/ def A.STO_RING_SIZE (n : Nat) : Nat := 0x2282 + 8 * n
/-- STO_RING_WRn, n below 16 (R398). -/ def A.STO_RING_WR (n : Nat) : Nat := 0x2283 + 8 * n
/-- STO_RING_RDn, n below 16 (R398). -/ def A.STO_RING_RD (n : Nat) : Nat := 0x2284 + 8 * n
/-- STO_RING_OLDn, n below 16 (R398). -/ def A.STO_RING_OLD (n : Nat) : Nat := 0x2285 + 8 * n
/-- STO_RING_LOSSn, n below 16 (R398). -/ def A.STO_RING_LOSS (n : Nat) : Nat := 0x2286 + 8 * n
/-- STO_BOOT_STAT (R338). -/ def A.STO_BOOT_STAT : Nat := 0x23F0
/-- STO_BOOT_VER (R338). -/ def A.STO_BOOT_VER : Nat := 0x23F1
/-- STO_BOOT_INIT (R338). -/ def A.STO_BOOT_INIT : Nat := 0x23F2
/-- STO_BOOT_TIME (R338). -/ def A.STO_BOOT_TIME : Nat := 0x23F3
/-- STO_LDR_STAT (R338). -/ def A.STO_LDR_STAT : Nat := 0x23F4

/-! ### Fields -/

/-- PTR_STAT.STATE, bits 2:0 (R422). -/ def F.PTR_STAT.STATE : Fld := ⟨A.PTR_STAT, 0, 3⟩
/-- PTR_STAT.VSUP, bits 4:4 (R422). -/ def F.PTR_STAT.VSUP : Fld := ⟨A.PTR_STAT, 4, 1⟩
/-- PTR_STAT.TVALID, bits 5:5 (R422). -/ def F.PTR_STAT.TVALID : Fld := ⟨A.PTR_STAT, 5, 1⟩
/-- PTR_STAT.REFUSE, bits 11:8 (R422). -/ def F.PTR_STAT.REFUSE : Fld := ⟨A.PTR_STAT, 8, 4⟩
/-- PTR_REQ.TARGET, bits 2:0 (R422). -/ def F.PTR_REQ.TARGET : Fld := ⟨A.PTR_REQ, 0, 3⟩
/-- PTR_REQ.TO, bits 8:8 (R422). -/ def F.PTR_REQ.TO : Fld := ⟨A.PTR_REQ, 8, 1⟩
/-- PTR_REQ.LO, bits 9:9 (R422). -/ def F.PTR_REQ.LO : Fld := ⟨A.PTR_REQ, 9, 1⟩
/-- PTR_REQ.KEY, bits 31:24 (R422). -/ def F.PTR_REQ.KEY : Fld := ⟨A.PTR_REQ, 24, 8⟩
/-- PTR_CFG.RCV_GRD, bits 0:0 (R422). -/ def F.PTR_CFG.RCV_GRD : Fld := ⟨A.PTR_CFG, 0, 1⟩
/-- PTR_CFG.STBY_MAX, bits 31:16 (R422). -/ def F.PTR_CFG.STBY_MAX : Fld := ⟨A.PTR_CFG, 16, 16⟩
/-- PTR_DOM.REQ, bits 9:0 (R422). -/ def F.PTR_DOM.REQ : Fld := ⟨A.PTR_DOM, 0, 10⟩
/-- PTR_DOM_STAT.ON, bits 9:0 (R422). -/ def F.PTR_DOM_STAT.ON : Fld := ⟨A.PTR_DOM_STAT, 0, 10⟩
/-- PTR_EVT.STATE, bits 0:0 (R422). -/ def F.PTR_EVT.STATE : Fld := ⟨A.PTR_EVT, 0, 1⟩
/-- PTR_EVT.REQ_REFUSED, bits 1:1 (R422). -/ def F.PTR_EVT.REQ_REFUSED : Fld := ⟨A.PTR_EVT, 1, 1⟩
/-- PTR_EVT.DEP_ERR, bits 2:2 (R422). -/ def F.PTR_EVT.DEP_ERR : Fld := ⟨A.PTR_EVT, 2, 1⟩
/-- PTR_EVT.RCV, bits 3:3 (R422). -/ def F.PTR_EVT.RCV : Fld := ⟨A.PTR_EVT, 3, 1⟩
/-- PTR_EVT.SUP_LIM, bits 4:4 (R422). -/ def F.PTR_EVT.SUP_LIM : Fld := ⟨A.PTR_EVT, 4, 1⟩
/-- PTR_EVT.WAKE_HELD, bits 5:5 (R422). -/ def F.PTR_EVT.WAKE_HELD : Fld := ⟨A.PTR_EVT, 5, 1⟩
/-- PTR_EVT_EN.STATE, bits 0:0 (R422). -/ def F.PTR_EVT_EN.STATE : Fld := ⟨A.PTR_EVT_EN, 0, 1⟩
/-- PTR_EVT_EN.REQ_REFUSED, bits 1:1 (R422). -/ def F.PTR_EVT_EN.REQ_REFUSED : Fld := ⟨A.PTR_EVT_EN, 1, 1⟩
/-- PTR_EVT_EN.DEP_ERR, bits 2:2 (R422). -/ def F.PTR_EVT_EN.DEP_ERR : Fld := ⟨A.PTR_EVT_EN, 2, 1⟩
/-- PTR_EVT_EN.RCV, bits 3:3 (R422). -/ def F.PTR_EVT_EN.RCV : Fld := ⟨A.PTR_EVT_EN, 3, 1⟩
/-- PTR_EVT_EN.SUP_LIM, bits 4:4 (R422). -/ def F.PTR_EVT_EN.SUP_LIM : Fld := ⟨A.PTR_EVT_EN, 4, 1⟩
/-- PTR_EVT_EN.WAKE_HELD, bits 5:5 (R422). -/ def F.PTR_EVT_EN.WAKE_HELD : Fld := ⟨A.PTR_EVT_EN, 5, 1⟩
/-- PTR_RST.POR, bits 0:0 (R422). -/ def F.PTR_RST.POR : Fld := ⟨A.PTR_RST, 0, 1⟩
/-- PTR_RST.NRST, bits 1:1 (R422). -/ def F.PTR_RST.NRST : Fld := ⟨A.PTR_RST, 1, 1⟩
/-- PTR_RST.NRST_STUCK, bits 2:2 (R422). -/ def F.PTR_RST.NRST_STUCK : Fld := ⟨A.PTR_RST, 2, 1⟩
/-- PTR_RST.VSTK_UV, bits 3:3 (R422). -/ def F.PTR_RST.VSTK_UV : Fld := ⟨A.PTR_RST, 3, 1⟩
/-- PTR_RST.SUP_LIM, bits 4:4 (R422). -/ def F.PTR_RST.SUP_LIM : Fld := ⟨A.PTR_RST, 4, 1⟩
/-- PTR_RST.COUNT, bits 15:8 (R422). -/ def F.PTR_RST.COUNT : Fld := ⟨A.PTR_RST, 8, 8⟩
/-- PTR_RCV.INK, bits 0:0 (R422). -/ def F.PTR_RCV.INK : Fld := ⟨A.PTR_RCV, 0, 1⟩
/-- PTR_RCV.GRD, bits 1:1 (R422). -/ def F.PTR_RCV.GRD : Fld := ⟨A.PTR_RCV, 1, 1⟩
/-- PTR_RCV.PROG, bits 2:2 (R422). -/ def F.PTR_RCV.PROG : Fld := ⟨A.PTR_RCV, 2, 1⟩
/-- PTR_WAKE_EN.EN, bits 5:0 (R422). -/ def F.PTR_WAKE_EN.EN : Fld := ⟨A.PTR_WAKE_EN, 0, 6⟩
/-- PTR_WAKE_CAUSE.CAUSE, bits 5:0 (R422). -/ def F.PTR_WAKE_CAUSE.CAUSE : Fld := ⟨A.PTR_WAKE_CAUSE, 0, 6⟩
/-- PTR_WCFG.VLO, bits 7:0 (R422). -/ def F.PTR_WCFG.VLO : Fld := ⟨A.PTR_WCFG, 0, 8⟩
/-- PTR_WCFG.VHI, bits 15:8 (R422). -/ def F.PTR_WCFG.VHI : Fld := ⟨A.PTR_WCFG, 8, 8⟩
/-- PTR_WCFG.VPER, bits 18:16 (R422). -/ def F.PTR_WCFG.VPER : Fld := ⟨A.PTR_WCFG, 16, 3⟩
/-- PTR_WCFG.WDEB, bits 27:24 (R422). -/ def F.PTR_WCFG.WDEB : Fld := ⟨A.PTR_WCFG, 24, 4⟩
/-- PTR_TIMEL.TIME, bits 31:0 (R422). -/ def F.PTR_TIMEL.TIME : Fld := ⟨A.PTR_TIMEL, 0, 32⟩
/-- PTR_TIMEH.TIME, bits 31:0 (R422). -/ def F.PTR_TIMEH.TIME : Fld := ⟨A.PTR_TIMEH, 0, 32⟩
/-- PTR_ALARML.ALARM, bits 31:0 (R422). -/ def F.PTR_ALARML.ALARM : Fld := ⟨A.PTR_ALARML, 0, 32⟩
/-- PTR_ALARMH.ALARM, bits 31:0 (R422). -/ def F.PTR_ALARMH.ALARM : Fld := ⟨A.PTR_ALARMH, 0, 32⟩
/-- THM_CTRL.FLOOR, bits 2:0 (R203). -/ def F.THM_CTRL.FLOOR : Fld := ⟨A.THM_CTRL, 0, 3⟩
/-- THM_CTRL.LOST_CLR, bits 8:8 (R203). -/ def F.THM_CTRL.LOST_CLR : Fld := ⟨A.THM_CTRL, 8, 1⟩
/-- THM_CTRL.SRC, bits 20:16 (R203). -/ def F.THM_CTRL.SRC : Fld := ⟨A.THM_CTRL, 16, 5⟩
/-- THM_STAT.LEVEL, bits 2:0 (R203). -/ def F.THM_STAT.LEVEL : Fld := ⟨A.THM_STAT, 0, 3⟩
/-- THM_STAT.CALC, bits 6:4 (R203). -/ def F.THM_STAT.CALC : Fld := ⟨A.THM_STAT, 4, 3⟩
/-- THM_STAT.HOT, bits 10:8 (R203). -/ def F.THM_STAT.HOT : Fld := ⟨A.THM_STAT, 8, 3⟩
/-- THM_STAT.LOST_HOLD, bits 12:12 (R203). -/ def F.THM_STAT.LOST_HOLD : Fld := ⟨A.THM_STAT, 12, 1⟩
/-- THM_STAT.ROR_ACT, bits 13:13 (R203). -/ def F.THM_STAT.ROR_ACT : Fld := ⟨A.THM_STAT, 13, 1⟩
/-- THM_STAT.TMAX, bits 31:16 (R203). -/ def F.THM_STAT.TMAX : Fld := ⟨A.THM_STAT, 16, 16⟩
/-- THM_LIM.TON, bits 8:0 (R203). -/ def F.THM_LIM.TON : Fld := ⟨A.THM_LIM, 0, 9⟩
/-- THM_LIM.STEP, bits 15:12 (R203). -/ def F.THM_LIM.STEP : Fld := ⟨A.THM_LIM, 12, 4⟩
/-- THM_LIM.HYS, bits 19:16 (R203). -/ def F.THM_LIM.HYS : Fld := ⟨A.THM_LIM, 16, 4⟩
/-- THM_LIM.LOSTP, bits 26:24 (R203). -/ def F.THM_LIM.LOSTP : Fld := ⟨A.THM_LIM, 24, 3⟩
/-- THM_ROR.RORTH, bits 11:0 (R203). -/ def F.THM_ROR.RORTH : Fld := ⟨A.THM_ROR, 0, 12⟩
/-- THM_ROR.RORP, bits 26:24 (R203). -/ def F.THM_ROR.RORP : Fld := ⟨A.THM_ROR, 24, 3⟩
/-- THM_XCHK.XDIFF, bits 7:0 (R203). -/ def F.THM_XCHK.XDIFF : Fld := ⟨A.THM_XCHK, 0, 8⟩
/-- THM_EVT.LEVEL, bits 0:0 (R203). -/ def F.THM_EVT.LEVEL : Fld := ⟨A.THM_EVT, 0, 1⟩
/-- THM_EVT.ROR, bits 1:1 (R203). -/ def F.THM_EVT.ROR : Fld := ⟨A.THM_EVT, 1, 1⟩
/-- THM_EVT.SENSOR_FAIL, bits 2:2 (R203). -/ def F.THM_EVT.SENSOR_FAIL : Fld := ⟨A.THM_EVT, 2, 1⟩
/-- THM_EVT.LOST_HOLD, bits 3:3 (R203). -/ def F.THM_EVT.LOST_HOLD : Fld := ⟨A.THM_EVT, 3, 1⟩
/-- THM_EVT.TC_HOLD, bits 4:4 (R203). -/ def F.THM_EVT.TC_HOLD : Fld := ⟨A.THM_EVT, 4, 1⟩
/-- THM_EVT.CFG_REFUSED, bits 5:5 (R203). -/ def F.THM_EVT.CFG_REFUSED : Fld := ⟨A.THM_EVT, 5, 1⟩
/-- THM_EVT_EN.LEVEL, bits 0:0 (R203). -/ def F.THM_EVT_EN.LEVEL : Fld := ⟨A.THM_EVT_EN, 0, 1⟩
/-- THM_EVT_EN.ROR, bits 1:1 (R203). -/ def F.THM_EVT_EN.ROR : Fld := ⟨A.THM_EVT_EN, 1, 1⟩
/-- THM_EVT_EN.SENSOR_FAIL, bits 2:2 (R203). -/ def F.THM_EVT_EN.SENSOR_FAIL : Fld := ⟨A.THM_EVT_EN, 2, 1⟩
/-- THM_EVT_EN.LOST_HOLD, bits 3:3 (R203). -/ def F.THM_EVT_EN.LOST_HOLD : Fld := ⟨A.THM_EVT_EN, 3, 1⟩
/-- THM_EVT_EN.TC_HOLD, bits 4:4 (R203). -/ def F.THM_EVT_EN.TC_HOLD : Fld := ⟨A.THM_EVT_EN, 4, 1⟩
/-- THM_EVT_EN.CFG_REFUSED, bits 5:5 (R203). -/ def F.THM_EVT_EN.CFG_REFUSED : Fld := ⟨A.THM_EVT_EN, 5, 1⟩
/-- THM_FAIL.FAIL, bits 4:0 (R203). -/ def F.THM_FAIL.FAIL : Fld := ⟨A.THM_FAIL, 0, 5⟩
/-- THM_DSn.TEMP, bits 15:0 (R203). -/ def F.THM_DS.TEMP (n : Nat) : Fld := ⟨A.THM_DS n, 0, 16⟩
/-- THM_DSn.ROR, bits 31:16 (R203). -/ def F.THM_DS.ROR (n : Nat) : Fld := ⟨A.THM_DS n, 16, 16⟩
/-- THM_TC.REFTRIM, bits 11:0 (R203). -/ def F.THM_TC.REFTRIM : Fld := ⟨A.THM_TC, 0, 12⟩
/-- THM_TC.RCTRIM, bits 23:12 (R203). -/ def F.THM_TC.RCTRIM : Fld := ⟨A.THM_TC, 12, 12⟩
/-- THM_TC.KTRIM, bits 31:24 (R203). -/ def F.THM_TC.KTRIM : Fld := ⟨A.THM_TC, 24, 8⟩
/-- THM_SD.G150, bits 0:0 (R203). -/ def F.THM_SD.G150 : Fld := ⟨A.THM_SD, 0, 1⟩
/-- THM_SD.P165, bits 1:1 (R203). -/ def F.THM_SD.P165 : Fld := ⟨A.THM_SD, 1, 1⟩
/-- THM_SD.LDG_ABORT, bits 2:2 (R203). -/ def F.THM_SD.LDG_ABORT : Fld := ⟨A.THM_SD, 2, 1⟩
/-- TRU_STAT.GEN_BAD, bits 2:2 (R445). -/ def F.TRU_STAT.GEN_BAD : Fld := ⟨A.TRU_STAT, 2, 1⟩
/-- TRU_STAT.OTP_INCOMPLETE, bits 3:3 (R445). -/ def F.TRU_STAT.OTP_INCOMPLETE : Fld := ⟨A.TRU_STAT, 3, 1⟩
/-- TRU_STAT.OTP_WEAK, bits 4:4 (R445). -/ def F.TRU_STAT.OTP_WEAK : Fld := ⟨A.TRU_STAT, 4, 1⟩
/-- TRU_STAT.IMGKEY, bits 5:5 (R445). -/ def F.TRU_STAT.IMGKEY : Fld := ⟨A.TRU_STAT, 5, 1⟩
/-- TRU_STAT.HOSTKEY, bits 6:6 (R445). -/ def F.TRU_STAT.HOSTKEY : Fld := ⟨A.TRU_STAT, 6, 1⟩
/-- TRU_STAT.KEYBAD, bits 7:7 (R445). -/ def F.TRU_STAT.KEYBAD : Fld := ⟨A.TRU_STAT, 7, 1⟩
/-- TRU_STAT.VPP_OK, bits 8:8 (R445). -/ def F.TRU_STAT.VPP_OK : Fld := ⟨A.TRU_STAT, 8, 1⟩
/-- TRU_STAT.PRG_BUSY, bits 9:9 (R445). -/ def F.TRU_STAT.PRG_BUSY : Fld := ⟨A.TRU_STAT, 9, 1⟩
/-- TRU_STAT.ARMED, bits 30:30 (R445). -/ def F.TRU_STAT.ARMED : Fld := ⟨A.TRU_STAT, 30, 1⟩
/-- TRU_STAT.KEYS_CLR, bits 31:31 (R445). -/ def F.TRU_STAT.KEYS_CLR : Fld := ⟨A.TRU_STAT, 31, 1⟩
/-- TRU_EVT.WEAK, bits 0:0 (R445). -/ def F.TRU_EVT.WEAK : Fld := ⟨A.TRU_EVT, 0, 1⟩
/-- TRU_EVT.REBURN, bits 1:1 (R445). -/ def F.TRU_EVT.REBURN : Fld := ⟨A.TRU_EVT, 1, 1⟩
/-- TRU_EVT.REGION_BAD, bits 2:2 (R445). -/ def F.TRU_EVT.REGION_BAD : Fld := ⟨A.TRU_EVT, 2, 1⟩
/-- TRU_EVT.PRG_DONE, bits 3:3 (R445). -/ def F.TRU_EVT.PRG_DONE : Fld := ⟨A.TRU_EVT, 3, 1⟩
/-- TRU_EVT.ST_FAIL, bits 4:4 (R445). -/ def F.TRU_EVT.ST_FAIL : Fld := ⟨A.TRU_EVT, 4, 1⟩
/-- TRU_EVT.ST_DONE, bits 5:5 (R445). -/ def F.TRU_EVT.ST_DONE : Fld := ⟨A.TRU_EVT, 5, 1⟩
/-- TRU_EVT.TEST_REFUSED, bits 6:6 (R445). -/ def F.TRU_EVT.TEST_REFUSED : Fld := ⟨A.TRU_EVT, 6, 1⟩
/-- TRU_EVT_EN.WEAK, bits 0:0 (R445). -/ def F.TRU_EVT_EN.WEAK : Fld := ⟨A.TRU_EVT_EN, 0, 1⟩
/-- TRU_EVT_EN.REBURN, bits 1:1 (R445). -/ def F.TRU_EVT_EN.REBURN : Fld := ⟨A.TRU_EVT_EN, 1, 1⟩
/-- TRU_EVT_EN.REGION_BAD, bits 2:2 (R445). -/ def F.TRU_EVT_EN.REGION_BAD : Fld := ⟨A.TRU_EVT_EN, 2, 1⟩
/-- TRU_EVT_EN.PRG_DONE, bits 3:3 (R445). -/ def F.TRU_EVT_EN.PRG_DONE : Fld := ⟨A.TRU_EVT_EN, 3, 1⟩
/-- TRU_EVT_EN.ST_FAIL, bits 4:4 (R445). -/ def F.TRU_EVT_EN.ST_FAIL : Fld := ⟨A.TRU_EVT_EN, 4, 1⟩
/-- TRU_EVT_EN.ST_DONE, bits 5:5 (R445). -/ def F.TRU_EVT_EN.ST_DONE : Fld := ⟨A.TRU_EVT_EN, 5, 1⟩
/-- TRU_EVT_EN.TEST_REFUSED, bits 6:6 (R445). -/ def F.TRU_EVT_EN.TEST_REFUSED : Fld := ⟨A.TRU_EVT_EN, 6, 1⟩
/-- OTP_LOCK.PL, bits 15:0 (R445). -/ def F.OTP_LOCK.PL : Fld := ⟨A.OTP_LOCK, 0, 16⟩
/-- OTP_LOCK.RL, bits 31:16 (R445). -/ def F.OTP_LOCK.RL : Fld := ⟨A.OTP_LOCK, 16, 16⟩
/-- TRU_LOCKF.LF, bits 15:0 (R445). -/ def F.TRU_LOCKF.LF : Fld := ⟨A.TRU_LOCKF, 0, 16⟩
/-- TRU_RSTAT.ST, bits 31:0 (R445). -/ def F.TRU_RSTAT.ST : Fld := ⟨A.TRU_RSTAT, 0, 32⟩
/-- TRU_OTP_ADDR.ADDR, bits 9:0 (R445). -/ def F.TRU_OTP_ADDR.ADDR : Fld := ⟨A.TRU_OTP_ADDR, 0, 10⟩
/-- TRU_OTP_DATA.DATA, bits 31:0 (R445). -/ def F.TRU_OTP_DATA.DATA : Fld := ⟨A.TRU_OTP_DATA, 0, 32⟩
/-- TRU_OTP_CHK.CHK, bits 6:0 (R445). -/ def F.TRU_OTP_CHK.CHK : Fld := ⟨A.TRU_OTP_CHK, 0, 7⟩
/-- TRU_OTP_CHK.RLOCK, bits 28:28 (R445). -/ def F.TRU_OTP_CHK.RLOCK : Fld := ⟨A.TRU_OTP_CHK, 28, 1⟩
/-- TRU_OTP_CHK.UNCOR, bits 29:29 (R445). -/ def F.TRU_OTP_CHK.UNCOR : Fld := ⟨A.TRU_OTP_CHK, 29, 1⟩
/-- TRU_OTP_CHK.WEAK, bits 30:30 (R445). -/ def F.TRU_OTP_CHK.WEAK : Fld := ⟨A.TRU_OTP_CHK, 30, 1⟩
/-- TRU_OTP_CHK.COR, bits 31:31 (R445). -/ def F.TRU_OTP_CHK.COR : Fld := ⟨A.TRU_OTP_CHK, 31, 1⟩
/-- TRU_PRG_DATA.DATA, bits 31:0 (R445). -/ def F.TRU_PRG_DATA.DATA : Fld := ⟨A.TRU_PRG_DATA, 0, 32⟩
/-- TRU_PRG_CTRL.REGION, bits 3:0 (R445). -/ def F.TRU_PRG_CTRL.REGION : Fld := ⟨A.TRU_PRG_CTRL, 0, 4⟩
/-- TRU_PRG_CTRL.FUSE, bits 30:30 (R445). -/ def F.TRU_PRG_CTRL.FUSE : Fld := ⟨A.TRU_PRG_CTRL, 30, 1⟩
/-- TRU_PRG_CTRL.GO, bits 31:31 (R445). -/ def F.TRU_PRG_CTRL.GO : Fld := ⟨A.TRU_PRG_CTRL, 31, 1⟩
/-- TRU_PRG_STAT.RES, bits 3:0 (R445). -/ def F.TRU_PRG_STAT.RES : Fld := ⟨A.TRU_PRG_STAT, 0, 4⟩
/-- TRU_PRG_STAT.BUSY, bits 31:31 (R445). -/ def F.TRU_PRG_STAT.BUSY : Fld := ⟨A.TRU_PRG_STAT, 31, 1⟩
/-- TRU_WEAK.WORD, bits 9:0 (R445). -/ def F.TRU_WEAK.WORD : Fld := ⟨A.TRU_WEAK, 0, 10⟩
/-- TRU_WEAK.COR, bits 19:12 (R445). -/ def F.TRU_WEAK.COR : Fld := ⟨A.TRU_WEAK, 12, 8⟩
/-- TRU_WEAK.COUNT, bits 27:20 (R445). -/ def F.TRU_WEAK.COUNT : Fld := ⟨A.TRU_WEAK, 20, 8⟩
/-- TRU_WEAK.REBURNS, bits 31:28 (R445). -/ def F.TRU_WEAK.REBURNS : Fld := ⟨A.TRU_WEAK, 28, 4⟩
/-- TRU_TEST_SEL.SEL, bits 3:0 (R445). -/ def F.TRU_TEST_SEL.SEL : Fld := ⟨A.TRU_TEST_SEL, 0, 4⟩
/-- TRU_TEST_KEY.KEY, bits 15:0 (R445). -/ def F.TRU_TEST_KEY.KEY : Fld := ⟨A.TRU_TEST_KEY, 0, 16⟩
/-- TRU_ST.FAIL, bits 5:0 (R445). -/ def F.TRU_ST.FAIL : Fld := ⟨A.TRU_ST, 0, 6⟩
/-- TRU_ST.RUN, bits 13:8 (R445). -/ def F.TRU_ST.RUN : Fld := ⟨A.TRU_ST, 8, 6⟩
/-- TRU_ST.SRC, bits 29:29 (R445). -/ def F.TRU_ST.SRC : Fld := ⟨A.TRU_ST, 29, 1⟩
/-- TRU_ST.PASS, bits 30:30 (R445). -/ def F.TRU_ST.PASS : Fld := ⟨A.TRU_ST, 30, 1⟩
/-- TRU_ST.VALID, bits 31:31 (R445). -/ def F.TRU_ST.VALID : Fld := ⟨A.TRU_ST, 31, 1⟩
/-- TRU_ST_DET.DET, bits 31:0 (R445). -/ def F.TRU_ST_DET.DET : Fld := ⟨A.TRU_ST_DET, 0, 32⟩
/-- MEAS_CTRL.ARRAY_EN, bits 0:0 (R83). -/ def F.MEAS_CTRL.ARRAY_EN : Fld := ⟨A.MEAS_CTRL, 0, 1⟩
/-- MEAS_CTRL.HK_EN, bits 1:1 (R83). -/ def F.MEAS_CTRL.HK_EN : Fld := ⟨A.MEAS_CTRL, 1, 1⟩
/-- MEAS_STAT.REF_OK, bits 0:0 (R83). -/ def F.MEAS_STAT.REF_OK : Fld := ⟨A.MEAS_STAT, 0, 1⟩
/-- MEAS_STAT.CAL_BUSY, bits 1:1 (R83). -/ def F.MEAS_STAT.CAL_BUSY : Fld := ⟨A.MEAS_STAT, 1, 1⟩
/-- MEAS_STAT.HK_CAL_BUSY, bits 2:2 (R83). -/ def F.MEAS_STAT.HK_CAL_BUSY : Fld := ⟨A.MEAS_STAT, 2, 1⟩
/-- MEAS_STAT.SYNC, bits 3:3 (R83). -/ def F.MEAS_STAT.SYNC : Fld := ⟨A.MEAS_STAT, 3, 1⟩
/-- MEAS_STAT.BANKA_ON, bits 4:4 (R83). -/ def F.MEAS_STAT.BANKA_ON : Fld := ⟨A.MEAS_STAT, 4, 1⟩
/-- MEAS_STAT.BANKB_ON, bits 5:5 (R83). -/ def F.MEAS_STAT.BANKB_ON : Fld := ⟨A.MEAS_STAT, 5, 1⟩
/-- MEAS_STAT.OW_BUSY, bits 6:6 (R83). -/ def F.MEAS_STAT.OW_BUSY : Fld := ⟨A.MEAS_STAT, 6, 1⟩
/-- MEAS_STAT.INJ_PEND, bits 7:7 (R83). -/ def F.MEAS_STAT.INJ_PEND : Fld := ⟨A.MEAS_STAT, 7, 1⟩
/-- MEAS_STAT.TRV_CH, bits 12:8 (R83). -/ def F.MEAS_STAT.TRV_CH : Fld := ⟨A.MEAS_STAT, 8, 5⟩
/-- MEAS_STAT.TRV_STATE, bits 15:13 (R83). -/ def F.MEAS_STAT.TRV_STATE : Fld := ⟨A.MEAS_STAT, 13, 3⟩
/-- MEAS_STAT.HK_ENTRY, bits 19:16 (R83). -/ def F.MEAS_STAT.HK_ENTRY : Fld := ⟨A.MEAS_STAT, 16, 4⟩
/-- MEAS_STAT.HK_ABORT, bits 20:20 (R83). -/ def F.MEAS_STAT.HK_ABORT : Fld := ⟨A.MEAS_STAT, 20, 1⟩
/-- MEAS_CH_EN.CELL_EN, bits 23:0 (R83). -/ def F.MEAS_CH_EN.CELL_EN : Fld := ⟨A.MEAS_CH_EN, 0, 24⟩
/-- MEAS_CH_EN.CI_EN, bits 24:24 (R83). -/ def F.MEAS_CH_EN.CI_EN : Fld := ⟨A.MEAS_CH_EN, 24, 1⟩
/-- MEAS_REF.EN, bits 0:0 (R83). -/ def F.MEAS_REF.EN : Fld := ⟨A.MEAS_REF, 0, 1⟩
/-- MEAS_TRIG.PHASE, bits 6:0 (R83). -/ def F.MEAS_TRIG.PHASE : Fld := ⟨A.MEAS_TRIG, 0, 7⟩
/-- MEAS_TRIG.SRC, bits 8:8 (R83). -/ def F.MEAS_TRIG.SRC : Fld := ⟨A.MEAS_TRIG, 8, 1⟩
/-- MEAS_CAL.START, bits 0:0 (R83). -/ def F.MEAS_CAL.START : Fld := ⟨A.MEAS_CAL, 0, 1⟩
/-- MEAS_CAL.HK, bits 1:1 (R83). -/ def F.MEAS_CAL.HK : Fld := ⟨A.MEAS_CAL, 1, 1⟩
/-- MEAS_CAL_ERR.CELL, bits 23:0 (R83). -/ def F.MEAS_CAL_ERR.CELL : Fld := ⟨A.MEAS_CAL_ERR, 0, 24⟩
/-- MEAS_CAL_ERR.CI, bits 24:24 (R83). -/ def F.MEAS_CAL_ERR.CI : Fld := ⟨A.MEAS_CAL_ERR, 24, 1⟩
/-- MEAS_CAL_ERR.TRV, bits 25:25 (R83). -/ def F.MEAS_CAL_ERR.TRV : Fld := ⟨A.MEAS_CAL_ERR, 25, 1⟩
/-- MEAS_CAL_ERR.HK, bits 26:26 (R83). -/ def F.MEAS_CAL_ERR.HK : Fld := ⟨A.MEAS_CAL_ERR, 26, 1⟩
/-- MEAS_TRV_CTRL.MODE, bits 1:0 (R83). -/ def F.MEAS_TRV_CTRL.MODE : Fld := ⟨A.MEAS_TRV_CTRL, 0, 2⟩
/-- MEAS_TRV_CTRL.FIRST, bits 12:8 (R83). -/ def F.MEAS_TRV_CTRL.FIRST : Fld := ⟨A.MEAS_TRV_CTRL, 8, 5⟩
/-- MEAS_TRV_CTRL.LAST, bits 20:16 (R83). -/ def F.MEAS_TRV_CTRL.LAST : Fld := ⟨A.MEAS_TRV_CTRL, 16, 5⟩
/-- MEAS_TRV_CTRL.PIN_CH, bits 28:24 (R83). -/ def F.MEAS_TRV_CTRL.PIN_CH : Fld := ⟨A.MEAS_TRV_CTRL, 24, 5⟩
/-- MEAS_TRV_TOL.TOL, bits 6:0 (R83). -/ def F.MEAS_TRV_TOL.TOL : Fld := ⟨A.MEAS_TRV_TOL, 0, 7⟩
/-- MEAS_TRV_STAT.LAST_K, bits 4:0 (R83). -/ def F.MEAS_TRV_STAT.LAST_K : Fld := ⟨A.MEAS_TRV_STAT, 0, 5⟩
/-- MEAS_TRV_STAT.CONSEC, bits 9:8 (R83). -/ def F.MEAS_TRV_STAT.CONSEC : Fld := ⟨A.MEAS_TRV_STAT, 8, 2⟩
/-- MEAS_TRV_STAT.LAST_DIFF, bits 31:16 (R83). -/ def F.MEAS_TRV_STAT.LAST_DIFF : Fld := ⟨A.MEAS_TRV_STAT, 16, 16⟩
/-- MEAS_TRV_CNT.TAKEOVERS, bits 15:0 (R83). -/ def F.MEAS_TRV_CNT.TAKEOVERS : Fld := ⟨A.MEAS_TRV_CNT, 0, 16⟩
/-- MEAS_TRV_CNT.MISMATCHES, bits 31:16 (R83). -/ def F.MEAS_TRV_CNT.MISMATCHES : Fld := ⟨A.MEAS_TRV_CNT, 16, 16⟩
/-- MEAS_CONV_FAIL.FAIL, bits 23:0 (R83). -/ def F.MEAS_CONV_FAIL.FAIL : Fld := ⟨A.MEAS_CONV_FAIL, 0, 24⟩
/-- MEAS_HK_MASK.MASK, bits 15:0 (R83). -/ def F.MEAS_HK_MASK.MASK : Fld := ⟨A.MEAS_HK_MASK, 0, 16⟩
/-- MEAS_HK_CFG.PERIOD, bits 7:0 (R83). -/ def F.MEAS_HK_CFG.PERIOD : Fld := ⟨A.MEAS_HK_CFG, 0, 8⟩
/-- MEAS_HK_CFG.SETTLE, bits 11:8 (R83). -/ def F.MEAS_HK_CFG.SETTLE : Fld := ⟨A.MEAS_HK_CFG, 8, 4⟩
/-- MEAS_HK_INJ.CH, bits 3:0 (R83). -/ def F.MEAS_HK_INJ.CH : Fld := ⟨A.MEAS_HK_INJ, 0, 4⟩
/-- MEAS_HK_INJ.GO, bits 8:8 (R83). -/ def F.MEAS_HK_INJ.GO : Fld := ⟨A.MEAS_HK_INJ, 8, 1⟩
/-- MEAS_EVT.REF_OK, bits 0:0 (R83). -/ def F.MEAS_EVT.REF_OK : Fld := ⟨A.MEAS_EVT, 0, 1⟩
/-- MEAS_EVT.CAL_DONE, bits 1:1 (R83). -/ def F.MEAS_EVT.CAL_DONE : Fld := ⟨A.MEAS_EVT, 1, 1⟩
/-- MEAS_EVT.CAL_REFUSED, bits 2:2 (R83). -/ def F.MEAS_EVT.CAL_REFUSED : Fld := ⟨A.MEAS_EVT, 2, 1⟩
/-- MEAS_EVT.HK_CAL_DONE, bits 3:3 (R83). -/ def F.MEAS_EVT.HK_CAL_DONE : Fld := ⟨A.MEAS_EVT, 3, 1⟩
/-- MEAS_EVT.ROUND_DONE, bits 4:4 (R83). -/ def F.MEAS_EVT.ROUND_DONE : Fld := ⟨A.MEAS_EVT, 4, 1⟩
/-- MEAS_EVT.INJ_DONE, bits 5:5 (R83). -/ def F.MEAS_EVT.INJ_DONE : Fld := ⟨A.MEAS_EVT, 5, 1⟩
/-- MEAS_EVT.INJ_BUSY, bits 6:6 (R83). -/ def F.MEAS_EVT.INJ_BUSY : Fld := ⟨A.MEAS_EVT, 6, 1⟩
/-- MEAS_EVT.HK_LATE, bits 7:7 (R83). -/ def F.MEAS_EVT.HK_LATE : Fld := ⟨A.MEAS_EVT, 7, 1⟩
/-- MEAS_EVT.TRV_MISMATCH, bits 8:8 (R83). -/ def F.MEAS_EVT.TRV_MISMATCH : Fld := ⟨A.MEAS_EVT, 8, 1⟩
/-- MEAS_EVT.TRV_FAULT, bits 9:9 (R83). -/ def F.MEAS_EVT.TRV_FAULT : Fld := ⟨A.MEAS_EVT, 9, 1⟩
/-- MEAS_EVT.CONV_FAIL, bits 10:10 (R83). -/ def F.MEAS_EVT.CONV_FAIL : Fld := ⟨A.MEAS_EVT, 10, 1⟩
/-- MEAS_EVT.OW_DONE, bits 11:11 (R83). -/ def F.MEAS_EVT.OW_DONE : Fld := ⟨A.MEAS_EVT, 11, 1⟩
/-- MEAS_EVT.OW_OPEN, bits 12:12 (R83). -/ def F.MEAS_EVT.OW_OPEN : Fld := ⟨A.MEAS_EVT, 12, 1⟩
/-- MEAS_EVT.SNAP_DONE, bits 13:13 (R83). -/ def F.MEAS_EVT.SNAP_DONE : Fld := ⟨A.MEAS_EVT, 13, 1⟩
/-- MEAS_EVT.UNSYNC, bits 14:14 (R83). -/ def F.MEAS_EVT.UNSYNC : Fld := ⟨A.MEAS_EVT, 14, 1⟩
/-- MEAS_EVT.OW_PARTIAL, bits 15:15 (R83). -/ def F.MEAS_EVT.OW_PARTIAL : Fld := ⟨A.MEAS_EVT, 15, 1⟩
/-- MEAS_EVT_EN.REF_OK, bits 0:0 (R83). -/ def F.MEAS_EVT_EN.REF_OK : Fld := ⟨A.MEAS_EVT_EN, 0, 1⟩
/-- MEAS_EVT_EN.CAL_DONE, bits 1:1 (R83). -/ def F.MEAS_EVT_EN.CAL_DONE : Fld := ⟨A.MEAS_EVT_EN, 1, 1⟩
/-- MEAS_EVT_EN.CAL_REFUSED, bits 2:2 (R83). -/ def F.MEAS_EVT_EN.CAL_REFUSED : Fld := ⟨A.MEAS_EVT_EN, 2, 1⟩
/-- MEAS_EVT_EN.HK_CAL_DONE, bits 3:3 (R83). -/ def F.MEAS_EVT_EN.HK_CAL_DONE : Fld := ⟨A.MEAS_EVT_EN, 3, 1⟩
/-- MEAS_EVT_EN.ROUND_DONE, bits 4:4 (R83). -/ def F.MEAS_EVT_EN.ROUND_DONE : Fld := ⟨A.MEAS_EVT_EN, 4, 1⟩
/-- MEAS_EVT_EN.INJ_DONE, bits 5:5 (R83). -/ def F.MEAS_EVT_EN.INJ_DONE : Fld := ⟨A.MEAS_EVT_EN, 5, 1⟩
/-- MEAS_EVT_EN.INJ_BUSY, bits 6:6 (R83). -/ def F.MEAS_EVT_EN.INJ_BUSY : Fld := ⟨A.MEAS_EVT_EN, 6, 1⟩
/-- MEAS_EVT_EN.HK_LATE, bits 7:7 (R83). -/ def F.MEAS_EVT_EN.HK_LATE : Fld := ⟨A.MEAS_EVT_EN, 7, 1⟩
/-- MEAS_EVT_EN.TRV_MISMATCH, bits 8:8 (R83). -/ def F.MEAS_EVT_EN.TRV_MISMATCH : Fld := ⟨A.MEAS_EVT_EN, 8, 1⟩
/-- MEAS_EVT_EN.TRV_FAULT, bits 9:9 (R83). -/ def F.MEAS_EVT_EN.TRV_FAULT : Fld := ⟨A.MEAS_EVT_EN, 9, 1⟩
/-- MEAS_EVT_EN.CONV_FAIL, bits 10:10 (R83). -/ def F.MEAS_EVT_EN.CONV_FAIL : Fld := ⟨A.MEAS_EVT_EN, 10, 1⟩
/-- MEAS_EVT_EN.OW_DONE, bits 11:11 (R83). -/ def F.MEAS_EVT_EN.OW_DONE : Fld := ⟨A.MEAS_EVT_EN, 11, 1⟩
/-- MEAS_EVT_EN.OW_OPEN, bits 12:12 (R83). -/ def F.MEAS_EVT_EN.OW_OPEN : Fld := ⟨A.MEAS_EVT_EN, 12, 1⟩
/-- MEAS_EVT_EN.SNAP_DONE, bits 13:13 (R83). -/ def F.MEAS_EVT_EN.SNAP_DONE : Fld := ⟨A.MEAS_EVT_EN, 13, 1⟩
/-- MEAS_EVT_EN.UNSYNC, bits 14:14 (R83). -/ def F.MEAS_EVT_EN.UNSYNC : Fld := ⟨A.MEAS_EVT_EN, 14, 1⟩
/-- MEAS_EVT_EN.OW_PARTIAL, bits 15:15 (R83). -/ def F.MEAS_EVT_EN.OW_PARTIAL : Fld := ⟨A.MEAS_EVT_EN, 15, 1⟩
/-- MEAS_OW_CTRL.PINS, bits 24:0 (R83). -/ def F.MEAS_OW_CTRL.PINS : Fld := ⟨A.MEAS_OW_CTRL, 0, 25⟩
/-- MEAS_OW_CTRL.GO, bits 31:31 (R83). -/ def F.MEAS_OW_CTRL.GO : Fld := ⟨A.MEAS_OW_CTRL, 31, 1⟩
/-- MEAS_OW_CFG.DUR, bits 3:0 (R83). -/ def F.MEAS_OW_CFG.DUR : Fld := ⟨A.MEAS_OW_CFG, 0, 4⟩
/-- MEAS_OW_CFG.THR, bits 15:8 (R83). -/ def F.MEAS_OW_CFG.THR : Fld := ⟨A.MEAS_OW_CFG, 8, 8⟩
/-- MEAS_OW_RES.OPEN, bits 24:0 (R83). -/ def F.MEAS_OW_RES.OPEN : Fld := ⟨A.MEAS_OW_RES, 0, 25⟩
/-- MEAS_SNAP.GO, bits 0:0 (R83). -/ def F.MEAS_SNAP.GO : Fld := ⟨A.MEAS_SNAP, 0, 1⟩
/-- MEAS_SNAP.DONE, bits 1:1 (R83). -/ def F.MEAS_SNAP.DONE : Fld := ⟨A.MEAS_SNAP, 1, 1⟩
/-- MEAS_RAWn.CODE, bits 11:0 (R83). -/ def F.MEAS_RAW.CODE (n : Nat) : Fld := ⟨A.MEAS_RAW n, 0, 12⟩
/-- MEAS_RAWn.CONV, bits 20:16 (R83). -/ def F.MEAS_RAW.CONV (n : Nat) : Fld := ⟨A.MEAS_RAW n, 16, 5⟩
/-- MEAS_RAWn.REFCOLD, bits 24:24 (R83). -/ def F.MEAS_RAW.REFCOLD (n : Nat) : Fld := ⟨A.MEAS_RAW n, 24, 1⟩
/-- MEAS_RAWn.BAL, bits 25:25 (R83). -/ def F.MEAS_RAW.BAL (n : Nat) : Fld := ⟨A.MEAS_RAW n, 25, 1⟩
/-- MEAS_RAWn.UNSYNC, bits 26:26 (R83). -/ def F.MEAS_RAW.UNSYNC (n : Nat) : Fld := ⟨A.MEAS_RAW n, 26, 1⟩
/-- MEAS_RAWn.OPENW, bits 27:27 (R83). -/ def F.MEAS_RAW.OPENW (n : Nat) : Fld := ⟨A.MEAS_RAW n, 27, 1⟩
/-- MEAS_RAWn.VALID, bits 31:31 (R83). -/ def F.MEAS_RAW.VALID (n : Nat) : Fld := ⟨A.MEAS_RAW n, 31, 1⟩
/-- MEAS_RAWTIME.TIME, bits 31:0 (R83). -/ def F.MEAS_RAWTIME.TIME : Fld := ⟨A.MEAS_RAWTIME, 0, 32⟩
/-- MEAS_GAINn.GAIN, bits 15:0 (R83). -/ def F.MEAS_GAIN.GAIN (n : Nat) : Fld := ⟨A.MEAS_GAIN n, 0, 16⟩
/-- MEAS_OFFn.OFF, bits 15:0 (R83). -/ def F.MEAS_OFF.OFF (n : Nat) : Fld := ⟨A.MEAS_OFF n, 0, 16⟩
/-- MEAS_HKn.VALUE, bits 15:0 (R83). -/ def F.MEAS_HK.VALUE (n : Nat) : Fld := ⟨A.MEAS_HK n, 0, 16⟩
/-- MEAS_HKn.CH, bits 19:16 (R83). -/ def F.MEAS_HK.CH (n : Nat) : Fld := ⟨A.MEAS_HK n, 16, 4⟩
/-- MEAS_HKn.INJ, bits 29:29 (R83). -/ def F.MEAS_HK.INJ (n : Nat) : Fld := ⟨A.MEAS_HK n, 29, 1⟩
/-- MEAS_HKn.REFCOLD, bits 30:30 (R83). -/ def F.MEAS_HK.REFCOLD (n : Nat) : Fld := ⟨A.MEAS_HK n, 30, 1⟩
/-- MEAS_HKn.VALID, bits 31:31 (R83). -/ def F.MEAS_HK.VALID (n : Nat) : Fld := ⟨A.MEAS_HK n, 31, 1⟩
/-- MEAS_HK_INJR.VALUE, bits 15:0 (R83). -/ def F.MEAS_HK_INJR.VALUE : Fld := ⟨A.MEAS_HK_INJR, 0, 16⟩
/-- MEAS_HK_INJR.CH, bits 19:16 (R83). -/ def F.MEAS_HK_INJR.CH : Fld := ⟨A.MEAS_HK_INJR, 16, 4⟩
/-- MEAS_HK_INJR.INJ, bits 29:29 (R83). -/ def F.MEAS_HK_INJR.INJ : Fld := ⟨A.MEAS_HK_INJR, 29, 1⟩
/-- MEAS_HK_INJR.REFCOLD, bits 30:30 (R83). -/ def F.MEAS_HK_INJR.REFCOLD : Fld := ⟨A.MEAS_HK_INJR, 30, 1⟩
/-- MEAS_HK_INJR.VALID, bits 31:31 (R83). -/ def F.MEAS_HK_INJR.VALID : Fld := ⟨A.MEAS_HK_INJR, 31, 1⟩
/-- SDP_CFG.EN, bits 0:0 (R106). -/ def F.SDP_CFG.EN : Fld := ⟨A.SDP_CFG, 0, 1⟩
/-- SDP_CFG.RATE, bits 6:4 (R106). -/ def F.SDP_CFG.RATE : Fld := ⟨A.SDP_CFG, 4, 3⟩
/-- SDP_STAT.ACTIVE, bits 0:0 (R106). -/ def F.SDP_STAT.ACTIVE : Fld := ⟨A.SDP_STAT, 0, 1⟩
/-- SDP_STAT.ROUTE, bits 2:1 (R106). -/ def F.SDP_STAT.ROUTE : Fld := ⟨A.SDP_STAT, 1, 2⟩
/-- SDP_STAT.FILL, bits 3:3 (R106). -/ def F.SDP_STAT.FILL : Fld := ⟨A.SDP_STAT, 3, 1⟩
/-- SDP_STAT.ACC_SAT, bits 4:4 (R106). -/ def F.SDP_STAT.ACC_SAT : Fld := ⟨A.SDP_STAT, 4, 1⟩
/-- SDP_CH_EN.EN, bits 24:0 (R106). -/ def F.SDP_CH_EN.EN : Fld := ⟨A.SDP_CH_EN, 0, 25⟩
/-- SDP_ACC_CTRL.SNAP, bits 0:0 (R106). -/ def F.SDP_ACC_CTRL.SNAP : Fld := ⟨A.SDP_ACC_CTRL, 0, 1⟩
/-- SDP_ACC_CTRL.CLR, bits 1:1 (R106). -/ def F.SDP_ACC_CTRL.CLR : Fld := ⟨A.SDP_ACC_CTRL, 1, 1⟩
/-- SDP_ACC_CTRL.DONE, bits 2:2 (R106). -/ def F.SDP_ACC_CTRL.DONE : Fld := ⟨A.SDP_ACC_CTRL, 2, 1⟩
/-- SDP_ACC_CTRL.EXCL_REFCOLD, bits 4:4 (R106). -/ def F.SDP_ACC_CTRL.EXCL_REFCOLD : Fld := ⟨A.SDP_ACC_CTRL, 4, 1⟩
/-- SDP_ACC_CTRL.EXCL_BAL, bits 5:5 (R106). -/ def F.SDP_ACC_CTRL.EXCL_BAL : Fld := ⟨A.SDP_ACC_CTRL, 5, 1⟩
/-- SDP_ACC_CTRL.EXCL_OPENW, bits 6:6 (R106). -/ def F.SDP_ACC_CTRL.EXCL_OPENW : Fld := ⟨A.SDP_ACC_CTRL, 6, 1⟩
/-- SDP_ACC_CTRL.EXCL_UNSYNC, bits 7:7 (R106). -/ def F.SDP_ACC_CTRL.EXCL_UNSYNC : Fld := ⟨A.SDP_ACC_CTRL, 7, 1⟩
/-- SDP_ACC_TSL.TS, bits 31:0 (R106). -/ def F.SDP_ACC_TSL.TS : Fld := ⟨A.SDP_ACC_TSL, 0, 32⟩
/-- SDP_ACC_TSH.TS, bits 31:0 (R106). -/ def F.SDP_ACC_TSH.TS : Fld := ⟨A.SDP_ACC_TSH, 0, 32⟩
/-- SDP_RCNT.MISMATCH, bits 15:0 (R106). -/ def F.SDP_RCNT.MISMATCH : Fld := ⟨A.SDP_RCNT, 0, 16⟩
/-- SDP_RCNT.INVALID, bits 31:16 (R106). -/ def F.SDP_RCNT.INVALID : Fld := ⟨A.SDP_RCNT, 16, 16⟩
/-- SDP_OVRCNT.COUNT, bits 31:0 (R106). -/ def F.SDP_OVRCNT.COUNT : Fld := ⟨A.SDP_OVRCNT, 0, 32⟩
/-- SDP_EVT.SET, bits 0:0 (R106). -/ def F.SDP_EVT.SET : Fld := ⟨A.SDP_EVT, 0, 1⟩
/-- SDP_EVT.OVR, bits 1:1 (R106). -/ def F.SDP_EVT.OVR : Fld := ⟨A.SDP_EVT, 1, 1⟩
/-- SDP_EVT.RESIDUE, bits 2:2 (R106). -/ def F.SDP_EVT.RESIDUE : Fld := ⟨A.SDP_EVT, 2, 1⟩
/-- SDP_EVT.REFILL, bits 3:3 (R106). -/ def F.SDP_EVT.REFILL : Fld := ⟨A.SDP_EVT, 3, 1⟩
/-- SDP_EVT.STRM_END, bits 4:4 (R106). -/ def F.SDP_EVT.STRM_END : Fld := ⟨A.SDP_EVT, 4, 1⟩
/-- SDP_EVT.STRM_REFUSED, bits 5:5 (R106). -/ def F.SDP_EVT.STRM_REFUSED : Fld := ⟨A.SDP_EVT, 5, 1⟩
/-- SDP_EVT.CFG_REFUSED, bits 6:6 (R106). -/ def F.SDP_EVT.CFG_REFUSED : Fld := ⟨A.SDP_EVT, 6, 1⟩
/-- SDP_EVT.ACC_DONE, bits 7:7 (R106). -/ def F.SDP_EVT.ACC_DONE : Fld := ⟨A.SDP_EVT, 7, 1⟩
/-- SDP_EVT.ACC_SAT, bits 8:8 (R106). -/ def F.SDP_EVT.ACC_SAT : Fld := ⟨A.SDP_EVT, 8, 1⟩
/-- SDP_EVT_EN.SET, bits 0:0 (R106). -/ def F.SDP_EVT_EN.SET : Fld := ⟨A.SDP_EVT_EN, 0, 1⟩
/-- SDP_EVT_EN.OVR, bits 1:1 (R106). -/ def F.SDP_EVT_EN.OVR : Fld := ⟨A.SDP_EVT_EN, 1, 1⟩
/-- SDP_EVT_EN.RESIDUE, bits 2:2 (R106). -/ def F.SDP_EVT_EN.RESIDUE : Fld := ⟨A.SDP_EVT_EN, 2, 1⟩
/-- SDP_EVT_EN.REFILL, bits 3:3 (R106). -/ def F.SDP_EVT_EN.REFILL : Fld := ⟨A.SDP_EVT_EN, 3, 1⟩
/-- SDP_EVT_EN.STRM_END, bits 4:4 (R106). -/ def F.SDP_EVT_EN.STRM_END : Fld := ⟨A.SDP_EVT_EN, 4, 1⟩
/-- SDP_EVT_EN.STRM_REFUSED, bits 5:5 (R106). -/ def F.SDP_EVT_EN.STRM_REFUSED : Fld := ⟨A.SDP_EVT_EN, 5, 1⟩
/-- SDP_EVT_EN.CFG_REFUSED, bits 6:6 (R106). -/ def F.SDP_EVT_EN.CFG_REFUSED : Fld := ⟨A.SDP_EVT_EN, 6, 1⟩
/-- SDP_EVT_EN.ACC_DONE, bits 7:7 (R106). -/ def F.SDP_EVT_EN.ACC_DONE : Fld := ⟨A.SDP_EVT_EN, 7, 1⟩
/-- SDP_EVT_EN.ACC_SAT, bits 8:8 (R106). -/ def F.SDP_EVT_EN.ACC_SAT : Fld := ⟨A.SDP_EVT_EN, 8, 1⟩
/-- SDP_SET_TSL.TS, bits 31:0 (R106). -/ def F.SDP_SET_TSL.TS : Fld := ⟨A.SDP_SET_TSL, 0, 32⟩
/-- SDP_SET_TSH.TS, bits 31:0 (R106). -/ def F.SDP_SET_TSH.TS : Fld := ⟨A.SDP_SET_TSH, 0, 32⟩
/-- SDP_SETFLG.OPENW, bits 23:0 (R106). -/ def F.SDP_SETFLG.OPENW : Fld := ⟨A.SDP_SETFLG, 0, 24⟩
/-- SDP_SETFLG.UNSYNC, bits 30:30 (R106). -/ def F.SDP_SETFLG.UNSYNC : Fld := ⟨A.SDP_SETFLG, 30, 1⟩
/-- SDP_SETFLG.REFCOLD, bits 31:31 (R106). -/ def F.SDP_SETFLG.REFCOLD : Fld := ⟨A.SDP_SETFLG, 31, 1⟩
/-- SDP_RESn.VALUE, bits 23:0 (R106). -/ def F.SDP_RES.VALUE (n : Nat) : Fld := ⟨A.SDP_RES n, 0, 24⟩
/-- SDP_RESn.CONV, bits 28:24 (R106). -/ def F.SDP_RES.CONV (n : Nat) : Fld := ⟨A.SDP_RES n, 24, 5⟩
/-- SDP_RESn.BAL, bits 29:29 (R106). -/ def F.SDP_RES.BAL (n : Nat) : Fld := ⟨A.SDP_RES n, 29, 1⟩
/-- SDP_RESn.STALE, bits 30:30 (R106). -/ def F.SDP_RES.STALE (n : Nat) : Fld := ⟨A.SDP_RES n, 30, 1⟩
/-- SDP_RESn.OVR, bits 31:31 (R106). -/ def F.SDP_RES.OVR (n : Nat) : Fld := ⟨A.SDP_RES n, 31, 1⟩
/-- SDP_SCFGn.EN, bits 0:0 (R106). -/ def F.SDP_SCFG.EN (n : Nat) : Fld := ⟨A.SDP_SCFG n, 0, 1⟩
/-- SDP_SCFGn.SRC, bits 2:1 (R106). -/ def F.SDP_SCFG.SRC (n : Nat) : Fld := ⟨A.SDP_SCFG n, 1, 2⟩
/-- SDP_SCFGn.OPEN, bits 3:3 (R106). -/ def F.SDP_SCFG.OPEN (n : Nat) : Fld := ⟨A.SDP_SCFG n, 3, 1⟩
/-- SDP_SCFGn.NSETS, bits 11:8 (R106). -/ def F.SDP_SCFG.NSETS (n : Nat) : Fld := ⟨A.SDP_SCFG n, 8, 4⟩
/-- SDP_SCFGn.NEFF, bits 15:12 (R106). -/ def F.SDP_SCFG.NEFF (n : Nat) : Fld := ⟨A.SDP_SCFG n, 12, 4⟩
/-- SDP_SCFGn.LOST, bits 31:16 (R106). -/ def F.SDP_SCFG.LOST (n : Nat) : Fld := ⟨A.SDP_SCFG n, 16, 16⟩
/-- SDP_SMASKn.MASK, bits 24:0 (R106). -/ def F.SDP_SMASK.MASK (n : Nat) : Fld := ⟨A.SDP_SMASK n, 0, 25⟩
/-- SDP_ACCLn.SUM, bits 31:0 (R106). -/ def F.SDP_ACCL.SUM (n : Nat) : Fld := ⟨A.SDP_ACCL n, 0, 32⟩
/-- SDP_ACCHn.SUM, bits 31:0 (R106). -/ def F.SDP_ACCH.SUM (n : Nat) : Fld := ⟨A.SDP_ACCH n, 0, 32⟩
/-- SDP_ACNTn.COUNT, bits 31:0 (R106). -/ def F.SDP_ACNT.COUNT (n : Nat) : Fld := ⟨A.SDP_ACNT n, 0, 32⟩
/-- SDP_MINn.VALUE, bits 23:0 (R106). -/ def F.SDP_MIN.VALUE (n : Nat) : Fld := ⟨A.SDP_MIN n, 0, 24⟩
/-- SDP_MINn.VALID, bits 31:31 (R106). -/ def F.SDP_MIN.VALID (n : Nat) : Fld := ⟨A.SDP_MIN n, 31, 1⟩
/-- SDP_MAXn.VALUE, bits 23:0 (R106). -/ def F.SDP_MAX.VALUE (n : Nat) : Fld := ⟨A.SDP_MAX n, 0, 24⟩
/-- SDP_MAXn.VALID, bits 31:31 (R106). -/ def F.SDP_MAX.VALID (n : Nat) : Fld := ⟨A.SDP_MAX n, 31, 1⟩
/-- IMP_CTRL.EN, bits 0:0 (R140). -/ def F.IMP_CTRL.EN : Fld := ⟨A.IMP_CTRL, 0, 1⟩
/-- IMP_CTRL.EXC, bits 2:1 (R140). -/ def F.IMP_CTRL.EXC : Fld := ⟨A.IMP_CTRL, 1, 2⟩
/-- IMP_STAT.ACTIVE, bits 0:0 (R140). -/ def F.IMP_STAT.ACTIVE : Fld := ⟨A.IMP_STAT, 0, 1⟩
/-- IMP_STAT.EXC_ON, bits 1:1 (R140). -/ def F.IMP_STAT.EXC_ON : Fld := ⟨A.IMP_STAT, 1, 1⟩
/-- IMP_STAT.PHC_READY, bits 2:2 (R140). -/ def F.IMP_STAT.PHC_READY : Fld := ⟨A.IMP_STAT, 2, 1⟩
/-- IMP_STAT.FB_BUSY, bits 3:3 (R140). -/ def F.IMP_STAT.FB_BUSY : Fld := ⟨A.IMP_STAT, 3, 1⟩
/-- IMP_STAT.TONE_ON, bits 13:8 (R140). -/ def F.IMP_STAT.TONE_ON : Fld := ⟨A.IMP_STAT, 8, 6⟩
/-- IMP_GRID.L, bits 18:0 (R140). -/ def F.IMP_GRID.L : Fld := ⟨A.IMP_GRID, 0, 19⟩
/-- IMP_RSHUNT.RSH, bits 23:0 (R140). -/ def F.IMP_RSHUNT.RSH : Fld := ⟨A.IMP_RSHUNT, 0, 24⟩
/-- IMP_LIM.IMIN, bits 15:0 (R140). -/ def F.IMP_LIM.IMIN : Fld := ⟨A.IMP_LIM, 0, 16⟩
/-- IMP_EVT.RESULT, bits 0:0 (R140). -/ def F.IMP_EVT.RESULT : Fld := ⟨A.IMP_EVT, 0, 1⟩
/-- IMP_EVT.ABORT, bits 1:1 (R140). -/ def F.IMP_EVT.ABORT : Fld := ⟨A.IMP_EVT, 1, 1⟩
/-- IMP_EVT.RESIDUE, bits 2:2 (R140). -/ def F.IMP_EVT.RESIDUE : Fld := ⟨A.IMP_EVT, 2, 1⟩
/-- IMP_EVT.CFG_REFUSED, bits 3:3 (R140). -/ def F.IMP_EVT.CFG_REFUSED : Fld := ⟨A.IMP_EVT, 3, 1⟩
/-- IMP_EVT.LOWEXC, bits 4:4 (R140). -/ def F.IMP_EVT.LOWEXC : Fld := ⟨A.IMP_EVT, 4, 1⟩
/-- IMP_EVT.EXC_LOST, bits 5:5 (R140). -/ def F.IMP_EVT.EXC_LOST : Fld := ⟨A.IMP_EVT, 5, 1⟩
/-- IMP_EVT.DISTURBED, bits 6:6 (R140). -/ def F.IMP_EVT.DISTURBED : Fld := ⟨A.IMP_EVT, 6, 1⟩
/-- IMP_EVT.FB_DONE, bits 7:7 (R140). -/ def F.IMP_EVT.FB_DONE : Fld := ⟨A.IMP_EVT, 7, 1⟩
/-- IMP_EVT.STRM_LOST, bits 8:8 (R140). -/ def F.IMP_EVT.STRM_LOST : Fld := ⟨A.IMP_EVT, 8, 1⟩
/-- IMP_EVT_EN.RESULT, bits 0:0 (R140). -/ def F.IMP_EVT_EN.RESULT : Fld := ⟨A.IMP_EVT_EN, 0, 1⟩
/-- IMP_EVT_EN.ABORT, bits 1:1 (R140). -/ def F.IMP_EVT_EN.ABORT : Fld := ⟨A.IMP_EVT_EN, 1, 1⟩
/-- IMP_EVT_EN.RESIDUE, bits 2:2 (R140). -/ def F.IMP_EVT_EN.RESIDUE : Fld := ⟨A.IMP_EVT_EN, 2, 1⟩
/-- IMP_EVT_EN.CFG_REFUSED, bits 3:3 (R140). -/ def F.IMP_EVT_EN.CFG_REFUSED : Fld := ⟨A.IMP_EVT_EN, 3, 1⟩
/-- IMP_EVT_EN.LOWEXC, bits 4:4 (R140). -/ def F.IMP_EVT_EN.LOWEXC : Fld := ⟨A.IMP_EVT_EN, 4, 1⟩
/-- IMP_EVT_EN.EXC_LOST, bits 5:5 (R140). -/ def F.IMP_EVT_EN.EXC_LOST : Fld := ⟨A.IMP_EVT_EN, 5, 1⟩
/-- IMP_EVT_EN.DISTURBED, bits 6:6 (R140). -/ def F.IMP_EVT_EN.DISTURBED : Fld := ⟨A.IMP_EVT_EN, 6, 1⟩
/-- IMP_EVT_EN.FB_DONE, bits 7:7 (R140). -/ def F.IMP_EVT_EN.FB_DONE : Fld := ⟨A.IMP_EVT_EN, 7, 1⟩
/-- IMP_EVT_EN.STRM_LOST, bits 8:8 (R140). -/ def F.IMP_EVT_EN.STRM_LOST : Fld := ⟨A.IMP_EVT_EN, 8, 1⟩
/-- IMP_RCNT.MISMATCH, bits 15:0 (R140). -/ def F.IMP_RCNT.MISMATCH : Fld := ⟨A.IMP_RCNT, 0, 16⟩
/-- IMP_RCNT.INVALID, bits 31:16 (R140). -/ def F.IMP_RCNT.INVALID : Fld := ⟨A.IMP_RCNT, 16, 16⟩
/-- IMP_NEWn.NEW, bits 31:0 (R140). -/ def F.IMP_NEW.NEW (n : Nat) : Fld := ⟨A.IMP_NEW n, 0, 32⟩
/-- IMP_TONEn.H, bits 14:0 (R140). -/ def F.IMP_TONE.H (n : Nat) : Fld := ⟨A.IMP_TONE n, 0, 15⟩
/-- IMP_TONEn.AMP, bits 23:16 (R140). -/ def F.IMP_TONE.AMP (n : Nat) : Fld := ⟨A.IMP_TONE n, 16, 8⟩
/-- IMP_TONEn.EN, bits 31:31 (R140). -/ def F.IMP_TONE.EN (n : Nat) : Fld := ⟨A.IMP_TONE n, 31, 1⟩
/-- IMP_TWINn.NPER, bits 11:0 (R140). -/ def F.IMP_TWIN.NPER (n : Nat) : Fld := ⟨A.IMP_TWIN n, 0, 12⟩
/-- IMP_TWINn.SKIP, bits 19:16 (R140). -/ def F.IMP_TWIN.SKIP (n : Nat) : Fld := ⟨A.IMP_TWIN n, 16, 4⟩
/-- IMP_TWINn.PH, bits 31:24 (R140). -/ def F.IMP_TWIN.PH (n : Nat) : Fld := ⟨A.IMP_TWIN n, 24, 8⟩
/-- IMP_FB_CTRL.NPER, bits 11:0 (R140). -/ def F.IMP_FB_CTRL.NPER : Fld := ⟨A.IMP_FB_CTRL, 0, 12⟩
/-- IMP_FB_CTRL.SKIP, bits 23:20 (R140). -/ def F.IMP_FB_CTRL.SKIP : Fld := ⟨A.IMP_FB_CTRL, 20, 4⟩
/-- IMP_FB_CTRL.CELL, bits 28:24 (R140). -/ def F.IMP_FB_CTRL.CELL : Fld := ⟨A.IMP_FB_CTRL, 24, 5⟩
/-- IMP_FB_CTRL.EN, bits 31:31 (R140). -/ def F.IMP_FB_CTRL.EN : Fld := ⟨A.IMP_FB_CTRL, 31, 1⟩
/-- IMP_FB_TONE.H, bits 9:0 (R140). -/ def F.IMP_FB_TONE.H : Fld := ⟨A.IMP_FB_TONE, 0, 10⟩
/-- IMP_FB_RBAL.RBAL, bits 19:0 (R140). -/ def F.IMP_FB_RBAL.RBAL : Fld := ⟨A.IMP_FB_RBAL, 0, 20⟩
/-- IMP_FB_STAT.FLAGS, bits 7:0 (R140). -/ def F.IMP_FB_STAT.FLAGS : Fld := ⟨A.IMP_FB_STAT, 0, 8⟩
/-- IMP_FB_STAT.NDONE, bits 19:8 (R140). -/ def F.IMP_FB_STAT.NDONE : Fld := ⟨A.IMP_FB_STAT, 8, 12⟩
/-- IMP_FB_STAT.CAUSE, bits 23:20 (R140). -/ def F.IMP_FB_STAT.CAUSE : Fld := ⟨A.IMP_FB_STAT, 20, 4⟩
/-- IMP_FB_STAT.STATE, bits 27:26 (R140). -/ def F.IMP_FB_STAT.STATE : Fld := ⟨A.IMP_FB_STAT, 26, 2⟩
/-- IMP_FB_STAT.SEQ, bits 31:28 (R140). -/ def F.IMP_FB_STAT.SEQ : Fld := ⟨A.IMP_FB_STAT, 28, 4⟩
/-- IMP_FB_ZRE.VALUE, bits 31:0 (R140). -/ def F.IMP_FB_ZRE.VALUE : Fld := ⟨A.IMP_FB_ZRE, 0, 32⟩
/-- IMP_FB_ZIM.VALUE, bits 31:0 (R140). -/ def F.IMP_FB_ZIM.VALUE : Fld := ⟨A.IMP_FB_ZIM, 0, 32⟩
/-- IMP_CTX_CFGn.SRC, bits 4:0 (R140). -/ def F.IMP_CTX_CFG.SRC (n : Nat) : Fld := ⟨A.IMP_CTX_CFG n, 0, 5⟩
/-- IMP_CTX_CFGn.REF, bits 23:16 (R140). -/ def F.IMP_CTX_CFG.REF (n : Nat) : Fld := ⟨A.IMP_CTX_CFG n, 16, 8⟩
/-- IMP_CTX_CFGn.TONE, bits 27:25 (R140). -/ def F.IMP_CTX_CFG.TONE (n : Nat) : Fld := ⟨A.IMP_CTX_CFG n, 25, 3⟩
/-- IMP_CTX_CFGn.KIND, bits 29:28 (R140). -/ def F.IMP_CTX_CFG.KIND (n : Nat) : Fld := ⟨A.IMP_CTX_CFG n, 28, 2⟩
/-- IMP_CTX_CFGn.SEN, bits 30:30 (R140). -/ def F.IMP_CTX_CFG.SEN (n : Nat) : Fld := ⟨A.IMP_CTX_CFG n, 30, 1⟩
/-- IMP_CTX_CFGn.EN, bits 31:31 (R140). -/ def F.IMP_CTX_CFG.EN (n : Nat) : Fld := ⟨A.IMP_CTX_CFG n, 31, 1⟩
/-- IMP_CTX_STATn.FLAGS, bits 7:0 (R140). -/ def F.IMP_CTX_STAT.FLAGS (n : Nat) : Fld := ⟨A.IMP_CTX_STAT n, 0, 8⟩
/-- IMP_CTX_STATn.NDONE, bits 19:8 (R140). -/ def F.IMP_CTX_STAT.NDONE (n : Nat) : Fld := ⟨A.IMP_CTX_STAT n, 8, 12⟩
/-- IMP_CTX_STATn.CAUSE, bits 23:20 (R140). -/ def F.IMP_CTX_STAT.CAUSE (n : Nat) : Fld := ⟨A.IMP_CTX_STAT n, 20, 4⟩
/-- IMP_CTX_STATn.STATE, bits 27:26 (R140). -/ def F.IMP_CTX_STAT.STATE (n : Nat) : Fld := ⟨A.IMP_CTX_STAT n, 26, 2⟩
/-- IMP_CTX_STATn.SEQ, bits 31:28 (R140). -/ def F.IMP_CTX_STAT.SEQ (n : Nat) : Fld := ⟨A.IMP_CTX_STAT n, 28, 4⟩
/-- IMP_CTX_ZREn.VALUE, bits 31:0 (R140). -/ def F.IMP_CTX_ZRE.VALUE (n : Nat) : Fld := ⟨A.IMP_CTX_ZRE n, 0, 32⟩
/-- IMP_CTX_ZIMn.VALUE, bits 31:0 (R140). -/ def F.IMP_CTX_ZIM.VALUE (n : Nat) : Fld := ⟨A.IMP_CTX_ZIM n, 0, 32⟩
/-- PHC_CTRL.EN, bits 0:0 (R178). -/ def F.PHC_CTRL.EN : Fld := ⟨A.PHC_CTRL, 0, 1⟩
/-- PHC_CTRL.RESTART, bits 1:1 (R178). -/ def F.PHC_CTRL.RESTART : Fld := ⟨A.PHC_CTRL, 1, 1⟩
/-- PHC_CTRL.PH_EN, bits 13:8 (R178). -/ def F.PHC_CTRL.PH_EN : Fld := ⟨A.PHC_CTRL, 8, 6⟩
/-- PHC_STAT.STATE, bits 2:0 (R178). -/ def F.PHC_STAT.STATE : Fld := ⟨A.PHC_STAT, 0, 3⟩
/-- PHC_STAT.VIN_OK, bits 3:3 (R178). -/ def F.PHC_STAT.VIN_OK : Fld := ⟨A.PHC_STAT, 3, 1⟩
/-- PHC_STAT.PHEN, bits 4:4 (R178). -/ def F.PHC_STAT.PHEN : Fld := ⟨A.PHC_STAT, 4, 1⟩
/-- PHC_STAT.BUS_OV, bits 5:5 (R178). -/ def F.PHC_STAT.BUS_OV : Fld := ⟨A.PHC_STAT, 5, 1⟩
/-- PHC_STAT.ACT, bits 13:8 (R178). -/ def F.PHC_STAT.ACT : Fld := ⟨A.PHC_STAT, 8, 6⟩
/-- PHC_STAT.N_ACT, bits 18:16 (R178). -/ def F.PHC_STAT.N_ACT : Fld := ⟨A.PHC_STAT, 16, 3⟩
/-- PHC_STAT.N_AVAIL, bits 22:20 (R178). -/ def F.PHC_STAT.N_AVAIL : Fld := ⟨A.PHC_STAT, 20, 3⟩
/-- PHC_STAT.THROWS, bits 26:24 (R178). -/ def F.PHC_STAT.THROWS : Fld := ⟨A.PHC_STAT, 24, 3⟩
/-- PHC_VSET.VSET, bits 12:0 (R178). -/ def F.PHC_VSET.VSET : Fld := ⟨A.PHC_VSET, 0, 13⟩
/-- PHC_FSW.FSW, bits 5:0 (R178). -/ def F.PHC_FSW.FSW : Fld := ⟨A.PHC_FSW, 0, 6⟩
/-- PHC_LL.RLL, bits 7:0 (R178). -/ def F.PHC_LL.RLL : Fld := ⟨A.PHC_LL, 0, 8⟩
/-- PHC_COMP.CHF, bits 4:0 (R178). -/ def F.PHC_COMP.CHF : Fld := ⟨A.PHC_COMP, 0, 5⟩
/-- PHC_COMP.CC, bits 9:5 (R178). -/ def F.PHC_COMP.CC : Fld := ⟨A.PHC_COMP, 5, 5⟩
/-- PHC_COMP.RC, bits 14:10 (R178). -/ def F.PHC_COMP.RC : Fld := ⟨A.PHC_COMP, 10, 5⟩
/-- PHC_COMP.GM, bits 17:16 (R178). -/ def F.PHC_COMP.GM : Fld := ⟨A.PHC_COMP, 16, 2⟩
/-- PHC_SLOPE.LIND, bits 9:0 (R178). -/ def F.PHC_SLOPE.LIND : Fld := ⟨A.PHC_SLOPE, 0, 10⟩
/-- PHC_SLOPE.SLOPE, bits 21:16 (R178). -/ def F.PHC_SLOPE.SLOPE : Fld := ⟨A.PHC_SLOPE, 16, 6⟩
/-- PHC_RSENSE.RS, bits 15:0 (R178). -/ def F.PHC_RSENSE.RS : Fld := ⟨A.PHC_RSENSE, 0, 16⟩
/-- PHC_SCLIM.SC, bits 7:0 (R178). -/ def F.PHC_SCLIM.SC : Fld := ⟨A.PHC_SCLIM, 0, 8⟩
/-- PHC_OLIM.IOL, bits 15:0 (R178). -/ def F.PHC_OLIM.IOL : Fld := ⟨A.PHC_OLIM, 0, 16⟩
/-- PHC_OLIM.TAU, bits 25:16 (R178). -/ def F.PHC_OLIM.TAU : Fld := ⟨A.PHC_OLIM, 16, 10⟩
/-- PHC_SS.RAMP, bits 6:0 (R178). -/ def F.PHC_SS.RAMP : Fld := ⟨A.PHC_SS, 0, 7⟩
/-- PHC_SS.THROWS_MAX, bits 10:8 (R178). -/ def F.PHC_SS.THROWS_MAX : Fld := ⟨A.PHC_SS, 8, 3⟩
/-- PHC_SHED.NMIN, bits 14:12 (R178). -/ def F.PHC_SHED.NMIN : Fld := ⟨A.PHC_SHED, 12, 3⟩
/-- PHC_SHED.NMAX, bits 18:16 (R178). -/ def F.PHC_SHED.NMAX : Fld := ⟨A.PHC_SHED, 16, 3⟩
/-- PHC_SHED.NPIN, bits 22:20 (R178). -/ def F.PHC_SHED.NPIN : Fld := ⟨A.PHC_SHED, 20, 3⟩
/-- PHC_SHED.PIN, bits 23:23 (R178). -/ def F.PHC_SHED.PIN : Fld := ⟨A.PHC_SHED, 23, 1⟩
/-- PHC_SHED.DWELL, bits 31:24 (R178). -/ def F.PHC_SHED.DWELL : Fld := ⟨A.PHC_SHED, 24, 8⟩
/-- PHC_SHED_I.ISHED, bits 15:0 (R178). -/ def F.PHC_SHED_I.ISHED : Fld := ⟨A.PHC_SHED_I, 0, 16⟩
/-- PHC_SHED_I.IHYS, bits 31:16 (R178). -/ def F.PHC_SHED_I.IHYS : Fld := ⟨A.PHC_SHED_I, 16, 16⟩
/-- PHC_TRIMCFG.TRIM_LO, bits 15:8 (R178). -/ def F.PHC_TRIMCFG.TRIM_LO : Fld := ⟨A.PHC_TRIMCFG, 8, 8⟩
/-- PHC_TRIMCFG.TRIM_HI, bits 23:16 (R178). -/ def F.PHC_TRIMCFG.TRIM_HI : Fld := ⟨A.PHC_TRIMCFG, 16, 8⟩
/-- PHC_TRIMCFG.PIN, bits 24:24 (R178). -/ def F.PHC_TRIMCFG.PIN : Fld := ⟨A.PHC_TRIMCFG, 24, 1⟩
/-- PHC_SHARE.INDEX, bits 8:0 (R178). -/ def F.PHC_SHARE.INDEX : Fld := ⟨A.PHC_SHARE, 0, 9⟩
/-- PHC_SHARE.LO, bits 17:9 (R178). -/ def F.PHC_SHARE.LO : Fld := ⟨A.PHC_SHARE, 9, 9⟩
/-- PHC_SHARE.HI, bits 26:18 (R178). -/ def F.PHC_SHARE.HI : Fld := ⟨A.PHC_SHARE, 18, 9⟩
/-- PHC_SHARE.PIN, bits 31:31 (R178). -/ def F.PHC_SHARE.PIN : Fld := ⟨A.PHC_SHARE, 31, 1⟩
/-- PHC_SHARE_CFG.SLEW, bits 9:0 (R178). -/ def F.PHC_SHARE_CFG.SLEW : Fld := ⟨A.PHC_SHARE_CFG, 0, 10⟩
/-- PHC_TRIMn.PINVAL, bits 7:0 (R178). -/ def F.PHC_TRIM.PINVAL (n : Nat) : Fld := ⟨A.PHC_TRIM n, 0, 8⟩
/-- PHC_TRIMn.APPLIED, bits 23:16 (R178). -/ def F.PHC_TRIM.APPLIED (n : Nat) : Fld := ⟨A.PHC_TRIM n, 16, 8⟩
/-- PHC_SHARE_STAT.APPLIED, bits 15:0 (R178). -/ def F.PHC_SHARE_STAT.APPLIED : Fld := ⟨A.PHC_SHARE_STAT, 0, 16⟩
/-- PHC_IPHn.I, bits 15:0 (R178). -/ def F.PHC_IPH.I (n : Nat) : Fld := ⟨A.PHC_IPH n, 0, 16⟩
/-- PHC_IOUT.IOUT, bits 15:0 (R178). -/ def F.PHC_IOUT.IOUT : Fld := ⟨A.PHC_IOUT, 0, 16⟩
/-- PHC_IOUT.IOL_FILT, bits 31:16 (R178). -/ def F.PHC_IOUT.IOL_FILT : Fld := ⟨A.PHC_IOUT, 16, 16⟩
/-- PHC_VOUT.VOUT, bits 15:0 (R178). -/ def F.PHC_VOUT.VOUT : Fld := ⟨A.PHC_VOUT, 0, 16⟩
/-- PHC_VOUT.TARGET, bits 31:16 (R178). -/ def F.PHC_VOUT.TARGET : Fld := ⟨A.PHC_VOUT, 16, 16⟩
/-- PHC_EVT.REGULATING, bits 0:0 (R178). -/ def F.PHC_EVT.REGULATING : Fld := ⟨A.PHC_EVT, 0, 1⟩
/-- PHC_EVT.HICCUP, bits 1:1 (R178). -/ def F.PHC_EVT.HICCUP : Fld := ⟨A.PHC_EVT, 1, 1⟩
/-- PHC_EVT.LATCHED, bits 2:2 (R178). -/ def F.PHC_EVT.LATCHED : Fld := ⟨A.PHC_EVT, 2, 1⟩
/-- PHC_EVT.PHASE_FAIL, bits 3:3 (R178). -/ def F.PHC_EVT.PHASE_FAIL : Fld := ⟨A.PHC_EVT, 3, 1⟩
/-- PHC_EVT.OVR, bits 4:4 (R178). -/ def F.PHC_EVT.OVR : Fld := ⟨A.PHC_EVT, 4, 1⟩
/-- PHC_EVT.SC_ACT, bits 5:5 (R178). -/ def F.PHC_EVT.SC_ACT : Fld := ⟨A.PHC_EVT, 5, 1⟩
/-- PHC_EVT.SHED, bits 6:6 (R178). -/ def F.PHC_EVT.SHED : Fld := ⟨A.PHC_EVT, 6, 1⟩
/-- PHC_EVT.TRIM_SAT, bits 7:7 (R178). -/ def F.PHC_EVT.TRIM_SAT : Fld := ⟨A.PHC_EVT, 7, 1⟩
/-- PHC_EVT.VIN_LOW, bits 8:8 (R178). -/ def F.PHC_EVT.VIN_LOW : Fld := ⟨A.PHC_EVT, 8, 1⟩
/-- PHC_EVT.BUS_OV, bits 9:9 (R178). -/ def F.PHC_EVT.BUS_OV : Fld := ⟨A.PHC_EVT, 9, 1⟩
/-- PHC_EVT.REC_DONE, bits 10:10 (R178). -/ def F.PHC_EVT.REC_DONE : Fld := ⟨A.PHC_EVT, 10, 1⟩
/-- PHC_EVT.CFG_REFUSED, bits 11:11 (R178). -/ def F.PHC_EVT.CFG_REFUSED : Fld := ⟨A.PHC_EVT, 11, 1⟩
/-- PHC_EVT.OL_WARN, bits 12:12 (R178). -/ def F.PHC_EVT.OL_WARN : Fld := ⟨A.PHC_EVT, 12, 1⟩
/-- PHC_EVT_EN.REGULATING, bits 0:0 (R178). -/ def F.PHC_EVT_EN.REGULATING : Fld := ⟨A.PHC_EVT_EN, 0, 1⟩
/-- PHC_EVT_EN.HICCUP, bits 1:1 (R178). -/ def F.PHC_EVT_EN.HICCUP : Fld := ⟨A.PHC_EVT_EN, 1, 1⟩
/-- PHC_EVT_EN.LATCHED, bits 2:2 (R178). -/ def F.PHC_EVT_EN.LATCHED : Fld := ⟨A.PHC_EVT_EN, 2, 1⟩
/-- PHC_EVT_EN.PHASE_FAIL, bits 3:3 (R178). -/ def F.PHC_EVT_EN.PHASE_FAIL : Fld := ⟨A.PHC_EVT_EN, 3, 1⟩
/-- PHC_EVT_EN.OVR, bits 4:4 (R178). -/ def F.PHC_EVT_EN.OVR : Fld := ⟨A.PHC_EVT_EN, 4, 1⟩
/-- PHC_EVT_EN.SC_ACT, bits 5:5 (R178). -/ def F.PHC_EVT_EN.SC_ACT : Fld := ⟨A.PHC_EVT_EN, 5, 1⟩
/-- PHC_EVT_EN.SHED, bits 6:6 (R178). -/ def F.PHC_EVT_EN.SHED : Fld := ⟨A.PHC_EVT_EN, 6, 1⟩
/-- PHC_EVT_EN.TRIM_SAT, bits 7:7 (R178). -/ def F.PHC_EVT_EN.TRIM_SAT : Fld := ⟨A.PHC_EVT_EN, 7, 1⟩
/-- PHC_EVT_EN.VIN_LOW, bits 8:8 (R178). -/ def F.PHC_EVT_EN.VIN_LOW : Fld := ⟨A.PHC_EVT_EN, 8, 1⟩
/-- PHC_EVT_EN.BUS_OV, bits 9:9 (R178). -/ def F.PHC_EVT_EN.BUS_OV : Fld := ⟨A.PHC_EVT_EN, 9, 1⟩
/-- PHC_EVT_EN.REC_DONE, bits 10:10 (R178). -/ def F.PHC_EVT_EN.REC_DONE : Fld := ⟨A.PHC_EVT_EN, 10, 1⟩
/-- PHC_EVT_EN.CFG_REFUSED, bits 11:11 (R178). -/ def F.PHC_EVT_EN.CFG_REFUSED : Fld := ⟨A.PHC_EVT_EN, 11, 1⟩
/-- PHC_EVT_EN.OL_WARN, bits 12:12 (R178). -/ def F.PHC_EVT_EN.OL_WARN : Fld := ⟨A.PHC_EVT_EN, 12, 1⟩
/-- PHC_FAIL.OPEN, bits 5:0 (R178). -/ def F.PHC_FAIL.OPEN : Fld := ⟨A.PHC_FAIL, 0, 6⟩
/-- PHC_FAIL.SENSE, bits 13:8 (R178). -/ def F.PHC_FAIL.SENSE : Fld := ⟨A.PHC_FAIL, 8, 6⟩
/-- PHC_OVR.SHED, bits 0:0 (R178). -/ def F.PHC_OVR.SHED : Fld := ⟨A.PHC_OVR, 0, 1⟩
/-- PHC_OVR.TRIM, bits 1:1 (R178). -/ def F.PHC_OVR.TRIM : Fld := ⟨A.PHC_OVR, 1, 1⟩
/-- PHC_OVR.SHARE, bits 2:2 (R178). -/ def F.PHC_OVR.SHARE : Fld := ⟨A.PHC_OVR, 2, 1⟩
/-- PHC_FLT.CAUSE, bits 7:0 (R178). -/ def F.PHC_FLT.CAUSE : Fld := ⟨A.PHC_FLT, 0, 8⟩
/-- PHC_FLT.PHASE, bits 11:8 (R178). -/ def F.PHC_FLT.PHASE : Fld := ⟨A.PHC_FLT, 8, 4⟩
/-- PHC_FLT.SUPP, bits 23:16 (R178). -/ def F.PHC_FLT.SUPP : Fld := ⟨A.PHC_FLT, 16, 8⟩
/-- PHC_FLT.PEND, bits 31:31 (R178). -/ def F.PHC_FLT.PEND : Fld := ⟨A.PHC_FLT, 31, 1⟩
/-- PHC_FLT_TSL.TS, bits 31:0 (R178). -/ def F.PHC_FLT_TSL.TS : Fld := ⟨A.PHC_FLT_TSL, 0, 32⟩
/-- PHC_FLT_TSH.TS, bits 31:0 (R178). -/ def F.PHC_FLT_TSH.TS : Fld := ⟨A.PHC_FLT_TSH, 0, 32⟩
/-- PHC_SCCNT.COUNT, bits 31:0 (R178). -/ def F.PHC_SCCNT.COUNT : Fld := ⟨A.PHC_SCCNT, 0, 32⟩
/-- BAL_CTRL.EN, bits 0:0 (R203). -/ def F.BAL_CTRL.EN : Fld := ⟨A.BAL_CTRL, 0, 1⟩
/-- BAL_CTRL.COUNTED, bits 1:1 (R203). -/ def F.BAL_CTRL.COUNTED : Fld := ⟨A.BAL_CTRL, 1, 1⟩
/-- BAL_CTRL.MAXON, bits 12:8 (R203). -/ def F.BAL_CTRL.MAXON : Fld := ⟨A.BAL_CTRL, 8, 5⟩
/-- BAL_REQ.REQ, bits 23:0 (R203). -/ def F.BAL_REQ.REQ : Fld := ⟨A.BAL_REQ, 0, 24⟩
/-- BAL_STAT.ON, bits 23:0 (R203). -/ def F.BAL_STAT.ON : Fld := ⟨A.BAL_STAT, 0, 24⟩
/-- BAL_STAT.LEVEL, bits 26:24 (R203). -/ def F.BAL_STAT.LEVEL : Fld := ⟨A.BAL_STAT, 24, 3⟩
/-- BAL_STAT.HELD, bits 29:29 (R203). -/ def F.BAL_STAT.HELD : Fld := ⟨A.BAL_STAT, 29, 1⟩
/-- BAL_STAT.PAUSE, bits 30:30 (R203). -/ def F.BAL_STAT.PAUSE : Fld := ⟨A.BAL_STAT, 30, 1⟩
/-- BAL_STAT.ACTIVE, bits 31:31 (R203). -/ def F.BAL_STAT.ACTIVE : Fld := ⟨A.BAL_STAT, 31, 1⟩
/-- BAL_DEF.DEF, bits 23:0 (R203). -/ def F.BAL_DEF.DEF : Fld := ⟨A.BAL_DEF, 0, 24⟩
/-- BAL_DONE.DONE, bits 23:0 (R203). -/ def F.BAL_DONE.DONE : Fld := ⟨A.BAL_DONE, 0, 24⟩
/-- BAL_FAULT.OC, bits 23:0 (R203). -/ def F.BAL_FAULT.OC : Fld := ⟨A.BAL_FAULT, 0, 24⟩
/-- BAL_EVT.CELL_DONE, bits 0:0 (R203). -/ def F.BAL_EVT.CELL_DONE : Fld := ⟨A.BAL_EVT, 0, 1⟩
/-- BAL_EVT.SW_FAULT, bits 1:1 (R203). -/ def F.BAL_EVT.SW_FAULT : Fld := ⟨A.BAL_EVT, 1, 1⟩
/-- BAL_EVT.HELD, bits 2:2 (R203). -/ def F.BAL_EVT.HELD : Fld := ⟨A.BAL_EVT, 2, 1⟩
/-- BAL_EVT_EN.CELL_DONE, bits 0:0 (R203). -/ def F.BAL_EVT_EN.CELL_DONE : Fld := ⟨A.BAL_EVT_EN, 0, 1⟩
/-- BAL_EVT_EN.SW_FAULT, bits 1:1 (R203). -/ def F.BAL_EVT_EN.SW_FAULT : Fld := ⟨A.BAL_EVT_EN, 1, 1⟩
/-- BAL_EVT_EN.HELD, bits 2:2 (R203). -/ def F.BAL_EVT_EN.HELD : Fld := ⟨A.BAL_EVT_EN, 2, 1⟩
/-- BAL_SLOTS.RUN, bits 15:0 (R203). -/ def F.BAL_SLOTS.RUN : Fld := ⟨A.BAL_SLOTS, 0, 16⟩
/-- BAL_SLOTS.PAUSED, bits 31:16 (R203). -/ def F.BAL_SLOTS.PAUSED : Fld := ⟨A.BAL_SLOTS, 16, 16⟩
/-- BAL_CNTn.SLOTS, bits 15:0 (R203). -/ def F.BAL_CNT.SLOTS (n : Nat) : Fld := ⟨A.BAL_CNT n, 0, 16⟩
/-- GRD_STAT.GST, bits 3:0 (R371). -/ def F.GRD_STAT.GST : Fld := ⟨A.GRD_STAT, 0, 4⟩
/-- GRD_STAT.LROLE, bits 10:10 (R371). -/ def F.GRD_STAT.LROLE : Fld := ⟨A.GRD_STAT, 10, 1⟩
/-- GRD_STAT.DISAG, bits 14:11 (R371). -/ def F.GRD_STAT.DISAG : Fld := ⟨A.GRD_STAT, 11, 4⟩
/-- GRD_STAT.DEMAND, bits 18:15 (R371). -/ def F.GRD_STAT.DEMAND : Fld := ⟨A.GRD_STAT, 15, 4⟩
/-- GRD_STAT.COMMIT, bits 20:19 (R371). -/ def F.GRD_STAT.COMMIT : Fld := ⟨A.GRD_STAT, 19, 2⟩
/-- GRD_STAT.BLK, bits 22:21 (R371). -/ def F.GRD_STAT.BLK : Fld := ⟨A.GRD_STAT, 21, 2⟩
/-- GRD_STAT.SOA_DEAD, bits 23:23 (R371). -/ def F.GRD_STAT.SOA_DEAD : Fld := ⟨A.GRD_STAT, 23, 1⟩
/-- GRD_STAT.SOB_DEAD, bits 24:24 (R371). -/ def F.GRD_STAT.SOB_DEAD : Fld := ⟨A.GRD_STAT, 24, 1⟩
/-- GRD_STAT.SOA_PIN, bits 25:25 (R371). -/ def F.GRD_STAT.SOA_PIN : Fld := ⟨A.GRD_STAT, 25, 1⟩
/-- GRD_STAT.SOB_PIN, bits 26:26 (R371). -/ def F.GRD_STAT.SOB_PIN : Fld := ⟨A.GRD_STAT, 26, 1⟩
/-- GRD_STAT.SUT_DONE, bits 27:27 (R371). -/ def F.GRD_STAT.SUT_DONE : Fld := ⟨A.GRD_STAT, 27, 1⟩
/-- GRD_STAT.WD_ARMED, bits 28:28 (R371). -/ def F.GRD_STAT.WD_ARMED : Fld := ⟨A.GRD_STAT, 28, 1⟩
/-- GRD_STAT.FLI_OK, bits 29:29 (R371). -/ def F.GRD_STAT.FLI_OK : Fld := ⟨A.GRD_STAT, 29, 1⟩
/-- GRD_STAT.LP, bits 30:30 (R371). -/ def F.GRD_STAT.LP : Fld := ⟨A.GRD_STAT, 30, 1⟩
/-- GRD_STAT.GRD_OK, bits 31:31 (R371). -/ def F.GRD_STAT.GRD_OK : Fld := ⟨A.GRD_STAT, 31, 1⟩
/-- GRD_FLT.OV, bits 0:0 (R371). -/ def F.GRD_FLT.OV : Fld := ⟨A.GRD_FLT, 0, 1⟩
/-- GRD_FLT.UV, bits 1:1 (R371). -/ def F.GRD_FLT.UV : Fld := ⟨A.GRD_FLT, 1, 1⟩
/-- GRD_FLT.TH, bits 2:2 (R371). -/ def F.GRD_FLT.TH : Fld := ⟨A.GRD_FLT, 2, 1⟩
/-- GRD_FLT.OC, bits 3:3 (R371). -/ def F.GRD_FLT.OC : Fld := ⟨A.GRD_FLT, 3, 1⟩
/-- GRD_FLT.DIE, bits 4:4 (R371). -/ def F.GRD_FLT.DIE : Fld := ⟨A.GRD_FLT, 4, 1⟩
/-- GRD_FLT.DISC, bits 5:5 (R371). -/ def F.GRD_FLT.DISC : Fld := ⟨A.GRD_FLT, 5, 1⟩
/-- GRD_FLT.DEMAND, bits 6:6 (R371). -/ def F.GRD_FLT.DEMAND : Fld := ⟨A.GRD_FLT, 6, 1⟩
/-- GRD_FLT.WD_EARLY, bits 7:7 (R371). -/ def F.GRD_FLT.WD_EARLY : Fld := ⟨A.GRD_FLT, 7, 1⟩
/-- GRD_FLT.WD_LATE, bits 8:8 (R371). -/ def F.GRD_FLT.WD_LATE : Fld := ⟨A.GRD_FLT, 8, 1⟩
/-- GRD_FLT.WD_WRONG, bits 9:9 (R371). -/ def F.GRD_FLT.WD_WRONG : Fld := ⟨A.GRD_FLT, 9, 1⟩
/-- GRD_FLT.SOA_STUCK, bits 10:10 (R371). -/ def F.GRD_FLT.SOA_STUCK : Fld := ⟨A.GRD_FLT, 10, 1⟩
/-- GRD_FLT.SOB_STUCK, bits 11:11 (R371). -/ def F.GRD_FLT.SOB_STUCK : Fld := ⟨A.GRD_FLT, 11, 1⟩
/-- GRD_FLT.GCLK, bits 12:12 (R371). -/ def F.GRD_FLT.GCLK : Fld := ⟨A.GRD_FLT, 12, 1⟩
/-- GRD_FSRC.OCP, bits 0:0 (R371). -/ def F.GRD_FSRC.OCP : Fld := ⟨A.GRD_FSRC, 0, 1⟩
/-- GRD_FSRC.OCN, bits 1:1 (R371). -/ def F.GRD_FSRC.OCN : Fld := ⟨A.GRD_FSRC, 1, 1⟩
/-- GRD_FSRC.TH, bits 11:8 (R371). -/ def F.GRD_FSRC.TH : Fld := ⟨A.GRD_FSRC, 8, 4⟩
/-- GRD_FSRC.DEM, bits 19:16 (R371). -/ def F.GRD_FSRC.DEM : Fld := ⟨A.GRD_FSRC, 16, 4⟩
/-- GRD_FSRC.DISC, bits 27:24 (R371). -/ def F.GRD_FSRC.DISC : Fld := ⟨A.GRD_FSRC, 24, 4⟩
/-- GRD_OVC.CELL, bits 23:0 (R371). -/ def F.GRD_OVC.CELL : Fld := ⟨A.GRD_OVC, 0, 24⟩
/-- GRD_UVC.CELL, bits 23:0 (R371). -/ def F.GRD_UVC.CELL : Fld := ⟨A.GRD_UVC, 0, 24⟩
/-- GRD_SI.CLOSED, bits 7:0 (R371). -/ def F.GRD_SI.CLOSED : Fld := ⟨A.GRD_SI, 0, 8⟩
/-- GRD_LOOP.LOSSES, bits 15:0 (R371). -/ def F.GRD_LOOP.LOSSES : Fld := ⟨A.GRD_LOOP, 0, 16⟩
/-- GRD_LOOP.FLO_ON, bits 31:31 (R371). -/ def F.GRD_LOOP.FLO_ON : Fld := ⟨A.GRD_LOOP, 31, 1⟩
/-- GRD_WD.OKS, bits 15:0 (R371). -/ def F.GRD_WD.OKS : Fld := ⟨A.GRD_WD, 0, 16⟩
/-- GRD_WD.FAILS, bits 23:16 (R371). -/ def F.GRD_WD.FAILS : Fld := ⟨A.GRD_WD, 16, 8⟩
/-- GRD_WD.STATE, bits 31:30 (R371). -/ def F.GRD_WD.STATE : Fld := ⟨A.GRD_WD, 30, 2⟩
/-- GRD_EVT.FAULT, bits 0:0 (R371). -/ def F.GRD_EVT.FAULT : Fld := ⟨A.GRD_EVT, 0, 1⟩
/-- GRD_EVT.CLEARED, bits 1:1 (R371). -/ def F.GRD_EVT.CLEARED : Fld := ⟨A.GRD_EVT, 1, 1⟩
/-- GRD_EVT.CLR_REFUSED, bits 2:2 (R371). -/ def F.GRD_EVT.CLR_REFUSED : Fld := ⟨A.GRD_EVT, 2, 1⟩
/-- GRD_EVT.DEMAND, bits 3:3 (R371). -/ def F.GRD_EVT.DEMAND : Fld := ⟨A.GRD_EVT, 3, 1⟩
/-- GRD_EVT.LOOP_LOST, bits 4:4 (R371). -/ def F.GRD_EVT.LOOP_LOST : Fld := ⟨A.GRD_EVT, 4, 1⟩
/-- GRD_EVT.LOOP_OK, bits 5:5 (R371). -/ def F.GRD_EVT.LOOP_OK : Fld := ⟨A.GRD_EVT, 5, 1⟩
/-- GRD_EVT.OK_CHANGE, bits 6:6 (R371). -/ def F.GRD_EVT.OK_CHANGE : Fld := ⟨A.GRD_EVT, 6, 1⟩
/-- GRD_EVT.SUT_PASS, bits 7:7 (R371). -/ def F.GRD_EVT.SUT_PASS : Fld := ⟨A.GRD_EVT, 7, 1⟩
/-- GRD_EVT.COMMIT_DONE, bits 8:8 (R371). -/ def F.GRD_EVT.COMMIT_DONE : Fld := ⟨A.GRD_EVT, 8, 1⟩
/-- GRD_EVT.COMMIT_ERR, bits 9:9 (R371). -/ def F.GRD_EVT.COMMIT_ERR : Fld := ⟨A.GRD_EVT, 9, 1⟩
/-- GRD_EVT.OUT_DEAD, bits 10:10 (R371). -/ def F.GRD_EVT.OUT_DEAD : Fld := ⟨A.GRD_EVT, 10, 1⟩
/-- GRD_EVT.STBY_FAULT, bits 11:11 (R371). -/ def F.GRD_EVT.STBY_FAULT : Fld := ⟨A.GRD_EVT, 11, 1⟩
/-- GRD_EVT_EN.FAULT, bits 0:0 (R371). -/ def F.GRD_EVT_EN.FAULT : Fld := ⟨A.GRD_EVT_EN, 0, 1⟩
/-- GRD_EVT_EN.CLEARED, bits 1:1 (R371). -/ def F.GRD_EVT_EN.CLEARED : Fld := ⟨A.GRD_EVT_EN, 1, 1⟩
/-- GRD_EVT_EN.CLR_REFUSED, bits 2:2 (R371). -/ def F.GRD_EVT_EN.CLR_REFUSED : Fld := ⟨A.GRD_EVT_EN, 2, 1⟩
/-- GRD_EVT_EN.DEMAND, bits 3:3 (R371). -/ def F.GRD_EVT_EN.DEMAND : Fld := ⟨A.GRD_EVT_EN, 3, 1⟩
/-- GRD_EVT_EN.LOOP_LOST, bits 4:4 (R371). -/ def F.GRD_EVT_EN.LOOP_LOST : Fld := ⟨A.GRD_EVT_EN, 4, 1⟩
/-- GRD_EVT_EN.LOOP_OK, bits 5:5 (R371). -/ def F.GRD_EVT_EN.LOOP_OK : Fld := ⟨A.GRD_EVT_EN, 5, 1⟩
/-- GRD_EVT_EN.OK_CHANGE, bits 6:6 (R371). -/ def F.GRD_EVT_EN.OK_CHANGE : Fld := ⟨A.GRD_EVT_EN, 6, 1⟩
/-- GRD_EVT_EN.SUT_PASS, bits 7:7 (R371). -/ def F.GRD_EVT_EN.SUT_PASS : Fld := ⟨A.GRD_EVT_EN, 7, 1⟩
/-- GRD_EVT_EN.COMMIT_DONE, bits 8:8 (R371). -/ def F.GRD_EVT_EN.COMMIT_DONE : Fld := ⟨A.GRD_EVT_EN, 8, 1⟩
/-- GRD_EVT_EN.COMMIT_ERR, bits 9:9 (R371). -/ def F.GRD_EVT_EN.COMMIT_ERR : Fld := ⟨A.GRD_EVT_EN, 9, 1⟩
/-- GRD_EVT_EN.OUT_DEAD, bits 10:10 (R371). -/ def F.GRD_EVT_EN.OUT_DEAD : Fld := ⟨A.GRD_EVT_EN, 10, 1⟩
/-- GRD_EVT_EN.STBY_FAULT, bits 11:11 (R371). -/ def F.GRD_EVT_EN.STBY_FAULT : Fld := ⟨A.GRD_EVT_EN, 11, 1⟩
/-- GRD_PCRC.CRC, bits 31:0 (R371). -/ def F.GRD_PCRC.CRC : Fld := ⟨A.GRD_PCRC, 0, 32⟩
/-- GRD_COMMIT.VALUE, bits 31:0 (R371). -/ def F.GRD_COMMIT.VALUE : Fld := ⟨A.GRD_COMMIT, 0, 32⟩
/-- GRD_UNLK.KEY, bits 15:0 (R371). -/ def F.GRD_UNLK.KEY : Fld := ⟨A.GRD_UNLK, 0, 16⟩
/-- GRD_FLT_TSL.TS, bits 31:0 (R371). -/ def F.GRD_FLT_TSL.TS : Fld := ⟨A.GRD_FLT_TSL, 0, 32⟩
/-- GRD_FLT_TSH.TS, bits 31:0 (R371). -/ def F.GRD_FLT_TSH.TS : Fld := ⟨A.GRD_FLT_TSH, 0, 32⟩
/-- GRD_Pn.WORD, bits 31:0 (R371). -/ def F.GRD_P.WORD (n : Nat) : Fld := ⟨A.GRD_P n, 0, 32⟩
/-- CHN_P_CTRLn.EN, bits 0:0 (R230). -/ def F.CHN_P_CTRL.EN (n : Nat) : Fld := ⟨A.CHN_P_CTRL n, 0, 1⟩
/-- CHN_P_CTRLn.TONE, bits 1:1 (R230). -/ def F.CHN_P_CTRL.TONE (n : Nat) : Fld := ⟨A.CHN_P_CTRL n, 1, 1⟩
/-- CHN_P_STATn.STATE, bits 2:0 (R230). -/ def F.CHN_P_STAT.STATE (n : Nat) : Fld := ⟨A.CHN_P_STAT n, 0, 3⟩
/-- CHN_P_STATn.SIGDET, bits 4:4 (R230). -/ def F.CHN_P_STAT.SIGDET (n : Nat) : Fld := ⟨A.CHN_P_STAT n, 4, 1⟩
/-- CHN_P_STATn.RXOK, bits 5:5 (R230). -/ def F.CHN_P_STAT.RXOK (n : Nat) : Fld := ⟨A.CHN_P_STAT n, 5, 1⟩
/-- CHN_P_STATn.PEER_RXOK, bits 6:6 (R230). -/ def F.CHN_P_STAT.PEER_RXOK (n : Nat) : Fld := ⟨A.CHN_P_STAT n, 6, 1⟩
/-- CHN_P_STATn.NGST, bits 11:8 (R230). -/ def F.CHN_P_STAT.NGST (n : Nat) : Fld := ⟨A.CHN_P_STAT n, 8, 4⟩
/-- CHN_P_STATn.LCAUSE, bits 18:16 (R230). -/ def F.CHN_P_STAT.LCAUSE (n : Nat) : Fld := ⟨A.CHN_P_STAT n, 16, 3⟩
/-- CHN_P_CNTn.C0, bits 1:0 (R230). -/ def F.CHN_P_CNT.C0 (n : Nat) : Fld := ⟨A.CHN_P_CNT n, 0, 2⟩
/-- CHN_P_CNTn.C1, bits 11:8 (R230). -/ def F.CHN_P_CNT.C1 (n : Nat) : Fld := ⟨A.CHN_P_CNT n, 8, 4⟩
/-- CHN_P_CNTn.C2, bits 21:16 (R230). -/ def F.CHN_P_CNT.C2 (n : Nat) : Fld := ⟨A.CHN_P_CNT n, 16, 6⟩
/-- CHN_P_CNTn.C3, bits 27:24 (R230). -/ def F.CHN_P_CNT.C3 (n : Nat) : Fld := ⟨A.CHN_P_CNT n, 24, 4⟩
/-- CHN_P_EQn.APPLIED, bits 3:0 (R230). -/ def F.CHN_P_EQ.APPLIED (n : Nat) : Fld := ⟨A.CHN_P_EQ n, 0, 4⟩
/-- CHN_P_EQn.LO, bits 11:8 (R230). -/ def F.CHN_P_EQ.LO (n : Nat) : Fld := ⟨A.CHN_P_EQ n, 8, 4⟩
/-- CHN_P_EQn.HI, bits 19:16 (R230). -/ def F.CHN_P_EQ.HI (n : Nat) : Fld := ⟨A.CHN_P_EQ n, 16, 4⟩
/-- CHN_P_EQn.PINVAL, bits 27:24 (R230). -/ def F.CHN_P_EQ.PINVAL (n : Nat) : Fld := ⟨A.CHN_P_EQ n, 24, 4⟩
/-- CHN_P_EQn.PIN, bits 31:31 (R230). -/ def F.CHN_P_EQ.PIN (n : Nat) : Fld := ⟨A.CHN_P_EQ n, 31, 1⟩
/-- CHN_P_EVTn.UP, bits 0:0 (R230). -/ def F.CHN_P_EVT.UP (n : Nat) : Fld := ⟨A.CHN_P_EVT n, 0, 1⟩
/-- CHN_P_EVTn.LOST, bits 1:1 (R230). -/ def F.CHN_P_EVT.LOST (n : Nat) : Fld := ⟨A.CHN_P_EVT n, 1, 1⟩
/-- CHN_P_EVTn.TRAIN_FAIL, bits 2:2 (R230). -/ def F.CHN_P_EVT.TRAIN_FAIL (n : Nat) : Fld := ⟨A.CHN_P_EVT n, 2, 1⟩
/-- CHN_P_EVTn.WAKE_HEARD, bits 3:3 (R230). -/ def F.CHN_P_EVT.WAKE_HEARD (n : Nat) : Fld := ⟨A.CHN_P_EVT n, 3, 1⟩
/-- CHN_P_EVTn.CRC_ERR, bits 4:4 (R230). -/ def F.CHN_P_EVT.CRC_ERR (n : Nat) : Fld := ⟨A.CHN_P_EVT n, 4, 1⟩
/-- CHN_P_EVTn.FMT_ERR, bits 5:5 (R230). -/ def F.CHN_P_EVT.FMT_ERR (n : Nat) : Fld := ⟨A.CHN_P_EVT n, 5, 1⟩
/-- CHN_P_EVTn.GAP, bits 6:6 (R230). -/ def F.CHN_P_EVT.GAP (n : Nat) : Fld := ⟨A.CHN_P_EVT n, 6, 1⟩
/-- CHN_P_EVTn.RETRY, bits 7:7 (R230). -/ def F.CHN_P_EVT.RETRY (n : Nat) : Fld := ⟨A.CHN_P_EVT n, 7, 1⟩
/-- CHN_P_EVTn.VER_MISMATCH, bits 8:8 (R230). -/ def F.CHN_P_EVT.VER_MISMATCH (n : Nat) : Fld := ⟨A.CHN_P_EVT n, 8, 1⟩
/-- CHN_P_EVTn.CFG_REFUSED, bits 9:9 (R230). -/ def F.CHN_P_EVT.CFG_REFUSED (n : Nat) : Fld := ⟨A.CHN_P_EVT n, 9, 1⟩
/-- CHN_P_EVT_ENn.UP, bits 0:0 (R230). -/ def F.CHN_P_EVT_EN.UP (n : Nat) : Fld := ⟨A.CHN_P_EVT_EN n, 0, 1⟩
/-- CHN_P_EVT_ENn.LOST, bits 1:1 (R230). -/ def F.CHN_P_EVT_EN.LOST (n : Nat) : Fld := ⟨A.CHN_P_EVT_EN n, 1, 1⟩
/-- CHN_P_EVT_ENn.TRAIN_FAIL, bits 2:2 (R230). -/ def F.CHN_P_EVT_EN.TRAIN_FAIL (n : Nat) : Fld := ⟨A.CHN_P_EVT_EN n, 2, 1⟩
/-- CHN_P_EVT_ENn.WAKE_HEARD, bits 3:3 (R230). -/ def F.CHN_P_EVT_EN.WAKE_HEARD (n : Nat) : Fld := ⟨A.CHN_P_EVT_EN n, 3, 1⟩
/-- CHN_P_EVT_ENn.CRC_ERR, bits 4:4 (R230). -/ def F.CHN_P_EVT_EN.CRC_ERR (n : Nat) : Fld := ⟨A.CHN_P_EVT_EN n, 4, 1⟩
/-- CHN_P_EVT_ENn.FMT_ERR, bits 5:5 (R230). -/ def F.CHN_P_EVT_EN.FMT_ERR (n : Nat) : Fld := ⟨A.CHN_P_EVT_EN n, 5, 1⟩
/-- CHN_P_EVT_ENn.GAP, bits 6:6 (R230). -/ def F.CHN_P_EVT_EN.GAP (n : Nat) : Fld := ⟨A.CHN_P_EVT_EN n, 6, 1⟩
/-- CHN_P_EVT_ENn.RETRY, bits 7:7 (R230). -/ def F.CHN_P_EVT_EN.RETRY (n : Nat) : Fld := ⟨A.CHN_P_EVT_EN n, 7, 1⟩
/-- CHN_P_EVT_ENn.VER_MISMATCH, bits 8:8 (R230). -/ def F.CHN_P_EVT_EN.VER_MISMATCH (n : Nat) : Fld := ⟨A.CHN_P_EVT_EN n, 8, 1⟩
/-- CHN_P_EVT_ENn.CFG_REFUSED, bits 9:9 (R230). -/ def F.CHN_P_EVT_EN.CFG_REFUSED (n : Nat) : Fld := ⟨A.CHN_P_EVT_EN n, 9, 1⟩
/-- CHN_P_ERRn.FMT, bits 15:0 (R230). -/ def F.CHN_P_ERR.FMT (n : Nat) : Fld := ⟨A.CHN_P_ERR n, 0, 16⟩
/-- CHN_P_ERRn.CRC, bits 31:16 (R230). -/ def F.CHN_P_ERR.CRC (n : Nat) : Fld := ⟨A.CHN_P_ERR n, 16, 16⟩
/-- CHN_P_GAPn.STREAM, bits 15:0 (R230). -/ def F.CHN_P_GAP.STREAM (n : Nat) : Fld := ⟨A.CHN_P_GAP n, 0, 16⟩
/-- CHN_P_GAPn.BULK, bits 31:16 (R230). -/ def F.CHN_P_GAP.BULK (n : Nat) : Fld := ⟨A.CHN_P_GAP n, 16, 16⟩
/-- CHN_P_RTXn.RETX, bits 15:0 (R230). -/ def F.CHN_P_RTX.RETX (n : Nat) : Fld := ⟨A.CHN_P_RTX n, 0, 16⟩
/-- CHN_P_RTXn.LOSSES, bits 31:16 (R230). -/ def F.CHN_P_RTX.LOSSES (n : Nat) : Fld := ⟨A.CHN_P_RTX n, 16, 16⟩
/-- CHN_P_DISCn.TXDROP, bits 15:0 (R230). -/ def F.CHN_P_DISC.TXDROP (n : Nat) : Fld := ⟨A.CHN_P_DISC n, 0, 16⟩
/-- CHN_P_DISCn.DUP, bits 31:16 (R230). -/ def F.CHN_P_DISC.DUP (n : Nat) : Fld := ⟨A.CHN_P_DISC n, 16, 16⟩
/-- CHN_P_FRXn.COUNT, bits 31:0 (R230). -/ def F.CHN_P_FRX.COUNT (n : Nat) : Fld := ⟨A.CHN_P_FRX n, 0, 32⟩
/-- CHN_P_FTXn.FNUM, bits 31:0 (R230). -/ def F.CHN_P_FTX.COUNT (n : Nat) : Fld := ⟨A.CHN_P_FTX n, 0, 32⟩
/-- CHN_P_PEERHn.FNUM, bits 31:0 (R230). -/ def F.CHN_P_PEERH.FNUM (n : Nat) : Fld := ⟨A.CHN_P_PEERH n, 0, 32⟩
/-- CHN_P_PEERLn.FNUM, bits 31:0 (R230). -/ def F.CHN_P_PEERL.FNUM (n : Nat) : Fld := ⟨A.CHN_P_PEERL n, 0, 32⟩
/-- CHN_NET_CTRL.HEAD, bits 0:0 (R265). -/ def F.CHN_NET_CTRL.HEAD : Fld := ⟨A.CHN_NET_CTRL, 0, 1⟩
/-- CHN_NET_CTRL.AUTO, bits 3:3 (R265). -/ def F.CHN_NET_CTRL.AUTO : Fld := ⟨A.CHN_NET_CTRL, 3, 1⟩
/-- CHN_NET_CTRL.SRCH, bits 6:6 (R265). -/ def F.CHN_NET_CTRL.SRCH : Fld := ⟨A.CHN_NET_CTRL, 6, 1⟩
/-- CHN_NET_CTRL.SCHED, bits 7:7 (R265). -/ def F.CHN_NET_CTRL.SCHED : Fld := ⟨A.CHN_NET_CTRL, 7, 1⟩
/-- CHN_NET_STAT.SRCH_BUSY, bits 0:0 (R265). -/ def F.CHN_NET_STAT.SRCH_BUSY : Fld := ⟨A.CHN_NET_STAT, 0, 1⟩
/-- CHN_NET_STAT.GEN, bits 4:1 (R265). -/ def F.CHN_NET_STAT.GEN : Fld := ⟨A.CHN_NET_STAT, 1, 4⟩
/-- CHN_NET_STAT.POS, bits 10:5 (R265). -/ def F.CHN_NET_STAT.POS : Fld := ⟨A.CHN_NET_STAT, 5, 6⟩
/-- CHN_NET_STAT.BRK, bits 16:11 (R265). -/ def F.CHN_NET_STAT.BRK : Fld := ⟨A.CHN_NET_STAT, 11, 6⟩
/-- CHN_NET_STAT.BRKV, bits 17:17 (R265). -/ def F.CHN_NET_STAT.BRKV : Fld := ⟨A.CHN_NET_STAT, 17, 1⟩
/-- CHN_NET_STAT.D, bits 24:18 (R265). -/ def F.CHN_NET_STAT.D : Fld := ⟨A.CHN_NET_STAT, 18, 7⟩
/-- CHN_NET_STAT.SLOT, bits 30:25 (R265). -/ def F.CHN_NET_STAT.SLOT : Fld := ⟨A.CHN_NET_STAT, 25, 6⟩
/-- CHN_NET_STAT.SLOTV, bits 31:31 (R265). -/ def F.CHN_NET_STAT.SLOTV : Fld := ⟨A.CHN_NET_STAT, 31, 1⟩
/-- CHN_NET_EVT.TOPO, bits 0:0 (R265). -/ def F.CHN_NET_EVT.TOPO : Fld := ⟨A.CHN_NET_EVT, 0, 1⟩
/-- CHN_NET_EVT.SRCH_DONE, bits 1:1 (R265). -/ def F.CHN_NET_EVT.SRCH_DONE : Fld := ⟨A.CHN_NET_EVT, 1, 1⟩
/-- CHN_NET_EVT.SRCH_RESTART, bits 2:2 (R265). -/ def F.CHN_NET_EVT.SRCH_RESTART : Fld := ⟨A.CHN_NET_EVT, 2, 1⟩
/-- CHN_NET_EVT.NOSLOT, bits 3:3 (R265). -/ def F.CHN_NET_EVT.NOSLOT : Fld := ⟨A.CHN_NET_EVT, 3, 1⟩
/-- CHN_NET_EVT.ASSIGNED, bits 4:4 (R265). -/ def F.CHN_NET_EVT.ASSIGNED : Fld := ⟨A.CHN_NET_EVT, 4, 1⟩
/-- CHN_NET_EVT.LOST, bits 5:5 (R265). -/ def F.CHN_NET_EVT.LOST : Fld := ⟨A.CHN_NET_EVT, 5, 1⟩
/-- CHN_NET_EVT.FOUND, bits 6:6 (R265). -/ def F.CHN_NET_EVT.FOUND : Fld := ⟨A.CHN_NET_EVT, 6, 1⟩
/-- CHN_NET_EVT.LOCK, bits 7:7 (R265). -/ def F.CHN_NET_EVT.LOCK : Fld := ⟨A.CHN_NET_EVT, 7, 1⟩
/-- CHN_NET_EVT.UNLOCK, bits 8:8 (R265). -/ def F.CHN_NET_EVT.UNLOCK : Fld := ⟨A.CHN_NET_EVT, 8, 1⟩
/-- CHN_NET_EVT.HEAD_CONFLICT, bits 9:9 (R265). -/ def F.CHN_NET_EVT.HEAD_CONFLICT : Fld := ⟨A.CHN_NET_EVT, 9, 1⟩
/-- CHN_NET_EVT.STRM_UNK, bits 10:10 (R265). -/ def F.CHN_NET_EVT.STRM_UNK : Fld := ⟨A.CHN_NET_EVT, 10, 1⟩
/-- CHN_NET_EVT.MIR_FAIL, bits 11:11 (R265). -/ def F.CHN_NET_EVT.MIR_FAIL : Fld := ⟨A.CHN_NET_EVT, 11, 1⟩
/-- CHN_NET_EVT.HOST_RES, bits 12:12 (R265). -/ def F.CHN_NET_EVT.HOST_RES : Fld := ⟨A.CHN_NET_EVT, 12, 1⟩
/-- CHN_NET_EVT.HOST_ERR, bits 13:13 (R265). -/ def F.CHN_NET_EVT.HOST_ERR : Fld := ⟨A.CHN_NET_EVT, 13, 1⟩
/-- CHN_NET_EVT.NOROUTE, bits 14:14 (R265). -/ def F.CHN_NET_EVT.NOROUTE : Fld := ⟨A.CHN_NET_EVT, 14, 1⟩
/-- CHN_NET_EVT.BASE, bits 15:15 (R265). -/ def F.CHN_NET_EVT.BASE : Fld := ⟨A.CHN_NET_EVT, 15, 1⟩
/-- CHN_NET_EVT.CFG_REFUSED, bits 16:16 (R265). -/ def F.CHN_NET_EVT.CFG_REFUSED : Fld := ⟨A.CHN_NET_EVT, 16, 1⟩
/-- CHN_NET_EVT.RING, bits 17:17 (R265). -/ def F.CHN_NET_EVT.RING : Fld := ⟨A.CHN_NET_EVT, 17, 1⟩
/-- CHN_NET_EVT_EN.TOPO, bits 0:0 (R265). -/ def F.CHN_NET_EVT_EN.TOPO : Fld := ⟨A.CHN_NET_EVT_EN, 0, 1⟩
/-- CHN_NET_EVT_EN.SRCH_DONE, bits 1:1 (R265). -/ def F.CHN_NET_EVT_EN.SRCH_DONE : Fld := ⟨A.CHN_NET_EVT_EN, 1, 1⟩
/-- CHN_NET_EVT_EN.SRCH_RESTART, bits 2:2 (R265). -/ def F.CHN_NET_EVT_EN.SRCH_RESTART : Fld := ⟨A.CHN_NET_EVT_EN, 2, 1⟩
/-- CHN_NET_EVT_EN.NOSLOT, bits 3:3 (R265). -/ def F.CHN_NET_EVT_EN.NOSLOT : Fld := ⟨A.CHN_NET_EVT_EN, 3, 1⟩
/-- CHN_NET_EVT_EN.ASSIGNED, bits 4:4 (R265). -/ def F.CHN_NET_EVT_EN.ASSIGNED : Fld := ⟨A.CHN_NET_EVT_EN, 4, 1⟩
/-- CHN_NET_EVT_EN.LOST, bits 5:5 (R265). -/ def F.CHN_NET_EVT_EN.LOST : Fld := ⟨A.CHN_NET_EVT_EN, 5, 1⟩
/-- CHN_NET_EVT_EN.FOUND, bits 6:6 (R265). -/ def F.CHN_NET_EVT_EN.FOUND : Fld := ⟨A.CHN_NET_EVT_EN, 6, 1⟩
/-- CHN_NET_EVT_EN.LOCK, bits 7:7 (R265). -/ def F.CHN_NET_EVT_EN.LOCK : Fld := ⟨A.CHN_NET_EVT_EN, 7, 1⟩
/-- CHN_NET_EVT_EN.UNLOCK, bits 8:8 (R265). -/ def F.CHN_NET_EVT_EN.UNLOCK : Fld := ⟨A.CHN_NET_EVT_EN, 8, 1⟩
/-- CHN_NET_EVT_EN.HEAD_CONFLICT, bits 9:9 (R265). -/ def F.CHN_NET_EVT_EN.HEAD_CONFLICT : Fld := ⟨A.CHN_NET_EVT_EN, 9, 1⟩
/-- CHN_NET_EVT_EN.STRM_UNK, bits 10:10 (R265). -/ def F.CHN_NET_EVT_EN.STRM_UNK : Fld := ⟨A.CHN_NET_EVT_EN, 10, 1⟩
/-- CHN_NET_EVT_EN.MIR_FAIL, bits 11:11 (R265). -/ def F.CHN_NET_EVT_EN.MIR_FAIL : Fld := ⟨A.CHN_NET_EVT_EN, 11, 1⟩
/-- CHN_NET_EVT_EN.HOST_RES, bits 12:12 (R265). -/ def F.CHN_NET_EVT_EN.HOST_RES : Fld := ⟨A.CHN_NET_EVT_EN, 12, 1⟩
/-- CHN_NET_EVT_EN.HOST_ERR, bits 13:13 (R265). -/ def F.CHN_NET_EVT_EN.HOST_ERR : Fld := ⟨A.CHN_NET_EVT_EN, 13, 1⟩
/-- CHN_NET_EVT_EN.NOROUTE, bits 14:14 (R265). -/ def F.CHN_NET_EVT_EN.NOROUTE : Fld := ⟨A.CHN_NET_EVT_EN, 14, 1⟩
/-- CHN_NET_EVT_EN.BASE, bits 15:15 (R265). -/ def F.CHN_NET_EVT_EN.BASE : Fld := ⟨A.CHN_NET_EVT_EN, 15, 1⟩
/-- CHN_NET_EVT_EN.CFG_REFUSED, bits 16:16 (R265). -/ def F.CHN_NET_EVT_EN.CFG_REFUSED : Fld := ⟨A.CHN_NET_EVT_EN, 16, 1⟩
/-- CHN_NET_EVT_EN.RING, bits 17:17 (R265). -/ def F.CHN_NET_EVT_EN.RING : Fld := ⟨A.CHN_NET_EVT_EN, 17, 1⟩
/-- CHN_NET_CFG.TMO, bits 7:0 (R265). -/ def F.CHN_NET_CFG.TMO : Fld := ⟨A.CHN_NET_CFG, 0, 8⟩
/-- CHN_NET_CFG.RETRY, bits 10:8 (R265). -/ def F.CHN_NET_CFG.RETRY : Fld := ⟨A.CHN_NET_CFG, 8, 3⟩
/-- CHN_NET_CNT.STALE, bits 15:0 (R265). -/ def F.CHN_NET_CNT.STALE : Fld := ⟨A.CHN_NET_CNT, 0, 16⟩
/-- CHN_NET_CNT.NOROUTE, bits 31:16 (R265). -/ def F.CHN_NET_CNT.NOROUTE : Fld := ⟨A.CHN_NET_CNT, 16, 16⟩
/-- CHN_TIME_STAT.ERR, bits 15:0 (R265). -/ def F.CHN_TIME_STAT.ERR : Fld := ⟨A.CHN_TIME_STAT, 0, 16⟩
/-- CHN_TIME_STAT.TPORT, bits 29:28 (R265). -/ def F.CHN_TIME_STAT.TPORT : Fld := ⟨A.CHN_TIME_STAT, 28, 2⟩
/-- CHN_TIME_STAT.PEER_LOCK, bits 30:30 (R265). -/ def F.CHN_TIME_STAT.PEER_LOCK : Fld := ⟨A.CHN_TIME_STAT, 30, 1⟩
/-- CHN_TIME_STAT.LOCK, bits 31:31 (R265). -/ def F.CHN_TIME_STAT.LOCK : Fld := ⟨A.CHN_TIME_STAT, 31, 1⟩
/-- CHN_TIME_DLY.DLY, bits 23:0 (R265). -/ def F.CHN_TIME_DLY.DLY : Fld := ⟨A.CHN_TIME_DLY, 0, 24⟩
/-- CHN_TIME_FREQ.Y, bits 31:0 (R265). -/ def F.CHN_TIME_FREQ.Y : Fld := ⟨A.CHN_TIME_FREQ, 0, 32⟩
/-- CHN_EPOCH_BL.T, bits 31:0 (R265). -/ def F.CHN_EPOCH_BL.T : Fld := ⟨A.CHN_EPOCH_BL, 0, 32⟩
/-- CHN_EPOCH_BH.T, bits 31:0 (R265). -/ def F.CHN_EPOCH_BH.T : Fld := ⟨A.CHN_EPOCH_BH, 0, 32⟩
/-- CHN_EPOCH_NBL.T, bits 31:0 (R265). -/ def F.CHN_EPOCH_NBL.T : Fld := ⟨A.CHN_EPOCH_NBL, 0, 32⟩
/-- CHN_EPOCH_NBH.T, bits 31:0 (R265). -/ def F.CHN_EPOCH_NBH.T : Fld := ⟨A.CHN_EPOCH_NBH, 0, 32⟩
/-- CHN_EPOCH_ACTL.T, bits 31:0 (R265). -/ def F.CHN_EPOCH_ACTL.T : Fld := ⟨A.CHN_EPOCH_ACTL, 0, 32⟩
/-- CHN_EPOCH_ACTH.T, bits 31:0 (R265). -/ def F.CHN_EPOCH_ACTH.T : Fld := ⟨A.CHN_EPOCH_ACTH, 0, 32⟩
/-- CHN_HOST_CFG.AUTH_REQ, bits 0:0 (R265). -/ def F.CHN_HOST_CFG.AUTH_REQ : Fld := ⟨A.CHN_HOST_CFG, 0, 1⟩
/-- CHN_HOST_STAT.POSTED, bits 3:0 (R265). -/ def F.CHN_HOST_STAT.POSTED : Fld := ⟨A.CHN_HOST_STAT, 0, 4⟩
/-- CHN_HOST_STAT.DONE, bits 7:4 (R265). -/ def F.CHN_HOST_STAT.DONE : Fld := ⟨A.CHN_HOST_STAT, 4, 4⟩
/-- CHN_HOST_STAT.LOADER, bits 31:31 (R265). -/ def F.CHN_HOST_STAT.LOADER : Fld := ⟨A.CHN_HOST_STAT, 31, 1⟩
/-- CHN_HOST_IRQEN.EN, bits 17:0 (R265). -/ def F.CHN_HOST_IRQEN.EN : Fld := ⟨A.CHN_HOST_IRQEN, 0, 18⟩
/-- CHN_HOST_CNT.COUNT, bits 31:0 (R265). -/ def F.CHN_HOST_CNT.COUNT : Fld := ⟨A.CHN_HOST_CNT, 0, 32⟩
/-- CHN_MIR_BASE.BASE, bits 31:22 (R265). -/ def F.CHN_MIR_BASE.BASE : Fld := ⟨A.CHN_MIR_BASE, 22, 10⟩
/-- CHN_HEAD_UNK.COUNT, bits 31:0 (R265). -/ def F.CHN_HEAD_UNK.COUNT : Fld := ⟨A.CHN_HEAD_UNK, 0, 32⟩
/-- CHN_LOSTL.SLOTS, bits 31:0 (R265). -/ def F.CHN_LOSTL.SLOTS : Fld := ⟨A.CHN_LOSTL, 0, 32⟩
/-- CHN_LOSTH.SLOTS, bits 31:0 (R265). -/ def F.CHN_LOSTH.SLOTS : Fld := ⟨A.CHN_LOSTH, 0, 32⟩
/-- CHN_ASGL.SLOTS, bits 31:0 (R265). -/ def F.CHN_ASGL.SLOTS : Fld := ⟨A.CHN_ASGL, 0, 32⟩
/-- CHN_ASGH.SLOTS, bits 31:0 (R265). -/ def F.CHN_ASGH.SLOTS : Fld := ⟨A.CHN_ASGH, 0, 32⟩
/-- CHN_POSn.POS, bits 31:0 (R265). -/ def F.CHN_POS.POS (n : Nat) : Fld := ⟨A.CHN_POS n, 0, 32⟩
/-- CHN_MIR_An.ADDR, bits 13:0 (R265). -/ def F.CHN_MIR_A.ADDR (n : Nat) : Fld := ⟨A.CHN_MIR_A n, 0, 14⟩
/-- CHN_MIR_An.COUNT, bits 21:16 (R265). -/ def F.CHN_MIR_A.COUNT (n : Nat) : Fld := ⟨A.CHN_MIR_A n, 16, 6⟩
/-- CHN_MIR_An.EN, bits 31:31 (R265). -/ def F.CHN_MIR_A.EN (n : Nat) : Fld := ⟨A.CHN_MIR_A n, 31, 1⟩
/-- CHN_MIR_Pn.PERIOD, bits 15:0 (R265). -/ def F.CHN_MIR_P.PERIOD (n : Nat) : Fld := ⟨A.CHN_MIR_P n, 0, 16⟩
/-- CHN_BIND_Hn.FNUM, bits 31:0 (R265). -/ def F.CHN_BIND_H.FNUM (n : Nat) : Fld := ⟨A.CHN_BIND_H n, 0, 32⟩
/-- CHN_BIND_Ln.FNUM, bits 31:0 (R265). -/ def F.CHN_BIND_L.FNUM (n : Nat) : Fld := ⟨A.CHN_BIND_L n, 0, 32⟩
/-- CHN_SLOTF_Hn.FNUM, bits 31:0 (R265). -/ def F.CHN_SLOTF_H.FNUM (n : Nat) : Fld := ⟨A.CHN_SLOTF_H n, 0, 32⟩
/-- CHN_SLOTF_Ln.FNUM, bits 31:0 (R265). -/ def F.CHN_SLOTF_L.FNUM (n : Nat) : Fld := ⟨A.CHN_SLOTF_L n, 0, 32⟩
/-- STB_CFGn.RING, bits 27:24 (R265). -/ def F.STB_CFG.RING (n : Nat) : Fld := ⟨A.STB_CFG n, 24, 4⟩
/-- STB_CFGn.EN, bits 31:31 (R265). -/ def F.STB_CFG.EN (n : Nat) : Fld := ⟨A.STB_CFG n, 31, 1⟩
/-- STB_STATn.LOST, bits 15:0 (R265). -/ def F.STB_STAT.LOST (n : Nat) : Fld := ⟨A.STB_STAT n, 0, 16⟩
/-- STB_STATn.BLK, bits 31:16 (R265). -/ def F.STB_STAT.BLK (n : Nat) : Fld := ⟨A.STB_STAT n, 16, 16⟩
/-- SAT_CTRL.EN, bits 0:0 (R288). -/ def F.SAT_CTRL.EN : Fld := ⟨A.SAT_CTRL, 0, 1⟩
/-- SAT_CTRL.POLL, bits 1:1 (R288). -/ def F.SAT_CTRL.POLL : Fld := ⟨A.SAT_CTRL, 1, 1⟩
/-- SAT_CTRL.AUTO, bits 2:2 (R288). -/ def F.SAT_CTRL.AUTO : Fld := ⟨A.SAT_CTRL, 2, 1⟩
/-- SAT_CTRL.SRCH, bits 3:3 (R288). -/ def F.SAT_CTRL.SRCH : Fld := ⟨A.SAT_CTRL, 3, 1⟩
/-- SAT_CTRL.ASRCH, bits 4:4 (R288). -/ def F.SAT_CTRL.ASRCH : Fld := ⟨A.SAT_CTRL, 4, 1⟩
/-- SAT_STAT.PRESENT, bits 0:0 (R288). -/ def F.SAT_STAT.PRESENT : Fld := ⟨A.SAT_STAT, 0, 1⟩
/-- SAT_STAT.ATTN, bits 1:1 (R288). -/ def F.SAT_STAT.ATTN : Fld := ⟨A.SAT_STAT, 1, 1⟩
/-- SAT_STAT.SHORT, bits 2:2 (R288). -/ def F.SAT_STAT.SHORT : Fld := ⟨A.SAT_STAT, 2, 1⟩
/-- SAT_STAT.BUSY, bits 3:3 (R288). -/ def F.SAT_STAT.BUSY : Fld := ⟨A.SAT_STAT, 3, 1⟩
/-- SAT_STAT.SRCH_BUSY, bits 4:4 (R288). -/ def F.SAT_STAT.SRCH_BUSY : Fld := ⟨A.SAT_STAT, 4, 1⟩
/-- SAT_STAT.SRCH_FAIL, bits 5:5 (R288). -/ def F.SAT_STAT.SRCH_FAIL : Fld := ⟨A.SAT_STAT, 5, 1⟩
/-- SAT_STAT.SRCH_ABORT, bits 6:6 (R288). -/ def F.SAT_STAT.SRCH_ABORT : Fld := ⟨A.SAT_STAT, 6, 1⟩
/-- SAT_CFG.PERIOD, bits 11:0 (R288). -/ def F.SAT_CFG.PERIOD : Fld := ⟨A.SAT_CFG, 0, 12⟩
/-- SAT_CFG.SPU, bits 19:12 (R288). -/ def F.SAT_CFG.SPU : Fld := ⟨A.SAT_CFG, 12, 8⟩
/-- SAT_CFG.RETRY, bits 21:20 (R288). -/ def F.SAT_CFG.RETRY : Fld := ⟨A.SAT_CFG, 20, 2⟩
/-- SAT_CFG.LOSTN, bits 27:24 (R288). -/ def F.SAT_CFG.LOSTN : Fld := ⟨A.SAT_CFG, 24, 4⟩
/-- SAT_CFG.RSTMAX, bits 31:28 (R288). -/ def F.SAT_CFG.RSTMAX : Fld := ⟨A.SAT_CFG, 28, 4⟩
/-- SAT_EVT.XDONE, bits 0:0 (R288). -/ def F.SAT_EVT.XDONE : Fld := ⟨A.SAT_EVT, 0, 1⟩
/-- SAT_EVT.SRCH_DONE, bits 1:1 (R288). -/ def F.SAT_EVT.SRCH_DONE : Fld := ⟨A.SAT_EVT, 1, 1⟩
/-- SAT_EVT.SRCH_RESTART, bits 2:2 (R288). -/ def F.SAT_EVT.SRCH_RESTART : Fld := ⟨A.SAT_EVT, 2, 1⟩
/-- SAT_EVT.ATTN, bits 3:3 (R288). -/ def F.SAT_EVT.ATTN : Fld := ⟨A.SAT_EVT, 3, 1⟩
/-- SAT_EVT.NEWPOD, bits 4:4 (R288). -/ def F.SAT_EVT.NEWPOD : Fld := ⟨A.SAT_EVT, 4, 1⟩
/-- SAT_EVT.ALARM, bits 5:5 (R288). -/ def F.SAT_EVT.ALARM : Fld := ⟨A.SAT_EVT, 5, 1⟩
/-- SAT_EVT.LOST, bits 6:6 (R288). -/ def F.SAT_EVT.LOST : Fld := ⟨A.SAT_EVT, 6, 1⟩
/-- SAT_EVT.FULL, bits 7:7 (R288). -/ def F.SAT_EVT.FULL : Fld := ⟨A.SAT_EVT, 7, 1⟩
/-- SAT_EVT.LATE, bits 8:8 (R288). -/ def F.SAT_EVT.LATE : Fld := ⟨A.SAT_EVT, 8, 1⟩
/-- SAT_EVT.SHORT, bits 9:9 (R288). -/ def F.SAT_EVT.SHORT : Fld := ⟨A.SAT_EVT, 9, 1⟩
/-- SAT_EVT.CFG_REFUSED, bits 10:10 (R288). -/ def F.SAT_EVT.CFG_REFUSED : Fld := ⟨A.SAT_EVT, 10, 1⟩
/-- SAT_EVT_EN.XDONE, bits 0:0 (R288). -/ def F.SAT_EVT_EN.XDONE : Fld := ⟨A.SAT_EVT_EN, 0, 1⟩
/-- SAT_EVT_EN.SRCH_DONE, bits 1:1 (R288). -/ def F.SAT_EVT_EN.SRCH_DONE : Fld := ⟨A.SAT_EVT_EN, 1, 1⟩
/-- SAT_EVT_EN.SRCH_RESTART, bits 2:2 (R288). -/ def F.SAT_EVT_EN.SRCH_RESTART : Fld := ⟨A.SAT_EVT_EN, 2, 1⟩
/-- SAT_EVT_EN.ATTN, bits 3:3 (R288). -/ def F.SAT_EVT_EN.ATTN : Fld := ⟨A.SAT_EVT_EN, 3, 1⟩
/-- SAT_EVT_EN.NEWPOD, bits 4:4 (R288). -/ def F.SAT_EVT_EN.NEWPOD : Fld := ⟨A.SAT_EVT_EN, 4, 1⟩
/-- SAT_EVT_EN.ALARM, bits 5:5 (R288). -/ def F.SAT_EVT_EN.ALARM : Fld := ⟨A.SAT_EVT_EN, 5, 1⟩
/-- SAT_EVT_EN.LOST, bits 6:6 (R288). -/ def F.SAT_EVT_EN.LOST : Fld := ⟨A.SAT_EVT_EN, 6, 1⟩
/-- SAT_EVT_EN.FULL, bits 7:7 (R288). -/ def F.SAT_EVT_EN.FULL : Fld := ⟨A.SAT_EVT_EN, 7, 1⟩
/-- SAT_EVT_EN.LATE, bits 8:8 (R288). -/ def F.SAT_EVT_EN.LATE : Fld := ⟨A.SAT_EVT_EN, 8, 1⟩
/-- SAT_EVT_EN.SHORT, bits 9:9 (R288). -/ def F.SAT_EVT_EN.SHORT : Fld := ⟨A.SAT_EVT_EN, 9, 1⟩
/-- SAT_EVT_EN.CFG_REFUSED, bits 10:10 (R288). -/ def F.SAT_EVT_EN.CFG_REFUSED : Fld := ⟨A.SAT_EVT_EN, 10, 1⟩
/-- SAT_XCTL.NREP, bits 3:0 (R288). -/ def F.SAT_XCTL.NREP : Fld := ⟨A.SAT_XCTL, 0, 4⟩
/-- SAT_XCTL.NPAR, bits 11:8 (R288). -/ def F.SAT_XCTL.NPAR : Fld := ⟨A.SAT_XCTL, 8, 4⟩
/-- SAT_XCTL.FUNC, bits 23:16 (R288). -/ def F.SAT_XCTL.FUNC : Fld := ⟨A.SAT_XCTL, 16, 8⟩
/-- SAT_XCTL.POD, bits 28:24 (R288). -/ def F.SAT_XCTL.POD : Fld := ⟨A.SAT_XCTL, 24, 5⟩
/-- SAT_XCTL.SPU, bits 29:29 (R288). -/ def F.SAT_XCTL.SPU : Fld := ⟨A.SAT_XCTL, 29, 1⟩
/-- SAT_XCTL.BC, bits 30:30 (R288). -/ def F.SAT_XCTL.BC : Fld := ⟨A.SAT_XCTL, 30, 1⟩
/-- SAT_XCTL.GO, bits 31:31 (R288). -/ def F.SAT_XCTL.GO : Fld := ⟨A.SAT_XCTL, 31, 1⟩
/-- SAT_XSTAT.RES, bits 2:0 (R288). -/ def F.SAT_XSTAT.RES : Fld := ⟨A.SAT_XSTAT, 0, 3⟩
/-- SAT_XDATn.DATA, bits 31:0 (R288). -/ def F.SAT_XDAT.DATA (n : Nat) : Fld := ⟨A.SAT_XDAT n, 0, 32⟩
/-- SAT_CNT.RESTARTS, bits 15:0 (R288). -/ def F.SAT_CNT.RESTARTS : Fld := ⟨A.SAT_CNT, 0, 16⟩
/-- SAT_CNT.CRC, bits 31:16 (R288). -/ def F.SAT_CNT.CRC : Fld := ⟨A.SAT_CNT, 16, 16⟩
/-- SAT_VALID.BITS, bits 31:0 (R288). -/ def F.SAT_VALID.BITS : Fld := ⟨A.SAT_VALID, 0, 32⟩
/-- SAT_ATTN.BITS, bits 31:0 (R288). -/ def F.SAT_ATTN.BITS : Fld := ⟨A.SAT_ATTN, 0, 32⟩
/-- SAT_LOSTP.BITS, bits 31:0 (R288). -/ def F.SAT_LOSTP.BITS : Fld := ⟨A.SAT_LOSTP, 0, 32⟩
/-- SAT_POD_Hn.FNUM, bits 31:0 (R288). -/ def F.SAT_POD_H.FNUM (n : Nat) : Fld := ⟨A.SAT_POD_H n, 0, 32⟩
/-- SAT_POD_Ln.FNUM, bits 31:0 (R288). -/ def F.SAT_POD_L.FNUM (n : Nat) : Fld := ⟨A.SAT_POD_L n, 0, 32⟩
/-- SAT_RDn.A, bits 15:0 (R288). -/ def F.SAT_RD.A (n : Nat) : Fld := ⟨A.SAT_RD n, 0, 16⟩
/-- SAT_RDn.B, bits 31:16 (R288). -/ def F.SAT_RD.B (n : Nat) : Fld := ⟨A.SAT_RD n, 16, 16⟩
/-- SAT_RSn.FLAGS, bits 7:0 (R288). -/ def F.SAT_RS.FLAGS (n : Nat) : Fld := ⟨A.SAT_RS n, 0, 8⟩
/-- SAT_RSn.TYPE, bits 15:8 (R288). -/ def F.SAT_RS.TYPE (n : Nat) : Fld := ⟨A.SAT_RS n, 8, 8⟩
/-- SAT_RSn.SEQ, bits 23:16 (R288). -/ def F.SAT_RS.SEQ (n : Nat) : Fld := ⟨A.SAT_RS n, 16, 8⟩
/-- SAT_RSn.MISS, bits 31:28 (R288). -/ def F.SAT_RS.MISS (n : Nat) : Fld := ⟨A.SAT_RS n, 28, 4⟩
/-- INK_CTRL.RUN, bits 0:0 (R317). -/ def F.INK_CTRL.RUN : Fld := ⟨A.INK_CTRL, 0, 1⟩
/-- INK_CTRL.RESTART, bits 1:1 (R317). -/ def F.INK_CTRL.RESTART : Fld := ⟨A.INK_CTRL, 1, 1⟩
/-- INK_CTRL.XLOCK, bits 2:2 (R317). -/ def F.INK_CTRL.XLOCK : Fld := ⟨A.INK_CTRL, 2, 1⟩
/-- INK_STAT.STATE, bits 2:0 (R317). -/ def F.INK_STAT.STATE : Fld := ⟨A.INK_STAT, 0, 3⟩
/-- INK_STAT.FLAGS, bits 7:4 (R317). -/ def F.INK_STAT.FLAGS : Fld := ⟨A.INK_STAT, 4, 4⟩
/-- INK_STAT.DEPTH, bits 12:8 (R317). -/ def F.INK_STAT.DEPTH : Fld := ⟨A.INK_STAT, 8, 5⟩
/-- INK_STAT.PC, bits 29:16 (R317). -/ def F.INK_STAT.PC : Fld := ⟨A.INK_STAT, 16, 14⟩
/-- INK_ENTRY.ENTRY, bits 13:0 (R317). -/ def F.INK_ENTRY.ENTRY : Fld := ⟨A.INK_ENTRY, 0, 14⟩
/-- INK_FLT.CAUSE, bits 3:0 (R317). -/ def F.INK_FLT.CAUSE : Fld := ⟨A.INK_FLT, 0, 4⟩
/-- INK_FLT.COUNT, bits 15:8 (R317). -/ def F.INK_FLT.COUNT : Fld := ⟨A.INK_FLT, 8, 8⟩
/-- INK_FLT.PC, bits 29:16 (R317). -/ def F.INK_FLT.PC : Fld := ⟨A.INK_FLT, 16, 14⟩
/-- INK_FLT_TSL.TS, bits 31:0 (R317). -/ def F.INK_FLT_TSL.TS : Fld := ⟨A.INK_FLT_TSL, 0, 32⟩
/-- INK_FLT_TSH.TS, bits 31:0 (R317). -/ def F.INK_FLT_TSH.TS : Fld := ⟨A.INK_FLT_TSH, 0, 32⟩
/-- INK_EPEND.LINES, bits 31:0 (R317). -/ def F.INK_EPEND.LINES : Fld := ⟨A.INK_EPEND, 0, 32⟩
/-- INK_EVT.TMR, bits 3:0 (R317). -/ def F.INK_EVT.TMR : Fld := ⟨A.INK_EVT, 0, 4⟩
/-- INK_EVT.MBX, bits 4:4 (R317). -/ def F.INK_EVT.MBX : Fld := ⟨A.INK_EVT, 4, 1⟩
/-- INK_EVT.SW, bits 15:8 (R317). -/ def F.INK_EVT.SW : Fld := ⟨A.INK_EVT, 8, 8⟩
/-- INK_EVT.TOVR, bits 19:16 (R317). -/ def F.INK_EVT.TOVR : Fld := ⟨A.INK_EVT, 16, 4⟩
/-- INK_SWSET.SET, bits 7:0 (R317). -/ def F.INK_SWSET.SET : Fld := ⟨A.INK_SWSET, 0, 8⟩
/-- INK_XCPL.COUNT, bits 13:8 (R317). -/ def F.INK_XCPL.COUNT : Fld := ⟨A.INK_XCPL, 8, 6⟩
/-- INK_XCPL.STATUS, bits 19:16 (R317). -/ def F.INK_XCPL.STATUS : Fld := ⟨A.INK_XCPL, 16, 4⟩
/-- INK_XCPL.OP, bits 21:20 (R317). -/ def F.INK_XCPL.OP : Fld := ⟨A.INK_XCPL, 20, 2⟩
/-- INK_XCPL.XID, bits 27:24 (R317). -/ def F.INK_XCPL.XID : Fld := ⟨A.INK_XCPL, 24, 4⟩
/-- INK_XCPL.VALID, bits 31:31 (R317). -/ def F.INK_XCPL.VALID : Fld := ⟨A.INK_XCPL, 31, 1⟩
/-- INK_XSTAT.OUT, bits 4:0 (R317). -/ def F.INK_XSTAT.OUT : Fld := ⟨A.INK_XSTAT, 0, 5⟩
/-- INK_XSTAT.QUEUED, bits 12:8 (R317). -/ def F.INK_XSTAT.QUEUED : Fld := ⟨A.INK_XSTAT, 8, 5⟩
/-- INK_XSTAT.REFUSED, bits 31:16 (R317). -/ def F.INK_XSTAT.REFUSED : Fld := ⟨A.INK_XSTAT, 16, 16⟩
/-- INK_SAFE.SOA, bits 0:0 (R317). -/ def F.INK_SAFE.SOA : Fld := ⟨A.INK_SAFE, 0, 1⟩
/-- INK_SAFE.SOA_PIN, bits 1:1 (R317). -/ def F.INK_SAFE.SOA_PIN : Fld := ⟨A.INK_SAFE, 1, 1⟩
/-- INK_SAFE.SOB_PIN, bits 2:2 (R317). -/ def F.INK_SAFE.SOB_PIN : Fld := ⟨A.INK_SAFE, 2, 1⟩
/-- INK_SAFE.GRD_OK, bits 31:31 (R317). -/ def F.INK_SAFE.GRD_OK : Fld := ⟨A.INK_SAFE, 31, 1⟩
/-- INK_WDC.CHAL, bits 15:0 (R317). -/ def F.INK_WDC.CHAL : Fld := ⟨A.INK_WDC, 0, 16⟩
/-- INK_WDC.SENT, bits 23:16 (R317). -/ def F.INK_WDC.SENT : Fld := ⟨A.INK_WDC, 16, 8⟩
/-- INK_WDC.FRESH, bits 31:31 (R317). -/ def F.INK_WDC.FRESH : Fld := ⟨A.INK_WDC, 31, 1⟩
/-- INK_SLATL.SLOTS, bits 31:0 (R317). -/ def F.INK_SLATL.SLOTS : Fld := ⟨A.INK_SLATL, 0, 32⟩
/-- INK_SLATH.SLOTS, bits 31:0 (R317). -/ def F.INK_SLATH.SLOTS : Fld := ⟨A.INK_SLATH, 0, 32⟩
/-- INK_SLATG.GST, bits 3:0 (R317). -/ def F.INK_SLATG.GST : Fld := ⟨A.INK_SLATG, 0, 4⟩
/-- INK_SLATG.UNSLOT, bits 31:31 (R317). -/ def F.INK_SLATG.UNSLOT : Fld := ⟨A.INK_SLATG, 31, 1⟩
/-- INK_ECC.PCOR, bits 15:0 (R317). -/ def F.INK_ECC.PCOR : Fld := ⟨A.INK_ECC, 0, 16⟩
/-- INK_ECC.DCOR, bits 31:16 (R317). -/ def F.INK_ECC.DCOR : Fld := ⟨A.INK_ECC, 16, 16⟩
/-- INK_MBXA.ADDR, bits 13:0 (R317). -/ def F.INK_MBXA.ADDR : Fld := ⟨A.INK_MBXA, 0, 14⟩
/-- INK_MBXA.COUNT, bits 31:16 (R317). -/ def F.INK_MBXA.COUNT : Fld := ⟨A.INK_MBXA, 16, 16⟩
/-- INK_TMRn.PERIOD, bits 23:0 (R317). -/ def F.INK_TMR.PERIOD (n : Nat) : Fld := ⟨A.INK_TMR n, 0, 24⟩
/-- INK_TMRn.PERIODIC, bits 30:30 (R317). -/ def F.INK_TMR.PERIODIC (n : Nat) : Fld := ⟨A.INK_TMR n, 30, 1⟩
/-- INK_TMRn.EN, bits 31:31 (R317). -/ def F.INK_TMR.EN (n : Nat) : Fld := ⟨A.INK_TMR n, 31, 1⟩
/-- STO_EVT.SRAM_UNCOR, bits 0:0 (R398). -/ def F.STO_EVT.SRAM_UNCOR : Fld := ⟨A.STO_EVT, 0, 1⟩
/-- STO_EVT.CEL_READY, bits 1:1 (R398). -/ def F.STO_EVT.CEL_READY : Fld := ⟨A.STO_EVT, 1, 1⟩
/-- STO_EVT.CEL_UNCOR, bits 2:2 (R398). -/ def F.STO_EVT.CEL_UNCOR : Fld := ⟨A.STO_EVT, 2, 1⟩
/-- STO_EVT.CEL_COR, bits 3:3 (R398). -/ def F.STO_EVT.CEL_COR : Fld := ⟨A.STO_EVT, 3, 1⟩
/-- STO_EVT.RING, bits 4:4 (R398). -/ def F.STO_EVT.RING : Fld := ⟨A.STO_EVT, 4, 1⟩
/-- STO_EVT.CFG_REFUSED, bits 5:5 (R398). -/ def F.STO_EVT.CFG_REFUSED : Fld := ⟨A.STO_EVT, 5, 1⟩
/-- STO_EVT.LDG_DONE, bits 6:6 (R398). -/ def F.STO_EVT.LDG_DONE : Fld := ⟨A.STO_EVT, 6, 1⟩
/-- STO_EVT.LDG_FAIL, bits 7:7 (R398). -/ def F.STO_EVT.LDG_FAIL : Fld := ⟨A.STO_EVT, 7, 1⟩
/-- STO_EVT.LOG_DROP, bits 8:8 (R398). -/ def F.STO_EVT.LOG_DROP : Fld := ⟨A.STO_EVT, 8, 1⟩
/-- STO_EVT_EN.SRAM_UNCOR, bits 0:0 (R398). -/ def F.STO_EVT_EN.SRAM_UNCOR : Fld := ⟨A.STO_EVT_EN, 0, 1⟩
/-- STO_EVT_EN.CEL_READY, bits 1:1 (R398). -/ def F.STO_EVT_EN.CEL_READY : Fld := ⟨A.STO_EVT_EN, 1, 1⟩
/-- STO_EVT_EN.CEL_UNCOR, bits 2:2 (R398). -/ def F.STO_EVT_EN.CEL_UNCOR : Fld := ⟨A.STO_EVT_EN, 2, 1⟩
/-- STO_EVT_EN.CEL_COR, bits 3:3 (R398). -/ def F.STO_EVT_EN.CEL_COR : Fld := ⟨A.STO_EVT_EN, 3, 1⟩
/-- STO_EVT_EN.RING, bits 4:4 (R398). -/ def F.STO_EVT_EN.RING : Fld := ⟨A.STO_EVT_EN, 4, 1⟩
/-- STO_EVT_EN.CFG_REFUSED, bits 5:5 (R398). -/ def F.STO_EVT_EN.CFG_REFUSED : Fld := ⟨A.STO_EVT_EN, 5, 1⟩
/-- STO_EVT_EN.LDG_DONE, bits 6:6 (R398). -/ def F.STO_EVT_EN.LDG_DONE : Fld := ⟨A.STO_EVT_EN, 6, 1⟩
/-- STO_EVT_EN.LDG_FAIL, bits 7:7 (R398). -/ def F.STO_EVT_EN.LDG_FAIL : Fld := ⟨A.STO_EVT_EN, 7, 1⟩
/-- STO_EVT_EN.LOG_DROP, bits 8:8 (R398). -/ def F.STO_EVT_EN.LOG_DROP : Fld := ⟨A.STO_EVT_EN, 8, 1⟩
/-- STO_ECC.COR, bits 15:0 (R398). -/ def F.STO_ECC.COR : Fld := ⟨A.STO_ECC, 0, 16⟩
/-- STO_ECC.UNCOR, bits 31:16 (R398). -/ def F.STO_ECC.UNCOR : Fld := ⟨A.STO_ECC, 16, 16⟩
/-- STO_ECC_ADDR.OFFSET, bits 18:0 (R398). -/ def F.STO_ECC_ADDR.OFFSET : Fld := ⟨A.STO_ECC_ADDR, 0, 19⟩
/-- STO_ECC_ADDR.MEM, bits 31:28 (R398). -/ def F.STO_ECC_ADDR.MEM : Fld := ⟨A.STO_ECC_ADDR, 28, 4⟩
/-- STO_CEL_CTRL.EN, bits 0:0 (R398). -/ def F.STO_CEL_CTRL.EN : Fld := ⟨A.STO_CEL_CTRL, 0, 1⟩
/-- STO_CEL_CTRL.SIZE, bits 2:1 (R398). -/ def F.STO_CEL_CTRL.SIZE : Fld := ⟨A.STO_CEL_CTRL, 1, 2⟩
/-- STO_CEL_CTRL.SCRUB, bits 3:3 (R398). -/ def F.STO_CEL_CTRL.SCRUB : Fld := ⟨A.STO_CEL_CTRL, 3, 1⟩
/-- STO_CEL_STAT.BLOCKS, bits 12:0 (R398). -/ def F.STO_CEL_STAT.BLOCKS : Fld := ⟨A.STO_CEL_STAT, 0, 13⟩
/-- STO_CEL_STAT.INIT, bits 30:30 (R398). -/ def F.STO_CEL_STAT.INIT : Fld := ⟨A.STO_CEL_STAT, 30, 1⟩
/-- STO_CEL_STAT.READY, bits 31:31 (R398). -/ def F.STO_CEL_STAT.READY : Fld := ⟨A.STO_CEL_STAT, 31, 1⟩
/-- STO_CEL_ECC.COR, bits 15:0 (R398). -/ def F.STO_CEL_ECC.COR : Fld := ⟨A.STO_CEL_ECC, 0, 16⟩
/-- STO_CEL_ECC.UNCOR, bits 31:16 (R398). -/ def F.STO_CEL_ECC.UNCOR : Fld := ⟨A.STO_CEL_ECC, 16, 16⟩
/-- STO_CEL_ADDR.ADDR, bits 31:0 (R398). -/ def F.STO_CEL_ADDR.ADDR : Fld := ⟨A.STO_CEL_ADDR, 0, 32⟩
/-- STO_RING_EVT.FILL, bits 15:0 (R398). -/ def F.STO_RING_EVT.FILL : Fld := ⟨A.STO_RING_EVT, 0, 16⟩
/-- STO_RING_EVT.LOSS, bits 31:16 (R398). -/ def F.STO_RING_EVT.LOSS : Fld := ⟨A.STO_RING_EVT, 16, 16⟩
/-- STO_RING_EVT_EN.FILL, bits 15:0 (R398). -/ def F.STO_RING_EVT_EN.FILL : Fld := ⟨A.STO_RING_EVT_EN, 0, 16⟩
/-- STO_RING_EVT_EN.LOSS, bits 31:16 (R398). -/ def F.STO_RING_EVT_EN.LOSS : Fld := ⟨A.STO_RING_EVT_EN, 16, 16⟩
/-- STO_LDG_STAT.ERASES, bits 7:0 (R398). -/ def F.STO_LDG_STAT.ERASES : Fld := ⟨A.STO_LDG_STAT, 0, 8⟩
/-- STO_LDG_STAT.VFAIL, bits 15:8 (R398). -/ def F.STO_LDG_STAT.VFAIL : Fld := ⟨A.STO_LDG_STAT, 8, 8⟩
/-- STO_LDG_STAT.QUEUED, bits 23:20 (R398). -/ def F.STO_LDG_STAT.QUEUED : Fld := ⟨A.STO_LDG_STAT, 20, 4⟩
/-- STO_LDG_STAT.LSEC, bits 27:26 (R398). -/ def F.STO_LDG_STAT.LSEC : Fld := ⟨A.STO_LDG_STAT, 26, 2⟩
/-- STO_LDG_STAT.RSEC, bits 29:28 (R398). -/ def F.STO_LDG_STAT.RSEC : Fld := ⟨A.STO_LDG_STAT, 28, 2⟩
/-- STO_LDG_STAT.ERASING, bits 30:30 (R398). -/ def F.STO_LDG_STAT.ERASING : Fld := ⟨A.STO_LDG_STAT, 30, 1⟩
/-- STO_LDG_STAT.BUSY, bits 31:31 (R398). -/ def F.STO_LDG_STAT.BUSY : Fld := ⟨A.STO_LDG_STAT, 31, 1⟩
/-- STO_LDG_NEW.FAULT1, bits 7:0 (R398). -/ def F.STO_LDG_NEW.FAULT1 : Fld := ⟨A.STO_LDG_NEW, 0, 8⟩
/-- STO_LDG_NEW.FAULT0, bits 15:8 (R398). -/ def F.STO_LDG_NEW.FAULT0 : Fld := ⟨A.STO_LDG_NEW, 8, 8⟩
/-- STO_LDG_NEW.COMMIT, bits 23:16 (R398). -/ def F.STO_LDG_NEW.COMMIT : Fld := ⟨A.STO_LDG_NEW, 16, 8⟩
/-- STO_LDG_NEW.LO, bits 31:24 (R398). -/ def F.STO_LDG_NEW.LO : Fld := ⟨A.STO_LDG_NEW, 24, 8⟩
/-- STO_LDG_LOG.DROP, bits 15:0 (R398). -/ def F.STO_LDG_LOG.DROP : Fld := ⟨A.STO_LDG_LOG, 0, 16⟩
/-- STO_LDG_LOG.NEWEST, bits 31:24 (R398). -/ def F.STO_LDG_LOG.NEWEST : Fld := ⟨A.STO_LDG_LOG, 24, 8⟩
/-- STO_LDG_RA.ADDR, bits 13:2 (R398). -/ def F.STO_LDG_RA.ADDR : Fld := ⟨A.STO_LDG_RA, 2, 12⟩
/-- STO_LDG_RD.DATA, bits 31:0 (R398). -/ def F.STO_LDG_RD.DATA : Fld := ⟨A.STO_LDG_RD, 0, 32⟩
/-- STO_CRC_CFGn.POLY, bits 1:0 (R398). -/ def F.STO_CRC_CFG.POLY (n : Nat) : Fld := ⟨A.STO_CRC_CFG n, 0, 2⟩
/-- STO_CRC_CFGn.INIT, bits 8:8 (R398). -/ def F.STO_CRC_CFG.INIT (n : Nat) : Fld := ⟨A.STO_CRC_CFG n, 8, 1⟩
/-- STO_CRC_DATAn.DATA, bits 31:0 (R398). -/ def F.STO_CRC_DATA.DATA (n : Nat) : Fld := ⟨A.STO_CRC_DATA n, 0, 32⟩
/-- STO_CRC_DATABn.BYTE, bits 7:0 (R398). -/ def F.STO_CRC_DATAB.BYTE (n : Nat) : Fld := ⟨A.STO_CRC_DATAB n, 0, 8⟩
/-- STO_CRC_RESn.RES, bits 31:0 (R398). -/ def F.STO_CRC_RES.RES (n : Nat) : Fld := ⟨A.STO_CRC_RES n, 0, 32⟩
/-- STO_CRC_STATEn.STATE, bits 31:0 (R398). -/ def F.STO_CRC_STATE.STATE (n : Nat) : Fld := ⟨A.STO_CRC_STATE n, 0, 32⟩
/-- STO_RING_CFGn.THR, bits 27:24 (R398). -/ def F.STO_RING_CFG.THR (n : Nat) : Fld := ⟨A.STO_RING_CFG n, 24, 4⟩
/-- STO_RING_CFGn.POLICY, bits 30:30 (R398). -/ def F.STO_RING_CFG.POLICY (n : Nat) : Fld := ⟨A.STO_RING_CFG n, 30, 1⟩
/-- STO_RING_CFGn.EN, bits 31:31 (R398). -/ def F.STO_RING_CFG.EN (n : Nat) : Fld := ⟨A.STO_RING_CFG n, 31, 1⟩
/-- STO_RING_BASEn.BASE, bits 31:12 (R398). -/ def F.STO_RING_BASE.BASE (n : Nat) : Fld := ⟨A.STO_RING_BASE n, 12, 20⟩
/-- STO_RING_SIZEn.SIZE, bits 14:0 (R398). -/ def F.STO_RING_SIZE.SIZE (n : Nat) : Fld := ⟨A.STO_RING_SIZE n, 0, 15⟩
/-- STO_RING_WRn.OFF, bits 25:0 (R398). -/ def F.STO_RING_WR.OFF (n : Nat) : Fld := ⟨A.STO_RING_WR n, 0, 26⟩
/-- STO_RING_RDn.OFF, bits 25:0 (R398). -/ def F.STO_RING_RD.OFF (n : Nat) : Fld := ⟨A.STO_RING_RD n, 0, 26⟩
/-- STO_RING_OLDn.OFF, bits 25:0 (R398). -/ def F.STO_RING_OLD.OFF (n : Nat) : Fld := ⟨A.STO_RING_OLD n, 0, 26⟩
/-- STO_RING_LOSSn.COUNT, bits 31:0 (R398). -/ def F.STO_RING_LOSS.COUNT (n : Nat) : Fld := ⟨A.STO_RING_LOSS n, 0, 32⟩
/-- STO_BOOT_STAT.COPY, bits 1:0 (R338). -/ def F.STO_BOOT_STAT.COPY : Fld := ⟨A.STO_BOOT_STAT, 0, 2⟩
/-- STO_BOOT_STAT.LO_VALID, bits 4:4 (R338). -/ def F.STO_BOOT_STAT.LO_VALID : Fld := ⟨A.STO_BOOT_STAT, 4, 1⟩
/-- STO_BOOT_STAT.SELFTEST, bits 5:5 (R338). -/ def F.STO_BOOT_STAT.SELFTEST : Fld := ⟨A.STO_BOOT_STAT, 5, 1⟩
/-- STO_BOOT_STAT.LOADER, bits 6:6 (R338). -/ def F.STO_BOOT_STAT.LOADER : Fld := ⟨A.STO_BOOT_STAT, 6, 1⟩
/-- STO_BOOT_STAT.AUTH, bits 7:7 (R338). -/ def F.STO_BOOT_STAT.AUTH : Fld := ⟨A.STO_BOOT_STAT, 7, 1⟩
/-- STO_BOOT_STAT.ERRA, bits 11:8 (R338). -/ def F.STO_BOOT_STAT.ERRA : Fld := ⟨A.STO_BOOT_STAT, 8, 4⟩
/-- STO_BOOT_STAT.ERRB, bits 15:12 (R338). -/ def F.STO_BOOT_STAT.ERRB : Fld := ⟨A.STO_BOOT_STAT, 12, 4⟩
/-- STO_BOOT_VER.IMG_VER, bits 31:0 (R338). -/ def F.STO_BOOT_VER.IMG_VER : Fld := ⟨A.STO_BOOT_VER, 0, 32⟩
/-- STO_BOOT_INIT.FIRST_BAD, bits 15:0 (R338). -/ def F.STO_BOOT_INIT.FIRST_BAD : Fld := ⟨A.STO_BOOT_INIT, 0, 16⟩
/-- STO_BOOT_INIT.BAD, bits 27:16 (R338). -/ def F.STO_BOOT_INIT.BAD : Fld := ⟨A.STO_BOOT_INIT, 16, 12⟩
/-- STO_BOOT_INIT.TRUNC, bits 31:31 (R338). -/ def F.STO_BOOT_INIT.TRUNC : Fld := ⟨A.STO_BOOT_INIT, 31, 1⟩
/-- STO_BOOT_TIME.T, bits 23:0 (R338). -/ def F.STO_BOOT_TIME.T : Fld := ⟨A.STO_BOOT_TIME, 0, 24⟩
/-- STO_LDR_STAT.FBUSY, bits 0:0 (R338). -/ def F.STO_LDR_STAT.FBUSY : Fld := ⟨A.STO_LDR_STAT, 0, 1⟩
/-- STO_LDR_STAT.FERR, bits 1:1 (R338). -/ def F.STO_LDR_STAT.FERR : Fld := ⟨A.STO_LDR_STAT, 1, 1⟩
/-- STO_LDR_STAT.AUTHF, bits 2:2 (R338). -/ def F.STO_LDR_STAT.AUTHF : Fld := ⟨A.STO_LDR_STAT, 2, 1⟩

/-! ### Reset values and access masks -/

/-- One row of the endpoint map: `count` registers from `base`, `stride` apart, with their reset value (R491)
and the bits that are RW or RWL, W1C and SL (R6). Every other bit is RO, WO or reserved and stores nothing. -/
structure RegRow where
  base : Nat
  stride : Nat
  count : Nat
  reset : Nat
  rw : Nat
  w1c : Nat
  sl : Nat
  deriving DecidableEq, Repr

/-- Whether the row holds the register at local address `a`. -/
def RegRow.covers (r : RegRow) (a : Nat) : Bool :=
  Nat.ble r.base a && Nat.beq ((a - r.base) % r.stride) 0 && Nat.blt ((a - r.base) / r.stride) r.count

/-- The rows of local addresses 0x0000 to 0x01FF (R485). -/
def regRows.ptrThmTru : List RegRow :=
  [
   ⟨0x0000, 1, 1, 0x3, 0x0, 0x0, 0x0⟩,  -- PTR_STAT
   ⟨0x0001, 1, 1, 0x0, 0x0, 0x0, 0x0⟩,  -- PTR_REQ
   ⟨0x0002, 1, 1, 0x0, 0xFFFF0001, 0x0, 0x0⟩,  -- PTR_CFG
   ⟨0x0003, 1, 1, 0x0, 0x3FF, 0x0, 0x0⟩,  -- PTR_DOM
   ⟨0x0004, 1, 1, 0x1, 0x0, 0x0, 0x0⟩,  -- PTR_DOM_STAT
   ⟨0x0005, 1, 1, 0x0, 0x0, 0x3F, 0x0⟩,  -- PTR_EVT
   ⟨0x0006, 1, 1, 0x0, 0x3F, 0x0, 0x0⟩,  -- PTR_EVT_EN
   ⟨0x0007, 1, 1, 0x1, 0x0, 0x1F, 0x0⟩,  -- PTR_RST
   ⟨0x0008, 1, 1, 0x0, 0x0, 0x7, 0x0⟩,  -- PTR_RCV
   ⟨0x0009, 1, 1, 0x2F, 0x3F, 0x0, 0x0⟩,  -- PTR_WAKE_EN
   ⟨0x000A, 1, 1, 0x0, 0x0, 0x0, 0x0⟩,  -- PTR_WAKE_CAUSE
   ⟨0x000B, 1, 1, 0x203FF00, 0xF07FFFF, 0x0, 0x0⟩,  -- PTR_WCFG
   ⟨0x000C, 1, 1, 0x0, 0x0, 0x0, 0x0⟩,  -- PTR_TIMEL
   ⟨0x000D, 1, 1, 0x0, 0x0, 0x0, 0x0⟩,  -- PTR_TIMEH
   ⟨0x000E, 1, 1, 0x0, 0xFFFFFFFF, 0x0, 0x0⟩,  -- PTR_ALARML
   ⟨0x000F, 1, 1, 0x0, 0xFFFFFFFF, 0x0, 0x0⟩,  -- PTR_ALARMH
   ⟨0x0100, 1, 1, 0x1F0000, 0x1F0007, 0x0, 0x0⟩,  -- THM_CTRL
   ⟨0x0101, 1, 1, 0x0, 0x0, 0x0, 0x0⟩,  -- THM_STAT
   ⟨0x0102, 1, 1, 0x70440D2, 0x70FF1FF, 0x0, 0x0⟩,  -- THM_LIM
   ⟨0x0103, 1, 1, 0x4000064, 0x7000FFF, 0x0, 0x0⟩,  -- THM_ROR
   ⟨0x0104, 1, 1, 0x28, 0xFF, 0x0, 0x0⟩,  -- THM_XCHK
   ⟨0x0105, 1, 1, 0x0, 0x0, 0x3F, 0x0⟩,  -- THM_EVT
   ⟨0x0106, 1, 1, 0x0, 0x3F, 0x0, 0x0⟩,  -- THM_EVT_EN
   ⟨0x0107, 1, 1, 0x0, 0x0, 0x1F, 0x0⟩,  -- THM_FAIL
   ⟨0x0108, 1, 4, 0x0, 0x0, 0x0, 0x0⟩,  -- THM_DS
   ⟨0x010C, 1, 1, 0x0, 0x0, 0x0, 0x0⟩,  -- THM_TC
   ⟨0x010D, 1, 1, 0x0, 0x0, 0x7, 0x0⟩,  -- THM_SD
   ⟨0x0140, 1, 1, 0x0, 0x0, 0x0, 0x0⟩,  -- TRU_STAT
   ⟨0x0141, 1, 1, 0x0, 0x0, 0x7F, 0x0⟩,  -- TRU_EVT
   ⟨0x0142, 1, 1, 0x0, 0x7F, 0x0, 0x0⟩,  -- TRU_EVT_EN
   ⟨0x0143, 1, 1, 0x30000F, 0x0, 0x0, 0xFFFFFFFF⟩,  -- OTP_LOCK
   ⟨0x0144, 1, 1, 0x0, 0x0, 0x0, 0x0⟩,  -- TRU_LOCKF
   ⟨0x0145, 1, 1, 0x0, 0x0, 0x0, 0x0⟩,  -- TRU_RSTAT
   ⟨0x0146, 1, 1, 0x0, 0x3FF, 0x0, 0x0⟩,  -- TRU_OTP_ADDR
   ⟨0x0147, 1, 1, 0x0, 0x0, 0x0, 0x0⟩,  -- TRU_OTP_DATA
   ⟨0x0148, 1, 1, 0x0, 0x0, 0x0, 0x0⟩,  -- TRU_OTP_CHK
   ⟨0x0149, 1, 1, 0x0, 0xFFFFFFFF, 0x0, 0x0⟩,  -- TRU_PRG_DATA
   ⟨0x014A, 1, 1, 0x0, 0x4000000F, 0x0, 0x0⟩,  -- TRU_PRG_CTRL
   ⟨0x014B, 1, 1, 0x0, 0x0, 0x0, 0x0⟩,  -- TRU_PRG_STAT
   ⟨0x014C, 1, 1, 0x0, 0x0, 0x0, 0x0⟩,  -- TRU_WEAK
   ⟨0x014D, 1, 1, 0x0, 0xF, 0x0, 0x0⟩,  -- TRU_TEST_SEL
   ⟨0x014E, 1, 1, 0x0, 0x0, 0x0, 0x0⟩,  -- TRU_TEST_KEY
   ⟨0x014F, 1, 1, 0x0, 0x0, 0x0, 0x0⟩,  -- TRU_ST
   ⟨0x0150, 1, 1, 0x0, 0x0, 0x0, 0x0⟩]  -- TRU_ST_DET

/-- The rows of local addresses 0x0200 to 0x03FF (R485). -/
def regRows.meas : List RegRow :=
  [
   ⟨0x0200, 1, 1, 0x0, 0x3, 0x0, 0x0⟩,  -- MEAS_CTRL
   ⟨0x0201, 1, 1, 0x1F00, 0x0, 0x0, 0x0⟩,  -- MEAS_STAT
   ⟨0x0202, 1, 1, 0x0, 0x1FFFFFF, 0x0, 0x0⟩,  -- MEAS_CH_EN
   ⟨0x0203, 1, 1, 0x0, 0x1, 0x0, 0x0⟩,  -- MEAS_REF
   ⟨0x0204, 1, 1, 0x0, 0x17F, 0x0, 0x0⟩,  -- MEAS_TRIG
   ⟨0x0205, 1, 1, 0x0, 0x0, 0x0, 0x0⟩,  -- MEAS_CAL
   ⟨0x0206, 1, 1, 0x0, 0x0, 0x7FFFFFF, 0x0⟩,  -- MEAS_CAL_ERR
   ⟨0x0207, 1, 1, 0x170000, 0x1F1F1F03, 0x0, 0x0⟩,  -- MEAS_TRV_CTRL
   ⟨0x0208, 1, 1, 0x14, 0x7F, 0x0, 0x0⟩,  -- MEAS_TRV_TOL
   ⟨0x0209, 1, 1, 0x0, 0x0, 0x0, 0x0⟩,  -- MEAS_TRV_STAT
   ⟨0x020A, 1, 1, 0x0, 0x0, 0x0, 0x0⟩,  -- MEAS_TRV_CNT
   ⟨0x020B, 1, 1, 0x0, 0x0, 0xFFFFFF, 0x0⟩,  -- MEAS_CONV_FAIL
   ⟨0x020C, 1, 1, 0xFFFF, 0xFFFF, 0x0, 0x0⟩,  -- MEAS_HK_MASK
   ⟨0x020D, 1, 1, 0x20A, 0xFFF, 0x0, 0x0⟩,  -- MEAS_HK_CFG
   ⟨0x020E, 1, 1, 0x0, 0xF, 0x0, 0x0⟩,  -- MEAS_HK_INJ
   ⟨0x020F, 1, 1, 0x0, 0x0, 0xFFFF, 0x0⟩,  -- MEAS_EVT
   ⟨0x0210, 1, 1, 0x0, 0xFFFF, 0x0, 0x0⟩,  -- MEAS_EVT_EN
   ⟨0x0211, 1, 1, 0x0, 0x1FFFFFF, 0x0, 0x0⟩,  -- MEAS_OW_CTRL
   ⟨0x0212, 1, 1, 0x3203, 0xFF0F, 0x0, 0x0⟩,  -- MEAS_OW_CFG
   ⟨0x0213, 1, 1, 0x0, 0x0, 0x0, 0x0⟩,  -- MEAS_OW_RES
   ⟨0x0214, 1, 1, 0x0, 0x0, 0x0, 0x0⟩,  -- MEAS_SNAP
   ⟨0x0220, 1, 26, 0x0, 0x0, 0x0, 0x0⟩,  -- MEAS_RAW
   ⟨0x023A, 1, 1, 0x0, 0x0, 0x0, 0x0⟩,  -- MEAS_RAWTIME
   ⟨0x0240, 1, 27, 0x0, 0xFFFF, 0x0, 0x0⟩,  -- MEAS_GAIN
   ⟨0x0260, 1, 27, 0x0, 0xFFFF, 0x0, 0x0⟩,  -- MEAS_OFF
   ⟨0x0280, 1, 16, 0x0, 0x0, 0x0, 0x0⟩,  -- MEAS_HK
   ⟨0x0290, 1, 1, 0x0, 0x0, 0x0, 0x0⟩]  -- MEAS_HK_INJR

/-- The rows of local addresses 0x0400 to 0x07FF (R485). -/
def regRows.sdp : List RegRow :=
  [
   ⟨0x0400, 1, 1, 0x0, 0x71, 0x0, 0x0⟩,  -- SDP_CFG
   ⟨0x0401, 1, 1, 0x0, 0x0, 0x0, 0x0⟩,  -- SDP_STAT
   ⟨0x0402, 1, 1, 0x0, 0x1FFFFFF, 0x0, 0x0⟩,  -- SDP_CH_EN
   ⟨0x0403, 1, 1, 0x70, 0xF2, 0x0, 0x0⟩,  -- SDP_ACC_CTRL
   ⟨0x0404, 1, 1, 0x0, 0x0, 0x0, 0x0⟩,  -- SDP_ACC_TSL
   ⟨0x0405, 1, 1, 0x0, 0x0, 0x0, 0x0⟩,  -- SDP_ACC_TSH
   ⟨0x0406, 1, 1, 0x0, 0x0, 0x0, 0x0⟩,  -- SDP_RCNT
   ⟨0x0407, 1, 1, 0x0, 0x0, 0x0, 0x0⟩,  -- SDP_OVRCNT
   ⟨0x0408, 1, 1, 0x0, 0x0, 0x1FF, 0x0⟩,  -- SDP_EVT
   ⟨0x0409, 1, 1, 0x0, 0x1FF, 0x0, 0x0⟩,  -- SDP_EVT_EN
   ⟨0x040A, 1, 1, 0x0, 0x0, 0x0, 0x0⟩,  -- SDP_SET_TSL
   ⟨0x040B, 1, 1, 0x0, 0x0, 0x0, 0x0⟩,  -- SDP_SET_TSH
   ⟨0x040C, 1, 1, 0x0, 0x0, 0x0, 0x0⟩,  -- SDP_SETFLG
   ⟨0x0420, 1, 25, 0x40000000, 0x0, 0x0, 0x0⟩,  -- SDP_RES
   ⟨0x0440, 1, 24, 0x100, 0xF07, 0x0, 0x0⟩,  -- SDP_SCFG
   ⟨0x0460, 1, 24, 0x0, 0x1FFFFFF, 0x0, 0x0⟩,  -- SDP_SMASK
   ⟨0x0480, 1, 25, 0x0, 0x0, 0x0, 0x0⟩,  -- SDP_ACCL
   ⟨0x04A0, 1, 25, 0x0, 0x0, 0x0, 0x0⟩,  -- SDP_ACCH
   ⟨0x04C0, 1, 25, 0x0, 0x0, 0x0, 0x0⟩,  -- SDP_ACNT
   ⟨0x04E0, 1, 25, 0x0, 0x0, 0x0, 0x0⟩,  -- SDP_MIN
   ⟨0x0500, 1, 25, 0x0, 0x0, 0x0, 0x0⟩]  -- SDP_MAX

/-- The rows of local addresses 0x0800 to 0x0BFF (R485). -/
def regRows.imp : List RegRow :=
  [
   ⟨0x0800, 1, 1, 0x0, 0x7, 0x0, 0x0⟩,  -- IMP_CTRL
   ⟨0x0801, 1, 1, 0x0, 0x0, 0x0, 0x0⟩,  -- IMP_STAT
   ⟨0x0802, 1, 1, 0xC350, 0x7FFFF, 0x0, 0x0⟩,  -- IMP_GRID
   ⟨0x0803, 1, 1, 0x0, 0xFFFFFF, 0x0, 0x0⟩,  -- IMP_RSHUNT
   ⟨0x0804, 1, 1, 0x1F4, 0xFFFF, 0x0, 0x0⟩,  -- IMP_LIM
   ⟨0x0805, 1, 1, 0x0, 0x0, 0x1FF, 0x0⟩,  -- IMP_EVT
   ⟨0x0806, 1, 1, 0x0, 0x1FF, 0x0, 0x0⟩,  -- IMP_EVT_EN
   ⟨0x0807, 1, 1, 0x0, 0x0, 0x0, 0x0⟩,  -- IMP_RCNT
   ⟨0x0808, 1, 5, 0x0, 0x0, 0xFFFFFFFF, 0x0⟩,  -- IMP_NEW
   ⟨0x0810, 1, 6, 0x1, 0x80FF7FFF, 0x0, 0x0⟩,  -- IMP_TONE
   ⟨0x0818, 1, 6, 0x20001, 0xFF0F0FFF, 0x0, 0x0⟩,  -- IMP_TWIN
   ⟨0x0820, 1, 1, 0x100001, 0x9FF00FFF, 0x0, 0x0⟩,  -- IMP_FB_CTRL
   ⟨0x0821, 1, 1, 0x1, 0x3FF, 0x0, 0x0⟩,  -- IMP_FB_TONE
   ⟨0x0822, 1, 1, 0x0, 0xFFFFF, 0x0, 0x0⟩,  -- IMP_FB_RBAL
   ⟨0x0823, 1, 1, 0x0, 0x0, 0x0, 0x0⟩,  -- IMP_FB_STAT
   ⟨0x0824, 1, 1, 0x0, 0x0, 0x0, 0x0⟩,  -- IMP_FB_ZRE
   ⟨0x0825, 1, 1, 0x0, 0x0, 0x0, 0x0⟩,  -- IMP_FB_ZIM
   ⟨0x0900, 4, 160, 0x0, 0xFEFF001F, 0x0, 0x0⟩,  -- IMP_CTX_CFG
   ⟨0x0901, 4, 160, 0x0, 0x0, 0x0, 0x0⟩,  -- IMP_CTX_STAT
   ⟨0x0902, 4, 160, 0x0, 0x0, 0x0, 0x0⟩,  -- IMP_CTX_ZRE
   ⟨0x0903, 4, 160, 0x0, 0x0, 0x0, 0x0⟩]  -- IMP_CTX_ZIM

/-- The rows of local addresses 0x0C00 to 0x0EFF (R485). -/
def regRows.phcBal : List RegRow :=
  [
   ⟨0x0C00, 1, 1, 0x0, 0x3F01, 0x0, 0x0⟩,  -- PHC_CTRL
   ⟨0x0C01, 1, 1, 0x0, 0x0, 0x0, 0x0⟩,  -- PHC_STAT
   ⟨0x0C02, 1, 1, 0x960, 0x1FFF, 0x0, 0x0⟩,  -- PHC_VSET
   ⟨0x0C03, 1, 1, 0x19, 0x3F, 0x0, 0x0⟩,  -- PHC_FSW
   ⟨0x0C04, 1, 1, 0x0, 0xFF, 0x0, 0x0⟩,  -- PHC_LL
   ⟨0x0C05, 1, 1, 0x23CEF, 0x37FFF, 0x0, 0x0⟩,  -- PHC_COMP
   ⟨0x0C06, 1, 1, 0x100000, 0x3F03FF, 0x0, 0x0⟩,  -- PHC_SLOPE
   ⟨0x0C07, 1, 1, 0x0, 0xFFFF, 0x0, 0x0⟩,  -- PHC_RSENSE
   ⟨0x0C08, 1, 1, 0x3C, 0xFF, 0x0, 0x0⟩,  -- PHC_SCLIM
   ⟨0x0C09, 1, 1, 0x640000, 0x3FFFFFF, 0x0, 0x0⟩,  -- PHC_OLIM
   ⟨0x0C0A, 1, 1, 0x70A, 0x77F, 0x0, 0x0⟩,  -- PHC_SS
   ⟨0x0C0B, 1, 1, 0x1661000, 0xFFF77000, 0x0, 0x0⟩,  -- PHC_SHED
   ⟨0x0C0C, 1, 1, 0x140064, 0xFFFFFFFF, 0x0, 0x0⟩,  -- PHC_SHED_I
   ⟨0x0C0D, 1, 1, 0x40C000, 0x1FFFF00, 0x0, 0x0⟩,  -- PHC_TRIMCFG
   ⟨0x0C0E, 1, 1, 0x2030000, 0x87FFFFFF, 0x0, 0x0⟩,  -- PHC_SHARE
   ⟨0x0C0F, 1, 1, 0x64, 0x3FF, 0x0, 0x0⟩,  -- PHC_SHARE_CFG
   ⟨0x0C10, 1, 6, 0x0, 0xFF, 0x0, 0x0⟩,  -- PHC_TRIM
   ⟨0x0C16, 1, 1, 0x0, 0x0, 0x0, 0x0⟩,  -- PHC_SHARE_STAT
   ⟨0x0C18, 1, 6, 0x0, 0x0, 0x0, 0x0⟩,  -- PHC_IPH
   ⟨0x0C1E, 1, 1, 0x0, 0x0, 0x0, 0x0⟩,  -- PHC_IOUT
   ⟨0x0C1F, 1, 1, 0x0, 0x0, 0x0, 0x0⟩,  -- PHC_VOUT
   ⟨0x0C20, 1, 1, 0x0, 0x0, 0x1FFF, 0x0⟩,  -- PHC_EVT
   ⟨0x0C21, 1, 1, 0x0, 0x1FFF, 0x0, 0x0⟩,  -- PHC_EVT_EN
   ⟨0x0C22, 1, 1, 0x0, 0x0, 0x3F3F, 0x0⟩,  -- PHC_FAIL
   ⟨0x0C23, 1, 1, 0x0, 0x0, 0x7, 0x0⟩,  -- PHC_OVR
   ⟨0x0C24, 1, 1, 0xF00, 0x0, 0x0, 0x0⟩,  -- PHC_FLT
   ⟨0x0C25, 1, 1, 0x0, 0x0, 0x0, 0x0⟩,  -- PHC_FLT_TSL
   ⟨0x0C26, 1, 1, 0x0, 0x0, 0x0, 0x0⟩,  -- PHC_FLT_TSH
   ⟨0x0C27, 1, 1, 0x0, 0x0, 0x0, 0x0⟩,  -- PHC_SCCNT
   ⟨0x0E00, 1, 1, 0xC00, 0x1F03, 0x0, 0x0⟩,  -- BAL_CTRL
   ⟨0x0E01, 1, 1, 0x0, 0xFFFFFF, 0x0, 0x0⟩,  -- BAL_REQ
   ⟨0x0E02, 1, 1, 0x0, 0x0, 0x0, 0x0⟩,  -- BAL_STAT
   ⟨0x0E03, 1, 1, 0x0, 0x0, 0x0, 0x0⟩,  -- BAL_DEF
   ⟨0x0E04, 1, 1, 0x0, 0x0, 0xFFFFFF, 0x0⟩,  -- BAL_DONE
   ⟨0x0E05, 1, 1, 0x0, 0x0, 0xFFFFFF, 0x0⟩,  -- BAL_FAULT
   ⟨0x0E06, 1, 1, 0x0, 0x0, 0x7, 0x0⟩,  -- BAL_EVT
   ⟨0x0E07, 1, 1, 0x0, 0x7, 0x0, 0x0⟩,  -- BAL_EVT_EN
   ⟨0x0E08, 1, 1, 0x0, 0x0, 0x0, 0x0⟩,  -- BAL_SLOTS
   ⟨0x0E20, 1, 24, 0x0, 0xFFFF, 0x0, 0x0⟩]  -- BAL_CNT

/-- The rows of local addresses 0x0F00 to 0x0FFF (R485). -/
def regRows.grd : List RegRow :=
  [
   ⟨0x0F00, 1, 1, 0x0, 0x0, 0x0, 0x0⟩,  -- GRD_STAT
   ⟨0x0F01, 1, 1, 0x0, 0x0, 0x1FFF, 0x0⟩,  -- GRD_FLT
   ⟨0x0F02, 1, 1, 0x0, 0x0, 0x0, 0x0⟩,  -- GRD_FSRC
   ⟨0x0F03, 1, 1, 0x0, 0x0, 0x0, 0x0⟩,  -- GRD_OVC
   ⟨0x0F04, 1, 1, 0x0, 0x0, 0x0, 0x0⟩,  -- GRD_UVC
   ⟨0x0F05, 1, 1, 0x0, 0x0, 0x0, 0x0⟩,  -- GRD_SI
   ⟨0x0F06, 1, 1, 0x0, 0x0, 0x0, 0x0⟩,  -- GRD_LOOP
   ⟨0x0F07, 1, 1, 0x0, 0x0, 0x0, 0x0⟩,  -- GRD_WD
   ⟨0x0F08, 1, 1, 0x0, 0x0, 0xFFF, 0x0⟩,  -- GRD_EVT
   ⟨0x0F09, 1, 1, 0x0, 0xFFF, 0x0, 0x0⟩,  -- GRD_EVT_EN
   ⟨0x0F0A, 1, 1, 0x0, 0x0, 0x0, 0x0⟩,  -- GRD_PCRC
   ⟨0x0F0B, 1, 1, 0x0, 0xFFFFFFFF, 0x0, 0x0⟩,  -- GRD_COMMIT
   ⟨0x0F0C, 1, 1, 0x0, 0x0, 0x0, 0x0⟩,  -- GRD_UNLK
   ⟨0x0F0D, 1, 1, 0x0, 0x0, 0x0, 0x0⟩,  -- GRD_FLT_TSL
   ⟨0x0F0E, 1, 1, 0x0, 0x0, 0x0, 0x0⟩,  -- GRD_FLT_TSH
   ⟨0x0F40, 1, 64, 0x0, 0x0, 0x0, 0x0⟩]  -- GRD_P

/-- The rows of local addresses 0x1000 to 0x13FF (R485). -/
def regRows.chn : List RegRow :=
  [
   ⟨0x1000, 16, 2, 0x2, 0x3, 0x0, 0x0⟩,  -- CHN_P_CTRL
   ⟨0x1001, 16, 2, 0x0, 0x0, 0x0, 0x0⟩,  -- CHN_P_STAT
   ⟨0x1002, 16, 2, 0x0, 0x0, 0x0, 0x0⟩,  -- CHN_P_CNT
   ⟨0x1003, 16, 2, 0x80F0000, 0x8F0F0F00, 0x0, 0x0⟩,  -- CHN_P_EQ
   ⟨0x1004, 16, 2, 0x0, 0x0, 0x3FF, 0x0⟩,  -- CHN_P_EVT
   ⟨0x1005, 16, 2, 0x0, 0x3FF, 0x0, 0x0⟩,  -- CHN_P_EVT_EN
   ⟨0x1006, 16, 2, 0x0, 0x0, 0x0, 0x0⟩,  -- CHN_P_ERR
   ⟨0x1007, 16, 2, 0x0, 0x0, 0x0, 0x0⟩,  -- CHN_P_GAP
   ⟨0x1008, 16, 2, 0x0, 0x0, 0x0, 0x0⟩,  -- CHN_P_RTX
   ⟨0x1009, 16, 2, 0x0, 0x0, 0x0, 0x0⟩,  -- CHN_P_DISC
   ⟨0x100A, 16, 2, 0x0, 0x0, 0x0, 0x0⟩,  -- CHN_P_FRX
   ⟨0x100B, 16, 2, 0x0, 0x0, 0x0, 0x0⟩,  -- CHN_P_FTX
   ⟨0x100C, 16, 2, 0x0, 0x0, 0x0, 0x0⟩,  -- CHN_P_PEERH
   ⟨0x100D, 16, 2, 0x0, 0x0, 0x0, 0x0⟩,  -- CHN_P_PEERL
   ⟨0x1020, 1, 1, 0x8, 0x9, 0x0, 0x0⟩,  -- CHN_NET_CTRL
   ⟨0x1021, 1, 1, 0x0, 0x0, 0x0, 0x0⟩,  -- CHN_NET_STAT
   ⟨0x1022, 1, 1, 0x0, 0x0, 0x1FFFF, 0x0⟩,  -- CHN_NET_EVT
   ⟨0x1023, 1, 1, 0x0, 0x3FFFF, 0x0, 0x0⟩,  -- CHN_NET_EVT_EN
   ⟨0x1024, 1, 1, 0x301, 0x7FF, 0x0, 0x0⟩,  -- CHN_NET_CFG
   ⟨0x1025, 1, 1, 0x0, 0x0, 0x0, 0x0⟩,  -- CHN_NET_CNT
   ⟨0x1026, 1, 1, 0x0, 0x0, 0x0, 0x0⟩,  -- CHN_TIME_STAT
   ⟨0x1027, 1, 1, 0x0, 0x0, 0x0, 0x0⟩,  -- CHN_TIME_DLY
   ⟨0x1028, 1, 1, 0x0, 0x0, 0x0, 0x0⟩,  -- CHN_TIME_FREQ
   ⟨0x1029, 1, 1, 0x0, 0x0, 0x0, 0x0⟩,  -- CHN_EPOCH_BL
   ⟨0x102A, 1, 1, 0x0, 0x0, 0x0, 0x0⟩,  -- CHN_EPOCH_BH
   ⟨0x102B, 1, 1, 0x0, 0xFFFFFFFF, 0x0, 0x0⟩,  -- CHN_EPOCH_NBL
   ⟨0x102C, 1, 1, 0x0, 0xFFFFFFFF, 0x0, 0x0⟩,  -- CHN_EPOCH_NBH
   ⟨0x102D, 1, 1, 0x0, 0xFFFFFFFF, 0x0, 0x0⟩,  -- CHN_EPOCH_ACTL
   ⟨0x102E, 1, 1, 0x0, 0xFFFFFFFF, 0x0, 0x0⟩,  -- CHN_EPOCH_ACTH
   ⟨0x102F, 1, 1, 0x0, 0x1, 0x0, 0x0⟩,  -- CHN_HOST_CFG
   ⟨0x1030, 1, 1, 0x0, 0x0, 0x0, 0x0⟩,  -- CHN_HOST_STAT
   ⟨0x1031, 1, 1, 0x0, 0x3FFFF, 0x0, 0x0⟩,  -- CHN_HOST_IRQEN
   ⟨0x1032, 1, 1, 0x0, 0x0, 0x0, 0x0⟩,  -- CHN_HOST_CNT
   ⟨0x1033, 1, 1, 0x0, 0xFFC00000, 0x0, 0x0⟩,  -- CHN_MIR_BASE
   ⟨0x1034, 1, 1, 0x0, 0x0, 0x0, 0x0⟩,  -- CHN_HEAD_UNK
   ⟨0x1036, 1, 1, 0x0, 0x0, 0x0, 0x0⟩,  -- CHN_LOSTL
   ⟨0x1037, 1, 1, 0x0, 0x0, 0x0, 0x0⟩,  -- CHN_LOSTH
   ⟨0x1038, 1, 1, 0x0, 0x0, 0x0, 0x0⟩,  -- CHN_ASGL
   ⟨0x1039, 1, 1, 0x0, 0x0, 0x0, 0x0⟩,  -- CHN_ASGH
   ⟨0x1040, 1, 16, 0xFFFFFFFF, 0x0, 0x0, 0x0⟩,  -- CHN_POS
   ⟨0x1050, 2, 16, 0x10000, 0x803F3FFF, 0x0, 0x0⟩,  -- CHN_MIR_A
   ⟨0x1051, 2, 16, 0x64, 0xFFFF, 0x0, 0x0⟩,  -- CHN_MIR_P
   ⟨0x1100, 2, 64, 0x0, 0xFFFFFFFF, 0x0, 0x0⟩,  -- CHN_BIND_H
   ⟨0x1101, 2, 64, 0x0, 0xFFFFFFFF, 0x0, 0x0⟩,  -- CHN_BIND_L
   ⟨0x1180, 2, 64, 0x0, 0x0, 0x0, 0x0⟩,  -- CHN_SLOTF_H
   ⟨0x1181, 2, 64, 0x0, 0x0, 0x0, 0x0⟩]  -- CHN_SLOTF_L

/-- The rows of local addresses 0x1400 to 0x1FFF (R485). -/
def regRows.stb : List RegRow :=
  [
   ⟨0x1400, 2, 1536, 0x0, 0x8F000000, 0x0, 0x0⟩,  -- STB_CFG
   ⟨0x1401, 2, 1536, 0x0, 0x0, 0x0, 0x0⟩]  -- STB_STAT

/-- The rows of local addresses 0x2000 to 0x20FF (R485). -/
def regRows.sat : List RegRow :=
  [
   ⟨0x2000, 1, 1, 0x4, 0x7, 0x0, 0x0⟩,  -- SAT_CTRL
   ⟨0x2001, 1, 1, 0x0, 0x0, 0x0, 0x0⟩,  -- SAT_STAT
   ⟨0x2002, 1, 1, 0x3320A064, 0xFF3FFFFF, 0x0, 0x0⟩,  -- SAT_CFG
   ⟨0x2003, 1, 1, 0x0, 0x0, 0x7FF, 0x0⟩,  -- SAT_EVT
   ⟨0x2004, 1, 1, 0x0, 0x7FF, 0x0, 0x0⟩,  -- SAT_EVT_EN
   ⟨0x2005, 1, 1, 0x0, 0x7FFF0F0F, 0x0, 0x0⟩,  -- SAT_XCTL
   ⟨0x2006, 1, 1, 0x0, 0x0, 0x0, 0x0⟩,  -- SAT_XSTAT
   ⟨0x2008, 1, 4, 0x0, 0xFFFFFFFF, 0x0, 0x0⟩,  -- SAT_XDAT
   ⟨0x200C, 1, 1, 0x0, 0x0, 0x0, 0x0⟩,  -- SAT_CNT
   ⟨0x200D, 1, 1, 0x0, 0x0, 0xFFFFFFFF, 0x0⟩,  -- SAT_VALID
   ⟨0x200E, 1, 1, 0x0, 0x0, 0xFFFFFFFF, 0x0⟩,  -- SAT_ATTN
   ⟨0x200F, 1, 1, 0x0, 0x0, 0xFFFFFFFF, 0x0⟩,  -- SAT_LOSTP
   ⟨0x2040, 2, 32, 0x0, 0x0, 0x0, 0x0⟩,  -- SAT_POD_H
   ⟨0x2041, 2, 32, 0x0, 0x0, 0x0, 0x0⟩,  -- SAT_POD_L
   ⟨0x2080, 1, 32, 0x0, 0x0, 0x0, 0x0⟩,  -- SAT_RD
   ⟨0x20A0, 1, 32, 0x0, 0x0, 0x0, 0x0⟩]  -- SAT_RS

/-- The rows of local addresses 0x2100 to 0x21FF (R485). -/
def regRows.ink : List RegRow :=
  [
   ⟨0x2100, 1, 1, 0x0, 0x1, 0x0, 0x4⟩,  -- INK_CTRL
   ⟨0x2101, 1, 1, 0x0, 0x0, 0x0, 0x0⟩,  -- INK_STAT
   ⟨0x2102, 1, 1, 0x0, 0x3FFF, 0x0, 0x0⟩,  -- INK_ENTRY
   ⟨0x2103, 1, 1, 0x0, 0x0, 0x0, 0x0⟩,  -- INK_FLT
   ⟨0x2104, 1, 1, 0x0, 0x0, 0x0, 0x0⟩,  -- INK_FLT_TSL
   ⟨0x2105, 1, 1, 0x0, 0x0, 0x0, 0x0⟩,  -- INK_FLT_TSH
   ⟨0x2106, 1, 1, 0x0, 0x0, 0x0, 0x0⟩,  -- INK_EPEND
   ⟨0x2107, 1, 1, 0x0, 0x0, 0xFFF1F, 0x0⟩,  -- INK_EVT
   ⟨0x2108, 1, 1, 0x0, 0x0, 0x0, 0x0⟩,  -- INK_SWSET
   ⟨0x2109, 1, 1, 0x0, 0x0, 0x0, 0x0⟩,  -- INK_XCPL
   ⟨0x210A, 1, 1, 0x0, 0x0, 0x0, 0x0⟩,  -- INK_XSTAT
   ⟨0x210B, 1, 1, 0x0, 0x1, 0x0, 0x0⟩,  -- INK_SAFE
   ⟨0x210C, 1, 1, 0x0, 0x0, 0x0, 0x0⟩,  -- INK_WDC
   ⟨0x210D, 1, 1, 0x0, 0x0, 0xFFFFFFFF, 0x0⟩,  -- INK_SLATL
   ⟨0x210E, 1, 1, 0x0, 0x0, 0xFFFFFFFF, 0x0⟩,  -- INK_SLATH
   ⟨0x210F, 1, 1, 0x0, 0x0, 0x8000000F, 0x0⟩,  -- INK_SLATG
   ⟨0x2110, 1, 1, 0x0, 0x0, 0x0, 0x0⟩,  -- INK_ECC
   ⟨0x2111, 1, 1, 0x0, 0x0, 0x0, 0x0⟩,  -- INK_MBXA
   ⟨0x2114, 1, 4, 0x3E8, 0xC0FFFFFF, 0x0, 0x0⟩]  -- INK_TMR

/-- The rows of local addresses 0x2200 to 0x23FF (R485). -/
def regRows.sto : List RegRow :=
  [
   ⟨0x2200, 1, 1, 0x0, 0x0, 0x1EF, 0x0⟩,  -- STO_EVT
   ⟨0x2201, 1, 1, 0x0, 0x1FF, 0x0, 0x0⟩,  -- STO_EVT_EN
   ⟨0x2202, 1, 1, 0x0, 0x0, 0x0, 0x0⟩,  -- STO_ECC
   ⟨0x2203, 1, 1, 0x0, 0x0, 0x0, 0x0⟩,  -- STO_ECC_ADDR
   ⟨0x2210, 1, 1, 0x8, 0xF, 0x0, 0x0⟩,  -- STO_CEL_CTRL
   ⟨0x2211, 1, 1, 0x0, 0x0, 0x0, 0x0⟩,  -- STO_CEL_STAT
   ⟨0x2212, 1, 1, 0x0, 0x0, 0x0, 0x0⟩,  -- STO_CEL_ECC
   ⟨0x2213, 1, 1, 0x0, 0x0, 0x0, 0x0⟩,  -- STO_CEL_ADDR
   ⟨0x2214, 1, 1, 0x0, 0x0, 0xFFFFFFFF, 0x0⟩,  -- STO_RING_EVT
   ⟨0x2215, 1, 1, 0x0, 0xFFFFFFFF, 0x0, 0x0⟩,  -- STO_RING_EVT_EN
   ⟨0x2220, 1, 1, 0x8000000, 0x0, 0x0, 0x0⟩,  -- STO_LDG_STAT
   ⟨0x2221, 1, 1, 0xFFFFFFFF, 0x0, 0x0, 0x0⟩,  -- STO_LDG_NEW
   ⟨0x2222, 1, 1, 0xFF000000, 0x0, 0x0, 0x0⟩,  -- STO_LDG_LOG
   ⟨0x2223, 1, 1, 0x0, 0x3FFC, 0x0, 0x0⟩,  -- STO_LDG_RA
   ⟨0x2224, 1, 1, 0xFFFFFFFF, 0x0, 0x0, 0x0⟩,  -- STO_LDG_RD
   ⟨0x2230, 8, 4, 0x0, 0x3, 0x0, 0x0⟩,  -- STO_CRC_CFG
   ⟨0x2231, 8, 4, 0x0, 0x0, 0x0, 0x0⟩,  -- STO_CRC_DATA
   ⟨0x2232, 8, 4, 0x0, 0x0, 0x0, 0x0⟩,  -- STO_CRC_DATAB
   ⟨0x2233, 8, 4, 0x0, 0x0, 0x0, 0x0⟩,  -- STO_CRC_RES
   ⟨0x2234, 8, 4, 0x0, 0xFFFFFFFF, 0x0, 0x0⟩,  -- STO_CRC_STATE
   ⟨0x2280, 8, 16, 0x0, 0xCF000000, 0x0, 0x0⟩,  -- STO_RING_CFG
   ⟨0x2281, 8, 16, 0x0, 0xFFFFF000, 0x0, 0x0⟩,  -- STO_RING_BASE
   ⟨0x2282, 8, 16, 0x0, 0x7FFF, 0x0, 0x0⟩,  -- STO_RING_SIZE
   ⟨0x2283, 8, 16, 0x0, 0x0, 0x0, 0x0⟩,  -- STO_RING_WR
   ⟨0x2284, 8, 16, 0x0, 0x3FFFFFF, 0x0, 0x0⟩,  -- STO_RING_RD
   ⟨0x2285, 8, 16, 0x0, 0x0, 0x0, 0x0⟩,  -- STO_RING_OLD
   ⟨0x2286, 8, 16, 0x0, 0x0, 0x0, 0x0⟩,  -- STO_RING_LOSS
   ⟨0x23F0, 1, 1, 0x1100, 0x0, 0x0, 0x0⟩,  -- STO_BOOT_STAT
   ⟨0x23F1, 1, 1, 0x0, 0x0, 0x0, 0x0⟩,  -- STO_BOOT_VER
   ⟨0x23F2, 1, 1, 0xFFFF, 0x0, 0x0, 0x0⟩,  -- STO_BOOT_INIT
   ⟨0x23F3, 1, 1, 0x0, 0x0, 0x0, 0x0⟩,  -- STO_BOOT_TIME
   ⟨0x23F4, 1, 1, 0x0, 0x0, 0x6, 0x0⟩]  -- STO_LDR_STAT

/-- The rows of the block that decodes `a` (R485: each block decodes only its own range). -/
def regRows (a : Nat) : List RegRow :=
  if Nat.blt a 0x0200 then regRows.ptrThmTru
  else if Nat.blt a 0x0400 then regRows.meas
  else if Nat.blt a 0x0800 then regRows.sdp
  else if Nat.blt a 0x0C00 then regRows.imp
  else if Nat.blt a 0x0F00 then regRows.phcBal
  else if Nat.blt a 0x1000 then regRows.grd
  else if Nat.blt a 0x1400 then regRows.chn
  else if Nat.blt a 0x2000 then regRows.stb
  else if Nat.blt a 0x2100 then regRows.sat
  else if Nat.blt a 0x2200 then regRows.ink
  else if Nat.blt a 0x2400 then regRows.sto
  else []

/-- The endpoint map's row for address `a`, or none where the address is reserved (R486) or lies in the mailbox. -/
def regRow (a : Nat) : Option RegRow := (regRows a).find? (fun r => r.covers a)

/-- The value of the register at `a` after power-on reset (R8, R491); 0 where no register stands.
(DESIGN CHOICE, log entry 1.) -/
def Reg.reset (a : Nat) : Word :=
  match regRow a with
  | some r => BitVec.ofNat 32 r.reset
  | none => 0

/-- The mailbox window 0x3000 to 0x3FFF (R309). -/
def isMailbox (a : Nat) : Bool := Nat.ble 0x3000 a && Nat.ble a 0x3FFF

/-- A reserved local address (R486): beyond 0x3FFF, or no register and not in the mailbox. -/
def isReserved (a : Nat) : Bool := !(isMailbox a || (regRow a).isSome)

end Sys2Proof.Machine
end

