-- ==== Sys2Proof/Machine/State.lean ====
section
/-! DEFINITION. The state of the MWE2406: the endpoint file, and per block what the spec gives the part beside its
endpoints (sequencers, queues, memories, timers, pins). Plain data. -/

namespace Sys2Proof.Machine

/-- Reasons for a fault. No command of this block stops with one: every row of the table has an effect on every state.
(DEDUCED, log entry 74.) -/
inductive Fault where
  /-- Raised by no command. Safe. -/
  | none
  deriving DecidableEq, Repr

/-- Reasons for a refusal.
(DEDUCED, log entry 74.) -/
inductive Refusal where
  /-- Raised by the dispatcher's arm of a command that has no meaning yet. Safe. -/
  | notModelled (mnemonic : String)
  deriving DecidableEq, Repr

/-- The device states, in the order of their codes (R399). -/
inductive DevState where
  | off | dormant | standby | start | run | recover | test | halt
  deriving DecidableEq, Repr, Inhabited

/-- The code of a device state in PTR_STAT.STATE (R399). -/
def DevState.code : DevState → Nat
  | .off => 0 | .dormant => 1 | .standby => 2 | .start => 3
  | .run => 4 | .recover => 5 | .test => 6 | .halt => 7

/-! ### Porter (spec/14_porter_and_power.md) -/

/-- What a shut-down in progress is doing (R405): draining the Ledger, running last orders, waiting for its record, or
waiting for what was queued after step 4 to be written (R393). -/
inductive HaltStep where
  | none | drain | lastOrders | record | final
  deriving DecidableEq, Repr, Inhabited

/-- The Porter's state beside its registers. -/
structure PtrSt where
  /-- The device state (R399). -/
  dev : DevState
  /-- The state before the last change (R418, DATA2). -/
  prev : DevState
  /-- Bit d: domain Dd is on (R13). -/
  dom : BitVec 10
  /-- TIME (R419). -/
  time : Time
  /-- KCLK edges since the last of the groups of eight (R419). -/
  kedge : BitVec 3
  /-- The holding registers of PTR_TIMEH, one per path (R421). -/
  holdInk : Word
  holdChain : Word
  holdHost : Word
  /-- VSUP is at least 6.0 V (R410). -/
  vsup : Bool
  /-- NRST is low (R416). -/
  nrstLow : Bool
  /-- PTR_REQ.TO and PTR_REQ.LO of the HALT request in progress (R405). -/
  haltTo : Bool
  haltLo : Bool
  haltStep : HaltStep
  /-- The sources of a wake held during HALT (R407). -/
  wakeHeld : Option (BitVec 6)
  /-- The keeper RC's trim, once it has been updated; the OTP's before (R198). -/
  ktrim : Option Nat
  /-- DORMANT was entered on VSTK undervoltage (R412). -/
  uvWake : Bool
  /-- DORMANT was entered on the Porter hard limit, and the sensor has not read below 135 °C since (R201, R415). -/
  hardHold : Bool
  /-- The detectors of R215 have reported a wake that has not been sampled yet: North in bit 0, South in bit 1 (R413). -/
  tones : BitVec 2
  /-- The last VSTK window check found VSTK outside the window (R413, R414). -/
  windowOut : Bool
  /-- Consecutive KCLK samples that found WAKE high since the entry to HALT, DORMANT or STANDBY (R413). -/
  wakeHigh : Nat
  /-- The last state change that others may have met, as its row of R404, and TIME then. -/
  won : Option (Nat × Time)
  /-- Automatic RECOVER causes that lost under R404 and wait for RUN: the Innkeeper's halt, and a Guard fault. -/
  owedInk : Bool
  owedGrd : Bool
  deriving DecidableEq, Repr, Inhabited

/-! ### Store (spec/13_store.md) -/

/-- What the Ledger writer is writing: a queued record of a type, or a carry-forward copy of a position (R389, R392). -/
inductive LedItem where
  | record (typ : Nat)
  | copy (pos : Nat)
  deriving DecidableEq, Repr, Inhabited

/-- A Ledger record being written: the item, its 64 words, the position it is written to and the attempt, 0 or 1 (R391). -/
structure LedWrite where
  item : LedItem
  words : List Word
  pos : Nat
  attempt : Nat
  deriving DecidableEq, Repr, Inhabited

/-- The Ledger (R385 to R395). -/
structure LedSt where
  /-- The 16 KiB of flash; an unlisted byte reads 0xFF. -/
  flash : List Host.Cell
  /-- The positions an abandoned erase has left open, each with what it held before: until it is written or erased it may
read differently at every scan (R391). -/
  unsure : List (Nat × List Word)
  /-- The queued records: words 1 to 62 of each (R389). -/
  q31 : Option (List Word)
  q21 : Option (List Word)
  q11 : Option (List Word)
  /-- The queued event-log records, oldest first, each a list of entries of eight words. -/
  q41 : List (List (List Word))
  writing : Option LedWrite
  /-- Records and copies whose first attempt failed its verify and that wait for their second (R391). -/
  retry : List LedItem
  /-- The sector being erased. -/
  erasing : Option Nat
  /-- Bit s: sector s was erased since the last scan (R391). -/
  erased : BitVec 4
  /-- The source positions of the carry-forward copies still to be made, once they are due (R392). -/
  carry : Option (List Nat)
  deriving DecidableEq, Repr, Inhabited

/-- A stream block in the Cellar stream staging (R257, R374): its stream-table entry, its ring, the words of its record, and
the LOST field of its header. -/
structure StagedBlock where
  entry : Nat
  ring : Nat
  words : List Word
  lost : Nat
  deriving DecidableEq, Repr, Inhabited

/-- The Cellar and the rings (R376 to R384). -/
structure CelSt where
  /-- The data bytes of the Cellar; an unlisted byte reads 0. -/
  mem : List Host.Cell
  /-- The byte address of the background scrub (R378). -/
  scrub : Nat
  /-- Refresh windows opened (R379). -/
  refreshes : Nat
  /-- Words on their way into the mirror that wait for READY: slot, local address, words (R377). -/
  staged : List (Nat × Nat × List Word)
  /-- Stream blocks on their way into the rings, oldest first (R374, R377). -/
  blocks : List StagedBlock
  deriving DecidableEq, Repr, Inhabited

/-! ### Chain ports, network and head (spec/07_chain_link.md, spec/08_chain_network.md) -/

/-- Where a frame in a transmit room stands: not sent yet, sent and not acknowledged, or due for retransmission. -/
inductive TxStage where
  | new | sent | resend
  deriving DecidableEq, Repr, Inhabited

/-- A frame in a transmit room: its fields, its stage, and the retry expiries since ACK last advanced (R225). -/
structure TxFrame where
  frame : Frame
  stage : TxStage
  expiries : Nat
  deriving DecidableEq, Repr, Inhabited

/-- A frame in a receive room that waits (R222): to be copied into the transmit room of a port, the frame as it will be
sent; or, with no port, as a frame for this device, for the room that takes its content (R21, R22). -/
structure RxFrame where
  frame : Frame
  dest : Option Port
  deriving DecidableEq, Repr, Inhabited

/-- One chain port beside its registers. Lists of four are indexed by class. -/
structure PortSt where
  /-- The silence time after a training failure or a link loss is running (R211). -/
  quiet : Bool
  /-- Training blocks decoded in a row without error (R212). -/
  goodBlocks : Nat
  /-- A valid LNK_HELLO has been received in this ALIGN, one with HEARD = 1 has, one with HEARD = 1 has been sent (R213). -/
  heard : Bool
  peerHeard : Bool
  sentHeard : Bool
  /-- CRDk of the last good frame (R222). -/
  lastCrd : List Nat
  /-- Buffers counted as released, cumulative; the count last sent; and those freed but not yet counted (R222). -/
  released : List Nat
  sentRel : List Nat
  uncounted : List Nat
  /-- The transmit room, in order of entry (R374). -/
  tx : List TxFrame
  /-- Accepted frames still in the receive rooms, in order of arrival (R374). -/
  rx : List RxFrame
  /-- Next SEQ of a new reliable, STREAM and BULK frame (R224, R226). -/
  txSeq : BitVec 8
  txStream : BitVec 8
  txBulk : BitVec 8
  /-- Next SEQ expected of each (R224, R226). -/
  rxSeq : BitVec 8
  rxStream : BitVec 8
  rxBulk : BitVec 8
  /-- Frames discarded in a row (R227). -/
  discards : Nat
  /-- An ACK or CRD value waits to be sent (R220). -/
  ackWaits : Bool
  /-- The last frame sent on the line, and TIME at the last EPOCH marker sent (R247). -/
  line : Option Frame
  epoch : Option Time
  deriving DecidableEq, Repr, Inhabited

/-- Who asked for a chain request: the Innkeeper (XID and data SRAM buffer), the host (HTAG), a mirror range, the
receiver of a bulk transfer. -/
inductive Requester where
  | ink (xid buf : Nat)
  | host (htag : Nat)
  | mirror (n : Nat)
  | nak
  deriving DecidableEq, Repr, Inhabited

/-- A CONTROL request of this device (R252, R254). -/
structure Request where
  who : Requester
  dst : Nat
  typ : Nat
  addr : Nat
  count : Nat
  data : List Word
  /-- Its TAG, once it is outstanding. -/
  tag : Option Nat
  /-- It waits to be sent, for the first time or again. -/
  due : Bool
  /-- Resends so far. -/
  tries : Nat
  deriving DecidableEq, Repr, Inhabited

/-- A completed posted host command that waits for RESULT (R261). -/
structure HostResult where
  htag : Nat
  status : Nat
  data : List Word
  deriving DecidableEq, Repr, Inhabited

/-- A response of the host port (R260). -/
structure HostResp where
  status : Nat
  htag : Nat
  data : List Word
  deriving DecidableEq, Repr, Inhabited

/-- A bulk transfer this device sends (R256): destination, XID, region, start, length and next offset. -/
structure BulkOut where
  dst : Nat
  xid : Nat
  region : Nat
  start : Nat
  length : Nat
  offset : Nat
  deriving DecidableEq, Repr, Inhabited

/-- A bulk transfer this device receives (R256): the sender's slot, XID, next expected offset, the data so far, and
whether the last frame has come. -/
structure BulkIn where
  src : Nat
  xid : Nat
  next : Nat
  data : List Byte
  last : Bool
  deriving DecidableEq, Repr, Inhabited

/-- A frame of this device that waits for the transmit room of a port, and whether the host command room holds it (R374). -/
structure OutFrame where
  port : Port
  frame : Frame
  host : Bool
  deriving DecidableEq, Repr, Inhabited

/-- What the head is doing (R238, R240). -/
inductive HeadStep where
  | idle | search | assign | survey | route
  deriving DecidableEq, Repr, Inhabited

/-- The head's search and topology work (R236 to R243). A prefix is the list of its bytes. -/
structure SearchSt where
  step : HeadStep
  /-- Prefixes still to be searched, the next first. -/
  stack : List (List Nat)
  /-- The prefix of the step in progress. -/
  prefixNow : List Nat
  /-- Factory numbers found and not yet assigned, the smallest first. -/
  found : List (List Nat)
  /-- The copies of the step in progress that have not returned, and GEN as they were sent with it. -/
  copies : Nat
  sentGen : Nat
  /-- PRES fields ANDed over the returned copies: 256 bits (R239). -/
  pres : BitVec 256
  /-- The tables returned from the South and from the North port (R238). -/
  tableS : Option (List Byte × Nat)
  tableN : Option (List Byte × Nat)
  /-- A copy of the step came back with DIR = 0: the ring is closed. -/
  ring : Bool
  /-- A search, not only a survey and a route, is being made (R240). -/
  full : Bool
  /-- Search steps that were abandoned: GEN, prefix, and the copies that may still come back (R243). -/
  past : List (Nat × List Nat × Nat)
  /-- A base was scheduled while a set was on its way: another set follows (R250). -/
  again : Bool
  deriving DecidableEq, Repr, Inhabited

/-- The network layer and the head beside their registers. -/
structure NetSt where
  /-- The device is the head: CHN_NET_CTRL.HEAD at the last entry to START (R231, R265). -/
  headNow : Bool
  search : SearchSt
  /-- Frames this device originated that wait for room in a port's transmit room: of the network layer's SAFETY frames
  the newest of each kind, and the broadcasts in the request rooms of the Innkeeper and the host (R374). -/
  outbox : List OutFrame
  /-- CONTROL requests of this device, in order (R254). -/
  requests : List Request
  /-- The next TAG per destination: those used so far. -/
  tags : List (Nat × Nat)
  /-- The last four TAGs accepted from each source, newest first (R254). -/
  seen : List (Nat × List Nat)
  bulkOut : List BulkOut
  bulkIn : List BulkIn
  /-- Consecutive epochs with |e| at most 0.1 tick, and above 0.5 tick (R248). -/
  lockRun : Nat
  unlockRun : Nat
  /-- y_i and y in 1/256 ppb (R247). -/
  yi : Int
  y : Int
  /-- θ of the last exchange, in 1/256 tick, and t2 of its response (R246, R247). -/
  theta : Int
  t2 : Int
  /-- t1 of the LNK_RTT request in flight, and the port it left by, in 1/256 tick. -/
  rttSent : Option (Port × Int)
  /-- The port of the last delay measurement (R244). -/
  rttPort : Option Port
  /-- A scheduled base waits for its activation time (R250). -/
  basePending : Bool
  deriving DecidableEq, Repr, Inhabited

/-- The host port (R259 to R264). -/
structure HostSt where
  /-- The next HTAG (R261). -/
  htag : Nat
  /-- Completed posted commands, oldest first. -/
  results : List HostResult
  /-- The last response sent. -/
  resp : Option HostResp
  /-- An MREAD of the mirror that waits for the Cellar (R377). -/
  waits : Option HostReq
  deriving DecidableEq, Repr, Inhabited

/-! ### Guard (spec/12_guard.md) -/

/-- A filter of the Guard (R345): the last sample of its comparator, and its count. -/
structure GuardFilt where
  last : GuardSample
  n : Nat
  deriving DecidableEq, Repr, Inhabited

/-- The Guard's state beside its registers. -/
structure GrdSt where
  /-- Guard time in GCLK cycles (R339). -/
  cycles : Nat
  /-- The filters of the comparators that have been sampled (R345). -/
  filt : List GuardFilt
  /-- The levels at SIAk (bit 2k) and SIBk (bit 2k + 1), and for how many GCLK cycles each has held (R348). -/
  si : BitVec 8
  held : List Nat
  /-- The discrepancy counters of the four pairs (R351). -/
  disc : List Nat
  /-- Consecutive ticks with both channels of a pair open since its discrepancy fault, up to 21 (R364). -/
  bothOpen : List Nat
  /-- Consecutive ticks with both channels of pair 0 open (R352). -/
  sutRun : Nat
  /-- The challenge register (R357), and the challenge of the open window. -/
  lfsr : BitVec 16
  chal : BitVec 16
  /-- A watchdog window is open, and the responses that WDS has sent and the Guard has not judged yet (R356). -/
  window : Bool
  resp : List (BitVec 16)
  /-- The watchdog has started since the entry to START (R356). -/
  wdOn : Bool
  /-- Guard time of the last write of 0xC011 to GRD_UNLK (R362). -/
  unlockedAt : Option Nat
  /-- COMMIT before the commit write that waits for the Ledger (R362). -/
  commitPrev : Nat
  /-- The conditions found at the last STANDBY check (R370), and whether a check is powered. -/
  found : List GuardCond
  checking : Bool
  /-- A check has found a fault and requests a wake (R370, R413). -/
  wakeReq : Bool
  /-- The event queue to D5 (R17, R374): the fault bits of each event, oldest first, at most eight. -/
  events : List Word
  /-- Consecutive checks that found GCLK within its bounds, up to four (R364). -/
  gclkGood : Nat
  /-- A pin read at another level than expected (R342): the level read. -/
  soaRead : Option Bool
  sobRead : Option Bool
  /-- GST and GRD_OK as last acted on (R366, R367), and whether a GRD_NOTE waits to be offered. -/
  gstWas : BitVec 4
  okWas : Bool
  noteWaits : Bool
  /-- TIME at the last change of GST (R367). -/
  noteAt : Time
  /-- FLO toggles, as last acted on, and how often it has stopped (R353). -/
  floWas : Bool
  floStops : Nat
  deriving DecidableEq, Repr, Inhabited

/-! ### Innkeeper (spec/10_innkeeper.md) -/

/-- INK_STAT.STATE (R293). -/
inductive InkState where
  | notStarted | running | waiting | stopped | halted
  deriving DecidableEq, Repr, Inhabited

/-- The code of INK_STAT.STATE (R293). -/
def InkState.code : InkState → Nat
  | .notStarted => 0 | .running => 1 | .waiting => 2 | .stopped => 3 | .halted => 4

/-- A completion in INK_XCPL (R307, R317). -/
structure Completion where
  xid : Nat
  op : Nat
  status : Nat
  count : Nat
  deriving DecidableEq, Repr, Inhabited

/-- A chain transaction of the Innkeeper that has no completion yet: XID, OP, CNT, and for a broadcast the TAG of its
frame, which has yet to leave. -/
structure XTrans where
  xid : Nat
  op : Nat
  cnt : Nat
  bcast : Option Nat
  deriving DecidableEq, Repr, Inhabited

/-- The Innkeeper beside its registers. -/
structure InkSt where
  state : InkState
  /-- g0 to g15; g0 reads zero (R289). -/
  g : Vector Word 16
  n : Bool
  z : Bool
  c : Bool
  v : Bool
  pc : BitVec 14
  /-- The hardware call stack, top first (R289). -/
  stack : List (BitVec 14)
  /-- Program SRAM and data SRAM, by byte; an unlisted byte reads 0 (R290). -/
  prog : List Host.Cell
  data : List Host.Cell
  /-- Data SRAM words whose stored check bits show an uncorrectable error (R291). -/
  bad : List Nat
  /-- The WFE in progress: destination register and mask (R311). -/
  wfe : Option (BitVec 4 × Word)
  /-- Transactions outstanding, and completions waiting, oldest first (R305, R308). -/
  out : List XTrans
  cpl : List Completion
  deriving DecidableEq, Repr, Inhabited

/-! ### Start-up, serial flash, OTP, keys and test (spec/11_start_and_image.md, spec/15_trust_and_test.md) -/

/-- Where the start sequence of R318 stands. -/
inductive BootStep where
  | none | entry | pll | selfTest | copyA | copyB | loader | done
  deriving DecidableEq, Repr, Inhabited

/-- What the serial flash is doing (R336). -/
inductive FlashOp where
  | erase (a : Nat)
  | program (a : Nat) (ws : List Word)
  deriving DecidableEq, Repr, Inhabited

/-- A command of the part to the serial flash that changes it (R336). -/
inductive FlashCmd where
  | writeEnable
  | op (o : FlashOp)
  deriving DecidableEq, Repr, Inhabited

/-- Start-up, loader and serial flash. -/
structure BootSt where
  step : BootStep
  /-- The serial flash; an unlisted byte reads 0xFF (R323, R328). -/
  flash : List Host.Cell
  flashOp : Option FlashOp
  /-- The commands of the last erase or program as the part sent them to the flash (R336). -/
  flashSent : List FlashCmd
  /-- The D0 sticky mark of last orders, with its stamp (R319, R442). -/
  mark : Option Time
  /-- TIME at W (R320). -/
  wAt : Time
  deriving DecidableEq, Repr, Inhabited

/-- An AES key register (R437): no key programmed, a programmed key that is unusable or cleared, or a key. -/
inductive KeyReg where
  | blank
  | unusable
  | key (k : List Byte)
  deriving DecidableEq, Repr, Inhabited

/-- An OTP burn in progress (R435): a word, or a region's lock fuse. -/
inductive Burn where
  | word (a : Nat) (v : Word)
  | fuse (r : Nat)
  deriving DecidableEq, Repr, Inhabited

/-- OTP, keys, self-test and TEST entry. -/
structure TruSt where
  /-- The normal readings of the 1,024 words of 39 bits, bit i at codeword position i; an unlisted word reads 0 (R423). -/
  otp : List (Nat × BitVec 39)
  /-- The weak bits of each word (R432). -/
  weak : List (Nat × BitVec 39)
  /-- Bit r: the lock fuse of region r is blown (R430). -/
  fuses : BitVec 16
  /-- The shadow (R431), and per word whether it was corrected (bit 31), weak (bit 30) or uncorrectable (bit 29). -/
  shadow : List (Nat × Word)
  marks : List (Nat × Word)
  /-- TRU_OTP_ADDR of each path (R431). -/
  addrInk : BitVec 10
  addrChain : BitVec 10
  addrHost : BitVec 10
  imgKey : KeyReg
  hostKey : KeyReg
  burn : Option Burn
  /-- Levels of the TST and VPP pins as last seen. -/
  tst : Bool
  vpp : Bool
  /-- The self-test item that runs next, 1 to 6, 0 when none does; RUN and FAIL so far, and the detail words (R441). -/
  item : Nat
  run : BitVec 6
  fail : BitVec 6
  detail : List Word
  /-- Words re-burned so far at this START (R432, R433). -/
  reburns : Nat
  /-- PTR_RST when the HALT request was accepted (R442). -/
  rstAtHalt : Word
  /-- TIME of the last-orders record requested (R442). -/
  recAt : Time
  deriving DecidableEq, Repr, Inhabited

/-! ### Measurement array (spec/02_measurement_array.md) -/

/-- A raw sample's tag (R38) without its code, its channel, and whether the channel is fed by it (R63). -/
structure RawTag where
  ch : Nat
  live : Bool
  conv : Nat
  time : Time
  refcold : Bool
  bal : Bool
  unsync : Bool
  openw : Bool
  deriving DecidableEq, Repr, Inhabited

/-- Self-calibration (R51, R52): none, held, waiting for an injected HK conversion, offset phase, gain phase. -/
inductive CalStep where
  | none | held | hkWait | offset | gain
  deriving DecidableEq, Repr, Inhabited

/-- HK calibration (R54): none, waiting for an injected conversion, running. -/
inductive HkCalStep where
  | none | wait | run
  deriving DecidableEq, Repr, Inhabited

/-- What the Traveller is doing (R62, R68 to R70). -/
inductive TrvStep where
  | idle | takeover | hold | pinned | handback | secondCal | secondHandback | offset | parked | release | fault
  deriving DecidableEq, Repr, Inhabited

/-- The open-wire test (R78): none, before the sinks, sinks on, after the sinks. -/
inductive OwStep where
  | none | before | sinks | after
  deriving DecidableEq, Repr, Inhabited

/-- The open-wire test's state. Sixteen-trigger histories hold, per cell, the raw codes of the last triggers, newest
first, none where a trigger delivered no sample. -/
structure OwSt where
  step : OwStep
  /-- Second pass, and the pins of this pass. -/
  odd : Bool
  pins : BitVec 25
  /-- The pins the test began with. -/
  sel : BitVec 25
  /-- Histories when the sinks turned on and off, and whether the newest conversion is still to come in. -/
  ref : List (List (Option Nat))
  test : List (List (Option Nat))
  refLive : Bool
  testLive : Bool
  /-- Pins found open so far, and pins that could not be judged. -/
  opens : BitVec 25
  unjudged : BitVec 25
  /-- Pins whose cells carry OPENW (R80). -/
  tagged : BitVec 25
  /-- MEAS_OW_CFG.THR as the test began with it (R19, R79). -/
  thr : Nat
  deriving DecidableEq, Repr, Inhabited

/-- The Traveller's state. -/
structure TrvSt where
  step : TrvStep
  /-- The converter it relieves. -/
  k : Nat
  /-- MEAS_TRV_CTRL as the step in progress began with it. -/
  ctrl : Word
  /-- MEAS_TRV_TOL.TOL as it began with it (R19, R60). -/
  tol : Nat
  /-- Factors of Ck before the step, as register words (R69). -/
  savedGain : Word
  savedOff : Word
  /-- The instant from which the overlap in progress is counted (R62). -/
  start : Time
  /-- Overlap pairs taken, and the sum of V_CT − V_Ck over them in 1/2^20 µV (R64). -/
  pairs : Nat
  sum : Int
  /-- The values of the current trigger's pair that are already in: V_CT and V_Ck. -/
  vct : Option Int
  vck : Option Int
  /-- A takeover whose enable bit was cleared before the check: CT disconnects at the next trigger (R49). -/
  released : Bool
  /-- A release of a park is wanted and waits for its first trigger (R70). -/
  releaseWaits : Bool
  /-- The next converter of the rotation; the part starts anew at FIRST where none. -/
  next : Option Nat
  deriving DecidableEq, Repr, Inhabited

/-- The measurement array beside its registers. -/
structure MeasSt where
  /-- MEAS_TRIG and the base in use at the last trigger (R39, R42, R43). -/
  trigUse : Word
  baseUse : Time
  lastTrig : Option Time
  /-- The trigger runs without alignment to the head (R42). -/
  unaligned : Bool
  /-- Conversions in progress by converter: 0 to 23 cells, 24 CI, 25 CT. -/
  conv : List (Option RawTag)
  /-- The reference settling timer runs (R44). -/
  settling : Bool
  cal : CalStep
  hkCal : HkCalStep
  /-- The injected request that waits, and the one in progress (R74, R75). -/
  injWait : Option Nat
  injRun : Option Nat
  /-- Channels of the round still to be converted, that in progress first; none while no round runs (R73). -/
  round : Option (List Nat)
  /-- The next round was due while this one ran (R73). -/
  roundDue : Bool
  /-- HK_EN was cleared while an entry was converting (R76). -/
  roundEnds : Bool
  /-- Triggers in a row of the HK entry in progress at which REF_OK was 1, up to 16 (R45, R72). -/
  hkWarm : Nat
  snapArmed : Bool
  /-- The captured trigger's conversions that are still to come in, by converter (R82). -/
  snapLeft : BitVec 26
  /-- Raw codes of the last sixteen triggers per cell, newest first (R78). -/
  hist : List (List (Option Nat))
  /-- The triggers at which the channel that CT produces changed, newest first, each with that channel, 31 for none
(R99). -/
  held : List (Time × Nat)
  /-- A self-calibration was ended by a domain switched off, and the HK scan waits for both domains (R51). -/
  calCut : Bool
  deriving DecidableEq, Repr, Inhabited

/-! ### Sample datapath (spec/03_sample_datapath.md) -/

/-- A corrected sample (R84): its trigger's TIME, its value in 1/16 µV, its tags, and whether a residue mismatch cleared
the channel's filter at it (R103). -/
structure Sample where
  time : Time
  val : Int
  conv : Nat
  refcold : Bool
  bal : Bool
  unsync : Bool
  openw : Bool
  bad : Bool
  deriving DecidableEq, Repr, Inhabited

/-- A filter run of a channel (R89): the trigger TIME of its first raw sample, the grid's base and phase in ticks, and the
corrected samples the filter still needs, newest first. -/
structure Run where
  t0 : Time
  origin : Nat
  samples : List Sample
  deriving DecidableEq, Repr, Inhabited

/-- One SDP channel. -/
structure ChanSt where
  /-- The run since the filter's last start; none while it waits for its first raw sample (R89). -/
  run : Option Run
  /-- Ended runs an output of which may still be unwritten, newest first (R88, R89). -/
  old : List Run
  /-- The channel waits for its first output since a start (R89). -/
  filling : Bool
  /-- SDP_RESn has been read since its last write; written since entry to RUN or since EN or the channel was set (R93);
written since entry to RUN (R94). -/
  read : Bool
  written : Bool
  shown : Bool
  /-- The live accumulator and trackers (R95). -/
  sum : Int
  count : Nat
  least : Int
  most : Int
  deriving DecidableEq, Repr, Inhabited

/-- An output of a channel (R90, R92). -/
structure OutSample where
  ch : Nat
  /-- Signed µV; none for an invalid output. -/
  val : Option Int
  conv : Nat
  refcold : Bool
  bal : Bool
  unsync : Bool
  openw : Bool
  deriving DecidableEq, Repr, Inhabited

/-- An output set (R88). -/
structure OutSet where
  ts : Time
  outs : List OutSample
  /-- Channel held by the Traveller, 31 when none (R99). -/
  trvCh : Nat
  deriving DecidableEq, Repr, Inhabited

/-- One of the 24 stream slots (R97 to R102, R136 to R139). -/
structure StreamSt where
  /-- Sets held for the next block, oldest first. -/
  held : List OutSet
  /-- Impedance records held, each a list of words, and the LOST count since the last block. -/
  records : List (List Word)
  /-- IMP_GRID.L at the first of the held records (R138). -/
  recL : Nat
  /-- The next block is the first since the stream opened. -/
  first : Bool
  lost : Nat
  /-- TS of the last delivered set, or W of the last delivered record, since opening (R102), and the last output instant
counted. -/
  lastTs : Option Time
  lastInstant : Option Time
  deriving DecidableEq, Repr, Inhabited

/-- The sample datapath and the stream engine beside their registers. -/
structure SdpSt where
  ch : List ChanSt
  streams : List StreamSt
  /-- The stream engine's output room: STREAM frames waiting for the chain (R374). -/
  out : List Frame
  /-- TS of the last set written to the result registers or the accumulators, and the last output instant that came up,
with a set or without one. -/
  lastSet : Time
  lastInst : Time
  /-- A set has been written since entry to RUN or since EN was set (R94). -/
  setValid : Bool
  deriving DecidableEq, Repr, Inhabited

/-! ### Impedance engine (spec/04_impedance_engine.md) -/

/-- What has been seen of the samples and the phase controller in a window (R122). -/
structure WinFlags where
  dist : Bool
  bal : Bool
  refcold : Bool
  openw : Bool
  unsync : Bool
  /-- A residue mismatch on an input (R124). -/
  residue : Bool
  deriving DecidableEq, Repr, Inhabited

/-- A tone: the settling fundamental periods left before its first window, and the whole periods of the running window
(R119); neither while it waits for the start of its excitation. `gone` holds from the loss of a condition of R112 to the
trigger at which the tone's contribution is removed. -/
structure ToneSt where
  left : Option Nat
  run : Option Nat
  gone : Bool
  deriving DecidableEq, Repr, Inhabited

/-- The demodulation over a window (R120): its start; L, H, PH and IMIN as it began with them; the sums of x(k) cos θ(k), of
−x(k) sin θ(k) and of x(k), in 1/16 µV times the decimator's gain of 400, the first two in 1/2^60; the IMP-path samples
taken. -/
structure Demod where
  start : Time
  l : Nat
  h : Nat
  ph : Nat
  imin : Nat
  re : Int
  im : Int
  sum : Int
  got : Nat
  deriving DecidableEq, Repr, Inhabited

/-- A window that has ended and whose result is still to be written: its end W, its whole periods, the configuration it
ran under, what was seen in it, its demodulation. -/
structure WinReady where
  w : Time
  periods : Nat
  cfg : Word
  seen : WinFlags
  acc : Demod
  deriving DecidableEq, Repr, Inhabited

/-- A reference phasor as its sums gave it, the cause its result was written with, and whether it was below IMIN, by its
window's end (R121, R123). -/
structure RefResult where
  w : Time
  re : Int
  im : Int
  cause : Nat
  low : Bool
  deriving DecidableEq, Repr, Inhabited

/-- A demodulation context: the configuration of the window in flight, where one is, what was seen in it, and its
demodulation. -/
structure CtxSt where
  integ : Option Word
  seen : WinFlags
  acc : Demod
  ready : Option WinReady
  ref : Option RefResult
  deriving DecidableEq, Repr, Inhabited

/-- One tone of the excitation as last computed (R110): its number, AMP, H and PH. -/
structure ExcTerm where
  tone : Nat
  amp : Nat
  h : Nat
  ph : Nat
  deriving DecidableEq, Repr, Inhabited

/-- The balancing-switch fallback (R133): BLn as it drives it, which an overcurrent fault overrides (R180), withheld (R135), its settling periods and window, what was seen
in it and its demodulation, and the ended window. -/
structure FbSt where
  closed : Bool
  withheld : Bool
  tone : ToneSt
  seen : WinFlags
  acc : Demod
  ready : Option WinReady
  deriving DecidableEq, Repr, Inhabited

/-- The impedance engine beside its registers. -/
structure ImpSt where
  tones : List ToneSt
  ctx : List CtxSt
  fb : FbSt
  /-- The excitation at the last trigger instant: its tones, and ticks since the last fundamental boundary (R110). -/
  exc : List ExcTerm
  excTau : Nat
  /-- TIME of the last fundamental boundary. -/
  boundary : Time
  /-- The last 39 corrected samples of channels 0 to 24, newest first, for the decimator of R114. -/
  path : List (List (Time × Int))
  deriving DecidableEq, Repr, Inhabited

/-! ### Phase controller (spec/05_phase_controller.md) -/

/-- A phase (R146, R149, R156, R157, R168, R171, R172). -/
structure PhaseSt where
  /-- The mean sense voltage of its latest cycle in µV, 0 once it carries no current. -/
  now : Int
  /-- That value at each of the last 64 cycles of the lowest-indexed active phase, newest first (R149). -/
  cur : List Int
  /-- The sense up-slope measured in its latest cycle, in µV/µs (R156). -/
  up : Nat
  /-- The excitation its present cycle began with, as `excSum` gives it (R110). -/
  exc : Int
  /-- The on-time of its latest cycle, in ns (R147). -/
  onNs : Nat
  /-- It has left the active set and completes its cycle in progress (R146, R174). -/
  leaving : Bool
  /-- Cycles in a row in which the fast limit acted: for its trim, and for adding a phase (R172). -/
  scRun : Nat
  scAdd : Nat
  /-- Cycles its trim has stood at a bound (R157), counted cycles of an open phase (R171). -/
  boundRun : Nat
  openRun : Nat
  /-- Its trim is being forced down, or is returning from that (R172). -/
  forced : Bool
  back : Bool
  deriving DecidableEq, Repr, Inhabited

/-- The phase controller beside its registers. -/
structure PhcSt where
  phases : List PhaseSt
  /-- Phases that have failed and have not become available since (R171). -/
  failed : BitVec 6
  /-- The controller has been disabled, and its active phases complete their cycles (R174). -/
  stopping : Bool
  /-- VSTK has fallen below 28.0 V and not recovered since (R170). -/
  vinLow : Bool
  /-- The setpoint in use, in units of 10 mV / FSW (R174). -/
  vset : Nat
  /-- The applied share offset in units of 1 ppm / (1000 × FSW) (R173). -/
  share : Int
  /-- The offset is returning to its pinned value after an override (R31, R172). -/
  shareBack : Bool
  /-- I_f in 10 mA / 2^40 as last computed (R169), the TIME since when no phase has switched, from which it decays, and the pull-back in force (R169, R172). -/
  filt : Int
  offAt : Option Time
  pull : Bool
  /-- The start check of this soft start has been made (R164); PHC_VSET.VSET at its S, and the reference at its start in
0.2 mV (R163). -/
  checked : Bool
  vsetS : Nat
  ref0 : Nat
  /-- TIME of the last change of N_ACT, and N_ACT is away from its bounds or pin by protection (R160, R172). -/
  shedAt : Time
  shedBack : Bool
  /-- The sum of the phases' sense voltages in the last 64 cycles of the lowest-indexed active phase, in µV, newest first
(R149, R159). -/
  iout : List Int
  /-- Cycles of the lowest-indexed active phase, counted for the reports of R153 and the history of R177. -/
  cycles : Nat
  /-- History entries of that sum and V_OUT, newest first (R177). -/
  hist : List (Int × Nat)
  /-- V_OUT as last sensed, in mV. -/
  vout : Nat
  deriving DecidableEq, Repr, Inhabited

/-! ### Balancing and thermal (spec/06_balancing_and_thermal.md) -/

/-- The balancing scheduler beside its registers: a slot in progress, its start, the cells its BAL tag covers, and
COUNTED as the slot began with it (R185, R186). -/
structure BalSt where
  inSlot : Bool
  start : Time
  tag : BitVec 24
  counted : Bool
  deriving DecidableEq, Repr, Inhabited

/-- A thermal sensor: its latest reading, consecutive readings out of range and away from the median (R190), the
readings of the last 100 ms, newest first (R192), and whether it gave Tmax at its last reading within bounds (R196). -/
structure SensorSt where
  latest : Option Int
  top : Bool
  outRun : Nat
  offRun : Nat
  hist : List Int
  deriving DecidableEq, Repr, Inhabited

/-- Thermal management beside its registers. -/
structure ThmSt where
  sensors : List SensorSt
  /-- Evaluations since a die sensor had a rate at or above half of RORTH (R192). -/
  quiet : Nat
  /-- LOST_HOLD has been cleared since the last evaluation, at which the level follows (R196). -/
  easing : Bool
  /-- The Guard thermal shutdown is in progress; STANDBY was entered by it (R200). -/
  closing : Bool
  cooled : Bool
  deriving DecidableEq, Repr, Inhabited

/-! ### Satellite bus (spec/09_satellite_bus.md) -/

/-- What the bus is doing: nothing; a program transaction; ALL and SAMPLE of a round with its strong pull-up; a poll read
of an entry; a search pass; after an attention search, READ_MEAS or CLEAR_ATTN of an entry (R279, R280, R282, R284). -/
inductive SatWork where
  | idle
  | xact
  | sample
  | read (n : Nat)
  | search
  | found (n : Nat)
  | clear (n : Nat)
  deriving DecidableEq, Repr, Inhabited

/-- A search (R283, R284): attention or full, run after a round (R282), the branches on the stack, the entries found,
the restarts made. -/
structure SatSearch where
  attn : Bool
  own : Bool
  branches : List (List (BitVec 4))
  found : List Nat
  restarts : Nat
  deriving DecidableEq, Repr, Inhabited

/-- The satellite bus beside its registers. -/
structure SatSt where
  work : SatWork
  /-- SAT_CFG as the round or search, and as the program transaction, began with it (R287). -/
  cfg : Word
  xcfg : Word
  /-- The bytes the part sends after the reset sequence of the transaction or pass in progress (R275, R276). -/
  sent : List Byte
  /-- Failed attempts of the transaction in progress (R276). -/
  tries : Nat
  /-- The strong pull-up is on. -/
  spu : Bool
  search : Option SatSearch
  /-- A program transaction waits for a poll read to end; searches wait for the round to end, in the order asked for, true
for an attention search (R279, R284). -/
  xactHeld : Bool
  searchHeld : List Bool
  /-- Entries of the round still to be read, in order; none while no round runs (R280). -/
  round : Option (List Nat)
  /-- A reset sequence of a round showed attention, and no search has followed (R282); the next round is due, with what its
first reset sequence will show (R280). -/
  attn : Bool
  due : Option SatObs
  /-- Entries an attention search after a round found, still to be read and cleared (R282). -/
  todo : List Nat
  deriving DecidableEq, Repr, Inhabited

/-! ### The whole -/

/-- The state of the block. -/
structure State where
  /-- The endpoint file: the registers that do not stand at their reset value, in address order (R491). -/
  regs : List (Nat × Word)
  /-- The Porter (spec/14_porter_and_power.md). -/
  ptr : PtrSt
  /-- The Ledger (spec/13_store.md). -/
  led : LedSt
  /-- The Cellar (spec/13_store.md). -/
  cel : CelSt
  /-- The North chain port (spec/07_chain_link.md). -/
  north : PortSt
  /-- The South chain port. -/
  south : PortSt
  /-- The chain network and the head (spec/08_chain_network.md). -/
  net : NetSt
  /-- The host port. -/
  host : HostSt
  /-- The Guard (spec/12_guard.md). -/
  grd : GrdSt
  /-- The Innkeeper (spec/10_innkeeper.md). -/
  ink : InkSt
  /-- Start-up and the serial flash (spec/11_start_and_image.md). -/
  boot : BootSt
  /-- OTP, keys and test (spec/15_trust_and_test.md). -/
  tru : TruSt
  /-- The measurement array (spec/02_measurement_array.md). -/
  meas : MeasSt
  /-- The Traveller. -/
  trv : TrvSt
  /-- The open-wire test. -/
  ow : OwSt
  /-- The sample datapath (spec/03_sample_datapath.md). -/
  sdp : SdpSt
  /-- The impedance engine (spec/04_impedance_engine.md). -/
  imp : ImpSt
  /-- The phase controller (spec/05_phase_controller.md). -/
  phc : PhcSt
  /-- The balancing scheduler (spec/06_balancing_and_thermal.md). -/
  bal : BalSt
  /-- Thermal management. -/
  thm : ThmSt
  /-- The satellite bus (spec/09_satellite_bus.md). -/
  sat : SatSt
  /-- The model's own: free values drawn so far (DESIGN CHOICE, log entry 25). -/
  free : Nat
  /-- The model's own: the commands waiting, first in, first out (DESIGN CHOICE, log entry 70). -/
  pending : List Instr
  deriving DecidableEq, Repr

/-- A port with nothing received or queued, its lists four classes long. -/
def PortSt.fresh : PortSt :=
  { (default : PortSt) with
    lastCrd := [0, 0, 0, 0], released := [0, 0, 0, 0], sentRel := [0, 0, 0, 0], uncounted := [0, 0, 0, 0] }

/-- A network layer with nothing under way. -/
def NetSt.fresh : NetSt := default

/-- A Guard right after D6 switches on; its challenge register holds the seed of R357 once D6 is on. -/
def GrdSt.fresh : GrdSt :=
  { (default : GrdSt) with disc := [0, 0, 0, 0], bothOpen := [0, 0, 0, 0], held := List.replicate 8 0, lfsr := 1 }

/-- An array with nothing converting. -/
def MeasSt.fresh : MeasSt :=
  { (default : MeasSt) with conv := List.replicate 26 none, hist := List.replicate 24 [] }

/-- No open-wire test. -/
def OwSt.fresh : OwSt :=
  { (default : OwSt) with ref := List.replicate 24 [], test := List.replicate 24 [] }

/-- A datapath with cleared filters and accumulators and closed streams. -/
def SdpSt.fresh : SdpSt :=
  { (default : SdpSt) with ch := List.replicate 25 default, streams := List.replicate 24 default }

/-- An impedance engine with no tone, window or result under way. -/
def ImpSt.fresh : ImpSt :=
  { (default : ImpSt) with tones := List.replicate 6 default, ctx := List.replicate 160 default,
                             path := List.replicate 25 [] }

/-- A phase controller that has not started. -/
def PhcSt.fresh : PhcSt := { (default : PhcSt) with phases := List.replicate 6 default }

/-- Thermal management with no reading yet. -/
def ThmSt.fresh : ThmSt := { (default : ThmSt) with sensors := List.replicate 5 default }

/-- The vendor's regions as codewords of R423, programmed and valid (R424 to R426): in region 0 PART 0x2406, REV 0x42 and the
factory number 1, in regions 1 to 3 zero, and the integrity word of each.
(DESIGN CHOICE, log entry 1.) -/
def vendorOtp : List (Nat × BitVec 39) :=
  [(0, 151046448), (2, 15), (63, 358070806255), (127, 359046463007), (191, 359046463007), (255, 359046463007)]

/-- The machine right after power-on reset (R8, R13, R399): in START with D0 alone on, every endpoint at its reset
value, nothing pending. What the spec gives no reset value for is named in the assumption log.
(DESIGN CHOICE, log entries 1 and 26.) -/
def State.reset : State :=
  { regs := []
    ptr := { (default : PtrSt) with dev := .start, prev := .off, dom := 1 }
    led := default
    cel := default
    north := PortSt.fresh
    south := PortSt.fresh
    net := NetSt.fresh
    host := default
    grd := GrdSt.fresh
    ink := default
    boot := { (default : BootSt) with step := .entry }
    tru := { (default : TruSt) with otp := vendorOtp, fuses := 0x000F, detail := List.replicate 6 0 }
    meas := MeasSt.fresh
    trv := default
    ow := OwSt.fresh
    sdp := SdpSt.fresh
    imp := ImpSt.fresh
    phc := PhcSt.fresh
    bal := default
    thm := ThmSt.fresh
    sat := default
    free := 0
    pending := [] }

end Sys2Proof.Machine
end

