-- ==== Sys2Proof/Machine/Ops.lean ====
section
/-! DEFINITION. The named operations over the endpoint file, over byte memories, and the outcome of a command. -/

namespace Sys2Proof.Machine

/-! ### Fields of a word -/

/-- The number a field holds in a word. -/
def Fld.read (f : Fld) (v : Word) : Nat := (v.toNat >>> f.lo) % 2 ^ f.w

/-- The bits of a field in a word. -/
def Fld.mask (f : Fld) : Word := (BitVec.ofNat 32 (2 ^ f.w - 1)) <<< f.lo

/-- A word with a field holding `n`, cut to the field's width. -/
def Fld.write (f : Fld) (v : Word) (n : Nat) : Word :=
  (v &&& ~~~f.mask) ||| ((BitVec.ofNat 32 (n % 2 ^ f.w)) <<< f.lo)

/-- A number read as two's complement in `w` bits. -/
def signed (w n : Nat) : Int := if n < 2 ^ (w - 1) then n else (n : Int) - 2 ^ w

/-- An integer as a two's complement number in `w` bits. -/
def unsign (w : Nat) (i : Int) : Nat := (i % (2 ^ w : Int)).toNat

/-- An integer held within bounds. -/
def clamp (lo hi i : Int) : Int := if i < lo then lo else if hi < i then hi else i

/-! ### The endpoint file -/

/-- The stored value of the register at local address `a`. -/
def State.reg (s : State) (a : Nat) : Word := Sparse.get Reg.reset s.regs a

/-- The register at `a` holds `v`. -/
def State.setReg (s : State) (a : Nat) (v : Word) : State := { s with regs := Sparse.set Reg.reset s.regs a v }

/-- The number a field holds. -/
def State.get (s : State) (f : Fld) : Nat := f.read (s.reg f.addr)

/-- The integer a signed field holds. -/
def State.getS (s : State) (f : Fld) : Int := signed f.w (s.get f)

/-- A one-bit field is 1 (a wider field: it is not 0). -/
def State.bit (s : State) (f : Fld) : Bool := s.get f != 0

/-- A field takes the number `n`. -/
def State.put (s : State) (f : Fld) (n : Nat) : State := s.setReg f.addr (f.write (s.reg f.addr) n)

/-- A signed field takes an integer, cut to its width. -/
def State.putS (s : State) (f : Fld) (i : Int) : State := s.put f (unsign f.w i)

/-- A one-bit field takes a truth value. -/
def State.putB (s : State) (f : Fld) (b : Bool) : State := s.put f b.toNat

/-- A one-bit field is set: an event is raised. -/
def State.raise (s : State) (f : Fld) : State := s.put f 1

/-- An event is raised where `b` holds. -/
def State.raiseIf (s : State) (b : Bool) (f : Fld) : State := if b then s.raise f else s

/-- A field counts up by `n`, wrapping at its width. -/
def State.bump (s : State) (f : Fld) (n : Nat) : State := s.put f (s.get f + n)

/-- A field counts up by `n`, saturating at its width. -/
def State.bumpSat (s : State) (f : Fld) (n : Nat) : State := s.put f (min (s.get f + n) (2 ^ f.w - 1))

/-- Bit `i` of the register at `a`. -/
def State.rbit (s : State) (a i : Nat) : Bool := (s.reg a).getLsbD i

/-- Bit `i` of the register at `a` takes a truth value. -/
def State.putBit (s : State) (a i : Nat) (b : Bool) : State := s.put ⟨a, i, 1⟩ b.toNat

/-- The state changed where `b` holds. -/
def State.when (s : State) (b : Bool) (f : State → State) : State := if b then f s else s

/-- A change made for each member of a list, in order. -/
def State.each {α : Type} (s : State) (xs : List α) (f : α → State → State) : State :=
  match xs with
  | [] => s
  | x :: xs => State.each (f x s) xs f

/-- The plain write of a register (R6, R7): RW fields take the written bits, W1C bits written 1 clear, SL bits written 1
set, everything else stays. A register with no row ignores the write. -/
def State.plainWrite (s : State) (a : Nat) (v : Word) : State :=
  match regRow a with
  | none => s
  | some r =>
    let rw := BitVec.ofNat 32 r.rw; let c := BitVec.ofNat 32 r.w1c; let sl := BitVec.ofNat 32 r.sl
    s.setReg a (((s.reg a &&& ~~~rw) ||| (v &&& rw)) &&& ~~~(v &&& c) ||| (v &&& sl))

/-- The events of a block are pending: some bit is 1 both in its event register and in its enables (R310). -/
def State.line (s : State) (evt en : Nat) : Bool := (s.reg evt &&& s.reg en) != 0

/-! ### Byte memories -/

/-- The byte at `a`, `d` where nothing is listed.
(DESIGN CHOICE, log entry 27.) -/
def Mem.byte (d : Byte) (m : List Host.Cell) (a : Nat) : Byte := Sparse.get (fun _ => d) m a

/-- A byte stored at `a`. -/
def Mem.setByte (d : Byte) (m : List Host.Cell) (a : Nat) (b : Byte) : List Host.Cell := Sparse.set (fun _ => d) m a b

/-- `n` bytes from `a` upward. -/
def Mem.bytes (d : Byte) (m : List Host.Cell) (a : Nat) : Nat → List Byte
  | 0 => []
  | n + 1 => Mem.byte d m a :: Mem.bytes d m (a + 1) n

/-- Bytes stored from `a` upward. -/
def Mem.setBytes (d : Byte) (m : List Host.Cell) (a : Nat) : List Byte → List Host.Cell
  | [] => m
  | b :: bs => Mem.setBytes d (Mem.setByte d m a b) (a + 1) bs

/-- The four bytes of a word, least significant first (R324). -/
def wordBytes (v : Word) : List Byte :=
  [v.extractLsb' 0 8, v.extractLsb' 8 8, v.extractLsb' 16 8, v.extractLsb' 24 8]

/-- The word four bytes spell, least significant first; missing bytes are 0. -/
def bytesWord : List Byte → Word
  | [] => 0
  | b :: bs => (bytesWord bs <<< 8) ||| b.zeroExtend 32

/-- The word at byte address `a`, least significant byte first.
(DESIGN CHOICE, log entry 27.) -/
def Mem.word (d : Byte) (m : List Host.Cell) (a : Nat) : Word := bytesWord (Mem.bytes d m a 4)

/-- A word stored at byte address `a`, least significant byte first. -/
def Mem.setWord (d : Byte) (m : List Host.Cell) (a : Nat) (v : Word) : List Host.Cell :=
  Mem.setBytes d m a (wordBytes v)

/-- `n` words from byte address `a` upward. -/
def Mem.words (d : Byte) (m : List Host.Cell) (a : Nat) : Nat → List Word
  | 0 => []
  | n + 1 => Mem.word d m a :: Mem.words d m (a + 4) n

/-- Words stored from byte address `a` upward. -/
def Mem.setWords (d : Byte) (m : List Host.Cell) (a : Nat) : List Word → List Host.Cell
  | [] => m
  | v :: vs => Mem.setWords d (Mem.setWord d m a v) (a + 4) vs

/-- The canonical form of a byte memory whose unlisted bytes read `d`. -/
def Mem.wf (d : Byte) (m : List Host.Cell) : Bool := Sparse.wf (fun _ => d) m

/-- The bytes of words, each least significant byte first. -/
def wordsBytes : List Word → List Byte
  | [] => []
  | v :: vs => wordBytes v ++ wordsBytes vs

/-- The words that bytes spell, four by four, each least significant byte first; a last short group is filled with 0. -/
def bytesWords : List Byte → List Word
  | a :: b :: c :: d :: bs => bytesWord [a, b, c, d] :: bytesWords bs
  | [] => []
  | bs => [bytesWord bs]

/-- A list cut or filled with `x` to `n` members. -/
def padTo {α : Type} (x : α) : Nat → List α → List α
  | 0, _ => []
  | n + 1, [] => x :: padTo x n []
  | n + 1, y :: ys => y :: padTo x n ys

/-! ### TIME, free values, device state -/

/-- TIME as functions and readers use it: 0 until PTR_STAT.TVALID is set (R420). -/
def State.timeNow (s : State) : Time := if s.bit F.PTR_STAT.TVALID then s.ptr.time else 0

/-- A function may be timed to an instant: TIME is valid and has not passed it (R420). -/
def State.timeMay (s : State) (t : Time) : Bool := s.bit F.PTR_STAT.TVALID && Nat.ble s.ptr.time.toNat t.toNat

/-- The two words of a TIME value, low first. -/
def timeWords (t : Time) : List Word := [t.extractLsb' 0 32, t.extractLsb' 32 32]

/-- One more free value has been drawn.
(DESIGN CHOICE, log entry 25.) -/
def State.draw (s : State) : State := { s with free := s.free + 1 }

/-- Domain Dd is on. -/
def State.on (s : State) (d : Nat) : Bool := s.ptr.dom.getLsbD d

/-- The device is in one of the given states. -/
def State.inDev (s : State) (ds : List DevState) : Bool := ds.contains s.ptr.dev

/-- Functions work in one of the given states: from step 2 of R200 on, none does.
(DEDUCED, log entry 33.) -/
def State.works (s : State) (ds : List DevState) : Bool := s.inDev ds && !s.thm.closing

/-! ### Commands -/

/-- An outcome of this model's commands. -/
abbrev Result := Host.Outcome State Fault Refusal

end Sys2Proof.Machine
end

