-- ==== Sys2Proof/Machine/Sat.lean ====
section
/-! DEFINITION. The satellite bus (spec/09_satellite_bus.md): transactions, poll rounds, searches, and the writes of its
registers. -/

namespace Sys2Proof.Machine

/-- The bus's state changed. -/
def State.onSat (s : State) (f : SatSt → SatSt) : State := { s with sat := f s.sat }

/-- The bus may run (R267), and does: no short (R268). -/
def State.satMay (s : State) : Bool := s.bit F.SAT_CTRL.EN && s.on 5 && s.works [.start, .run, .recover]
def State.satRuns (s : State) : Bool := s.satMay && !s.bit F.SAT_STAT.SHORT

/-- BUSY follows the work. -/
def satBusy (s : State) : State :=
  s.putB F.SAT_STAT.BUSY (s.sat.work != .idle || s.sat.round.isSome || s.sat.search.isSome)

/-- The CRC-8 of the bus (R274). -/
def crc8 (bs : List Byte) : Byte := (CrcKind.of .crc8 bs).extractLsb' 0 8

/-! ### Entries (R273, R285) -/

/-- The factory number of entry `n` as its eight bytes, bits 63:56 first. -/
def State.podBytes (s : State) (n : Nat) : List Byte :=
  (wordBytes (s.reg (A.SAT_POD_H n))).reverse ++ (wordBytes (s.reg (A.SAT_POD_L n))).reverse

/-- Entry `n` is valid. -/
def State.podValid (s : State) (n : Nat) : Bool := s.rbit A.SAT_VALID n

/-- The valid entries, in ascending order. -/
def State.pods (s : State) : List Nat := (List.range 32).filter s.podValid

/-- A factory number, high and low word, is filed: in the entry that holds it, or in the lowest free one (R285). -/
def podFile (hi lo : Word) (s : State) : State × Option Nat :=
  let same := s.pods.find? fun n => s.reg (A.SAT_POD_H n) == hi && s.reg (A.SAT_POD_L n) == lo
  let free := (List.range 32).find? fun n => !s.podValid n
  match same.or free with
  | none => (s.raise F.SAT_EVT.FULL, none)
  | some n =>
    let s := (s.setReg (A.SAT_POD_H n) hi).setReg (A.SAT_POD_L n) lo
    let s := (s.putBit A.SAT_VALID n true).putBit A.SAT_LOSTP n false
    (s.put (F.SAT_RS.MISS n) 0, some n)

/-! ### What is sent (R275, R276) -/

/-- The request bytes: a function byte, parameters and their CRC. -/
def satRequest (func : Byte) (par : List Byte) : List Byte := func :: par ++ [crc8 (func :: par)]

/-- A transaction to entry `n`: SELECT, its factory number, the request. -/
def State.satSelect (s : State) (n : Nat) (func : Byte) (par : List Byte) : List Byte :=
  0xC5 :: s.podBytes n ++ satRequest func par

/-- The bytes of SAT_XDAT. -/
def State.xdat (s : State) : List Byte := (List.range 4).flatMap fun k => wordBytes (s.reg (A.SAT_XDAT k))

/-- The work starts with its bytes and no failed attempt. -/
def satStart (w : SatWork) (bytes : List Byte) (s : State) : State :=
  satBusy (s.onSat fun x => { x with work := w, sent := bytes, tries := 0 })

/-! ### The order of the work (R279, R280, R282, R284) -/

/-- A reset sequence shows presence and attention (R271). -/
def satReset (o : SatObs) (s : State) : State :=
  ((s.putB F.SAT_STAT.PRESENT o.present).putB F.SAT_STAT.ATTN o.attn).raiseIf o.attn F.SAT_EVT.ATTN

/-- SAT_CFG is taken for the round or search that starts now (R287). -/
def satCfg (s : State) : State := s.onSat fun x => { x with cfg := s.reg A.SAT_CFG }

/-- The first bytes of a reply and their CRC; a pod that does not answer sends all ones (R276).
(DEDUCED, log entry 65.) -/
def replyBytes (o : SatObs) (n : Nat) : List Byte := padTo 0xFF (n + 1) o.reply

/-- A reply of `n` bytes with the CRC-8 that they have (R274, R276); all ones are no reply, also where one byte 0xFF has 0xFF
as its CRC-8.
(DEDUCED, log entry 65.) -/
def replyGood (o : SatObs) (n : Nat) : Bool :=
  crc8 ((replyBytes o n).take n) == (replyBytes o n).getD n 0 && (replyBytes o n).any (· != 0xFF)

/-- A program transaction starts; one to an entry that is not valid ends at once (R279). -/
def xactBegin (s : State) : State :=
  let s := s.onSat fun x => { x with xactHeld := false, xcfg := s.reg A.SAT_CFG }
  let bc := s.bit F.SAT_XCTL.BC
  let pod := s.get F.SAT_XCTL.POD
  let func := BitVec.ofNat 8 (s.get F.SAT_XCTL.FUNC)
  let par := s.xdat.take (s.get F.SAT_XCTL.NPAR)
  if bc then satStart .xact (0xC9 :: satRequest func par) s
  else if s.podValid pod then satStart .xact (s.satSelect pod func par) s
  else (s.put F.SAT_XSTAT.RES 1).raise F.SAT_EVT.XDONE

/-- A search starts with an empty prefix (R284). -/
def searchBegin (attn own : Bool) (s : State) : State :=
  let s := satCfg (((s.put F.SAT_STAT.SRCH_BUSY 1).put F.SAT_STAT.SRCH_FAIL 0).put F.SAT_STAT.SRCH_ABORT 0)
  let q : SatSearch := { attn := attn, own := own, branches := [[]], found := [], restarts := 0 }
  satStart .search [if attn then 0xA6 else 0xA3] (s.onSat fun x => { x with search := some q })

/-- The next poll read of the round; none left, none. -/
def roundNext (s : State) : Option (Nat × List Nat) :=
  match s.sat.round with
  | none => none
  | some ns => match ns.filter s.podValid with
    | [] => none
    | n :: rest => some (n, rest)

/-- A transaction that is not the program's ends with a result (R271, R276).
(DEDUCED, log entry 65.) -/
def satResult (res : Nat) (s : State) : State := s.put F.SAT_XSTAT.RES res

/-- A round starts with ALL and SAMPLE; where neither presence nor attention shows, ALL has ended with RES 3 and there is no
conversion to wait for (R271, R280). Its entries are those valid now.
(DEDUCED, log entry 65.) -/
def roundOpen (o : SatObs) (s : State) : State :=
  let s := satReset o (satCfg s)
  let heard := o.present || o.attn
  let s := s.onSat fun x => { x with round := some s.pods, attn := x.attn || o.attn, due := none, spu := heard }
  satStart (if heard then .sample else .idle) (0xC9 :: satRequest 0x12 []) (if heard then s else satResult 3 s)

/-- The bus takes up its next work, at most `fuel` steps of bookkeeping on the way: a held transaction, the next poll
read, and at the round's end a held search, a late round, the attention search (R280, R282, R284).
(DEDUCED, log entry 65.) -/
def satNext : Nat → State → State
  | 0, s => satBusy s
  | fuel + 1, s =>
    let s := s.onSat fun x => { x with work := .idle, sent := [] }
    if !s.satRuns then satBusy (s.onSat fun x => { x with round := none, todo := [], xactHeld := false, due := none })
    else if s.sat.xactHeld then
      let s := xactBegin s
      if s.sat.work == .idle then satNext fuel s else s
    else match roundNext s with
      | some (n, rest) =>
        satStart (.read n) (s.satSelect n 0x21 []) (s.onSat fun x => { x with round := some rest })
      | none =>
        let s := if s.sat.round.isNone then s
          else s.onSat fun x => { x with round := none, attn := x.attn && s.bit F.SAT_CTRL.AUTO }
        match s.sat.todo, s.sat.searchHeld, s.sat.due with
        | n :: ns, _, _ => satStart (.found n) (s.satSelect n 0x21 []) (s.onSat fun x => { x with todo := ns })
        | [], attn :: held, _ => searchBegin attn false (s.onSat fun x => { x with searchHeld := held })
        | [], [], some o =>
          let s := roundOpen o (s.raise F.SAT_EVT.LATE)
          if s.sat.work == .idle then satNext fuel s else s
        | [], [], none =>
          if s.sat.attn then searchBegin true true (s.onSat fun x => { x with attn := false }) else satBusy s

/-- The bus goes on. -/
def satGo (s : State) : State := satNext 80 s

/-- A round, a transaction or a search is under way. -/
def State.satActive (s : State) : Bool := s.sat.work != .idle || s.sat.round.isSome

/-- POLL_ROUND: the poll period expires (R280).
(DEDUCED, log entry 65.) -/
def pollStart (o : SatObs) (s : State) : State :=
  if !(s.satRuns && s.bit F.SAT_CTRL.POLL) then s
  else if s.satActive then s.onSat fun x => { x with due := some o }
  else
    let s := roundOpen o s
    if s.sat.work == .idle then satGo s else s

/-! ### Transactions (R276, R279) -/

/-- A program transaction ends with a result. -/
def xactEnd (res : Nat) (s : State) : State := satGo ((s.put F.SAT_XSTAT.RES res).raise F.SAT_EVT.XDONE)

/-- A program transaction or a search is in progress (R279, R284).
(DEDUCED, log entry 65.) -/
def State.satTaken (s : State) : Bool := s.sat.work == .xact || s.sat.search.isSome

/-- A write of SAT_XCTL (R279): refused while a program transaction or a search is in progress, held while other work of the
bus is.
(DEDUCED, log entry 65.) -/
def wrXctl (v : Word) (s : State) : State :=
  let go := F.SAT_XCTL.GO.read v == 1
  let bad := F.SAT_XCTL.BC.read v == 1 && F.SAT_XCTL.NREP.read v != 0
  if s.satTaken || (go && bad) then s.raise F.SAT_EVT.CFG_REFUSED
  else
    let s := (s.plainWrite A.SAT_XCTL v).put F.SAT_XCTL.NPAR (min 8 (F.SAT_XCTL.NPAR.read v))
    if !go then s
    else if s.bit F.SAT_STAT.SHORT then (s.put F.SAT_XSTAT.RES 5).raise F.SAT_EVT.XDONE
    else if !s.satRuns then (s.put F.SAT_XSTAT.RES 4).raise F.SAT_EVT.XDONE
    else if s.satActive then s.onSat fun x => { x with xactHeld := true }
    else xactBegin s

/-- A failed attempt counts; another follows while RETRY allows it (R276). -/
def satRetry (s : State) : Option State :=
  let cfg := if s.sat.work == .xact then s.sat.xcfg else s.sat.cfg
  if Nat.blt s.sat.tries (F.SAT_CFG.RETRY.read cfg) then
    some ((s.bump F.SAT_CNT.CRC 1).onSat fun x => { x with tries := x.tries + 1 })
  else none

/-- Reply bytes and their CRC stored in SAT_XDAT from byte 0 on. -/
def xdatStore (bs : List Byte) (s : State) : State :=
  let all := bs ++ s.xdat.drop bs.length
  s.each (List.range 4) fun k s => s.setReg (A.SAT_XDAT k) (bytesWord ((all.drop (4 * k)).take 4))

/-- SAT_TRANSACTION_END: an attempt of the program transaction ends (R276, R279). The last reply read and its CRC are in
SAT_XDAT on completion.
(DEDUCED, log entry 65.) -/
def transactionEnd (o : SatObs) (s : State) : State :=
  if !(s.sat.work == .xact && !s.sat.spu) then s
  else
    let s := satReset o s
    let nrep := s.get F.SAT_XCTL.NREP
    if !(o.present || o.attn) then xactEnd 3 s
    else if nrep != 0 then
      if replyGood o nrep then xactEnd 0 (xdatStore (replyBytes o nrep) s)
      else match satRetry s with
        | some s => s
        | none => xactEnd 2 (xdatStore (replyBytes o nrep) (s.bump F.SAT_CNT.CRC 1))
    else if s.bit F.SAT_XCTL.SPU && s.satRuns then s.onSat fun x => { x with spu := true }
    else xactEnd 0 s

/-- SPU_END: the strong pull-up time expires. -/
def spuOver (s : State) : State :=
  if !s.sat.spu then s
  else
    let s := s.onSat fun x => { x with spu := false }
    if s.sat.work == .xact then xactEnd 0 s else satGo s

/-! ### Poll reads (R280 to R282) -/

/-- A good READ_MEAS of entry `n`. -/
def podGood (n : Nat) (r : List Byte) (s : State) : State :=
  let b := fun k => (r.getD k 0).toNat
  let typ := ((s.reg (A.SAT_POD_H n)).extractLsb' 24 8).toNat
  let s := s.setReg (A.SAT_RD n) (Word.ofNat (((b 4 * 256 + b 5) * 65536) + b 2 * 256 + b 3))
  let s := (s.put (F.SAT_RS.SEQ n) (b 1)).put (F.SAT_RS.TYPE n) typ
  ((s.put (F.SAT_RS.FLAGS n) (b 0)).put (F.SAT_RS.MISS n) 0).putBit A.SAT_LOSTP n false

/-- A READ_MEAS of entry `n` that ended without a good reply (R281). A MISS that stands at its end reaches nothing anew. -/
def podMiss (n : Nat) (s : State) : State :=
  let was := s.get (F.SAT_RS.MISS n)
  let s := s.bumpSat (F.SAT_RS.MISS n) 1
  if was != 15 && s.get (F.SAT_RS.MISS n) == F.SAT_CFG.LOSTN.read s.sat.cfg then
    (s.putBit A.SAT_LOSTP n true).raise F.SAT_EVT.LOST
  else s

/-- The read of a found pod has ended, well or not: SAT_ATTN marks it, and CLEAR_ATTN follows while the bus runs (R267,
R282). -/
def foundClear (n : Nat) (s : State) : State :=
  let s := s.putBit A.SAT_ATTN n true
  if s.satRuns then satStart (.clear n) (s.satSelect n 0x56 []) s else satGo s

/-- An attempt of the transaction in progress has ended, with `n` reply bytes asked for: neither presence nor attention, with
RES 3; no good reply and another attempt; no good reply at last, with RES 2; or a good one (R271, R276).
(DEDUCED, log entry 65.) -/
def attemptEnd (o : SatObs) (n : Nat) (miss good : State → State) (s : State) : State :=
  if !(o.present || o.attn) then miss (satResult 3 s)
  else if replyGood o n then good s
  else match satRetry s with
    | some s => s
    | none => miss (satResult 2 (s.bump F.SAT_CNT.CRC 1))

/-- POD_READ_END: an attempt of a READ_MEAS, or of the CLEAR_ATTN that follows a found pod's, ends. -/
def podRead (o : SatObs) (s : State) : State :=
  match s.sat.work with
  | .read n =>
    let s := (satReset o s).onSat fun x => { x with attn := x.attn || (o.attn && x.round.isSome) }
    attemptEnd o 6 (fun s => satGo (podMiss n s)) (fun s => satGo (podGood n (replyBytes o 6) s)) s
  | .found n =>
    let flags := ((replyBytes o 6).headD 0).toNat
    let told := fun (s : State) =>
      (s.raiseIf (flags % 2 == 1) F.SAT_EVT.NEWPOD).raiseIf (flags / 2 % 2 == 1) F.SAT_EVT.ALARM
    attemptEnd o 6 (fun s => foundClear n (podMiss n s)) (fun s => foundClear n (told (podGood n (replyBytes o 6) s)))
      (satReset o s)
  | .clear _ => attemptEnd o 1 satGo satGo (satReset o s)
  | _ => s

/-! ### Search (R283 to R285) -/

/-- SAT_CTRL.SRCH or ASRCH is written (R284): refused while a program transaction or a search is in progress, held while
other work of the bus is, and aborted where the bus does not run.
(DEDUCED, log entry 65.) -/
def searchAsk (attn : Bool) (s : State) : State :=
  if s.satTaken then s.raise F.SAT_EVT.CFG_REFUSED
  else if !s.satRuns then
    ((s.put F.SAT_STAT.SRCH_ABORT 1).put F.SAT_STAT.SRCH_FAIL 0).raise F.SAT_EVT.SRCH_DONE
  else if s.satActive then s.onSat fun x =>
    { x with searchHeld := if x.searchHeld.contains attn then x.searchHeld else x.searchHeld ++ [attn] }
  else searchBegin attn false s

/-- The lowest cell of a step that reads 0, and the higher ones in descending order. -/
def lowCells (r : BitVec 16) : List Nat := (List.range 16).filter fun v => !r.getLsbD v

/-- The steps of a pass (R283): the factory number's nibbles and the branches pushed, or none for a restart. -/
def searchSteps : List (BitVec 16) → List (BitVec 4) → List (BitVec 4) → List (List (BitVec 4)) →
    Option (List (BitVec 4) × List (List (BitVec 4)))
  | [], _, id, br => some (id, br)
  | r :: rs, p, id, br =>
    match p with
    | d :: p' => if r.getLsbD d.toNat then none else searchSteps rs p' (id ++ [d]) br
    | [] =>
      match lowCells r with
      | [] => none
      | d :: more =>
        let pushed := more.map fun v => id ++ [BitVec.ofNat 4 v]
        searchSteps rs [] (id ++ [BitVec.ofNat 4 d]) (pushed ++ br)

/-- The word that eight nibbles spell, the first highest. -/
def nibblesWord (xs : List (BitVec 4)) : Word := xs.foldl (fun w x => (w <<< 4) ||| x.setWidth 32) 0

/-- A search ends (R284, R285): a full one that found its way to the end marks every valid entry it did not find. -/
def searchEnd (fail : Bool) (q : SatSearch) (s : State) : State :=
  let gone := if q.attn || fail then [] else s.pods.filter fun n => !q.found.contains n
  let s := s.each gone fun n s => (s.putBit A.SAT_LOSTP n true).raise F.SAT_EVT.LOST
  let s := ((s.putB F.SAT_STAT.SRCH_FAIL fail).put F.SAT_STAT.SRCH_BUSY 0).raise F.SAT_EVT.SRCH_DONE
  satGo (s.onSat fun x => { x with search := none, todo := if q.own then q.found else x.todo })

/-- A search starts again from the empty prefix, or fails beyond RSTMAX (R284). -/
def searchAgain (q : SatSearch) (s : State) : State :=
  let s := (s.bump F.SAT_CNT.RESTARTS 1).raise F.SAT_EVT.SRCH_RESTART
  let q' := { q with restarts := q.restarts + 1, branches := [[]] }
  if Nat.blt (F.SAT_CFG.RSTMAX.read s.sat.cfg) q'.restarts then searchEnd true q' s
  else s.onSat fun x => { x with search := some q' }

/-- SEARCH_PASS_END: a pass ends (R283 to R285). -/
def searchPass (o : SatObs) (cells : List (BitVec 16)) (s : State) : State :=
  match s.sat.work, s.sat.search with
  | .search, some q =>
    let s := satReset o s
    match searchSteps (padTo (BitVec.allOnes 16) 16 cells) (q.branches.headD []) [] q.branches.tail with
    | none => searchAgain q s
    | some (id, br) =>
      let hi := nibblesWord (id.take 8)
      let lo := nibblesWord (id.drop 8)
      let bytes := (wordBytes hi).reverse ++ (wordBytes lo).reverse
      if crc8 (bytes.take 7) != bytes.getD 7 0 then searchAgain q (s.bump F.SAT_CNT.CRC 1)
      else
        let r := podFile hi lo s
        let found := match r.2 with | some n => q.found.filter (· != n) ++ [n] | none => q.found
        let q' := { q with branches := br, found := found }
        if br.isEmpty then searchEnd false q' r.1 else r.1.onSat fun x => { x with search := some q' }
  | _, _ => s

/-! ### Ends (R268, R287) -/

/-- A search in progress is abandoned. -/
def searchCut (s : State) : State :=
  if s.sat.search.isSome then
    let s := ((s.put F.SAT_STAT.SRCH_ABORT 1).put F.SAT_STAT.SRCH_BUSY 0).raise F.SAT_EVT.SRCH_DONE
    s.onSat fun x => { x with search := none, work := if x.work == .search then .idle else x.work }
  else s

/-- What has not begun is dropped. -/
def satDrop (s : State) : State :=
  s.onSat fun x => { x with round := none, todo := [], xactHeld := false, searchHeld := [], due := none, attn := false }

/-- EN is cleared, or the device leaves the states of R267: the work in flight ends as R287 states. A transaction under
way goes on to its reply, with no attempt after it; a strong pull-up leaves RES 4. -/
def satStop (s : State) : State :=
  let s := satDrop (searchCut s)
  if s.sat.spu then
    let x := s.sat.work == .xact
    let s := s.onSat fun x => { x with spu := false, work := .idle, sent := [] }
    satBusy ((s.put F.SAT_XSTAT.RES 4).raiseIf x F.SAT_EVT.XDONE)
  else
    satBusy (s.onSat fun x =>
      { x with cfg := F.SAT_CFG.RETRY.write x.cfg 0, xcfg := F.SAT_CFG.RETRY.write x.xcfg 0, work := if x.work == .sample then .idle else x.work })

/-- A READ_MEAS that a short ends has RES 5, and counts as a miss (R281). -/
def shortMiss (s : State) : State :=
  match s.sat.work with
  | .read n => podMiss n s
  | .found n => podMiss n s
  | _ => s

/-- SAT_SHORT (R268). -/
def satShorted (s : State) : State :=
  if !s.satRuns then s
  else
    let x := s.sat.work == .xact
    let s := satDrop (searchCut (shortMiss s))
    let s := s.onSat fun x => { x with spu := false, work := .idle, sent := [] }
    let s := if x then (s.put F.SAT_XSTAT.RES 5).raise F.SAT_EVT.XDONE else s
    satBusy ((s.put F.SAT_STAT.SHORT 1).raise F.SAT_EVT.SHORT)

/-- SHORT_RETRY: on a short, while the bus may run, a reset sequence is tried; SHORT clears where the line reads high (R267,
R268, R271). -/
def shortTry (o : RetryObs) (s : State) : State :=
  if !(s.satMay && s.bit F.SAT_STAT.SHORT) then s
  else if o.high then (satReset o.reset s).put F.SAT_STAT.SHORT 0 else satReset o.reset s

/-! ### Register writes -/

/-- A write of SAT_CTRL (R267, R284, R287). -/
def wrSatCtrl (v : Word) (s : State) : State :=
  let off := s.bit F.SAT_CTRL.EN && F.SAT_CTRL.EN.read v == 0
  let s := s.plainWrite A.SAT_CTRL v
  let s := if off then satStop s else s
  let s := if s.bit F.SAT_CTRL.POLL then s else s.onSat fun x => { x with due := none }
  let s := if F.SAT_CTRL.SRCH.read v == 1 then searchAsk false s else s
  if F.SAT_CTRL.ASRCH.read v == 1 then searchAsk true s else s

/-- A write of SAT_CFG: LOSTN, SPU and PERIOD 0 store 1. -/
def wrSatCfg (v : Word) (s : State) : State :=
  let s := s.plainWrite A.SAT_CFG v
  ((s.put F.SAT_CFG.LOSTN (max 1 (F.SAT_CFG.LOSTN.read v))).put F.SAT_CFG.SPU (max 1 (F.SAT_CFG.SPU.read v))).put
    F.SAT_CFG.PERIOD (max 1 (F.SAT_CFG.PERIOD.read v))

/-- A write of SAT_VALID: a bit written 1 frees its entry (R287). -/
def wrSatValid (v : Word) (s : State) : State :=
  let freed := s.pods.filter fun n => v.getLsbD n
  s.each freed fun n s =>
    let s := (s.setReg (A.SAT_POD_H n) 0).setReg (A.SAT_POD_L n) 0
    ((s.putBit A.SAT_VALID n false).putBit A.SAT_LOSTP n false).putBit A.SAT_ATTN n false

end Sys2Proof.Machine
end

