-- ==== Sys2Proof/Machine/Aes.lean ====
section
/-! DEFINITION. AES-128 and its CMAC (R263, R326, R437), computed from the field arithmetic of the cipher. -/

namespace Sys2Proof.Machine

/-- Multiplication by x in the field of AES. -/
def gfDouble (a : Byte) : Byte := if a.getLsbD 7 then (a <<< 1) ^^^ 0x1B else a <<< 1

/-- The product in the field of AES, over the low `n` bits of `b`. -/
def gfMulN : Nat → Byte → Byte → Byte
  | 0, _, _ => 0
  | n + 1, a, b => (if b.getLsbD 0 then a else 0) ^^^ gfMulN n (gfDouble a) (b >>> 1)

def gfMul (a b : Byte) : Byte := gfMulN 8 a b

/-- The inverse: the 254th power. -/
def gfInv (a : Byte) : Byte :=
  let a2 := gfMul a a; let a4 := gfMul a2 a2; let a8 := gfMul a4 a4; let a16 := gfMul a8 a8
  let a32 := gfMul a16 a16; let a64 := gfMul a32 a32; let a128 := gfMul a64 a64
  gfMul a2 (gfMul a4 (gfMul a8 (gfMul a16 (gfMul a32 (gfMul a64 a128)))))

/-- The S-box: the inverse, then the affine map. -/
def sbox (a : Byte) : Byte :=
  let b := gfInv a
  b ^^^ b.rotateLeft 1 ^^^ b.rotateLeft 2 ^^^ b.rotateLeft 3 ^^^ b.rotateLeft 4 ^^^ 0x63

/-- Bytes XORed one by one. -/
def xorBytes (a b : List Byte) : List Byte := List.zipWith (· ^^^ ·) a b

/-- The next round key of sixteen bytes. -/
def nextKey (rcon : Byte) (k : List Byte) : List Byte :=
  let t := [sbox (k.getD 13 0) ^^^ rcon, sbox (k.getD 14 0), sbox (k.getD 15 0), sbox (k.getD 12 0)]
  let w0 := xorBytes (k.take 4) t
  let w1 := xorBytes ((k.drop 4).take 4) w0
  let w2 := xorBytes ((k.drop 8).take 4) w1
  let w3 := xorBytes (k.drop 12) w2
  w0 ++ w1 ++ w2 ++ w3

/-- ShiftRows on a state held column by column. -/
def shiftRows (s : List Byte) : List Byte :=
  [0, 5, 10, 15, 4, 9, 14, 3, 8, 13, 2, 7, 12, 1, 6, 11].map fun i => s.getD i 0

/-- MixColumns. -/
def mixColumns : List Byte → List Byte
  | a :: b :: c :: d :: s =>
    (gfDouble a ^^^ gfDouble b ^^^ b ^^^ c ^^^ d) :: (a ^^^ gfDouble b ^^^ gfDouble c ^^^ c ^^^ d) ::
    (a ^^^ b ^^^ gfDouble c ^^^ gfDouble d ^^^ d) :: (gfDouble a ^^^ a ^^^ b ^^^ c ^^^ gfDouble d) :: mixColumns s
  | _ => []

/-- Rounds of AES-128: `n` left, the last without MixColumns. -/
def aesRounds : Nat → Byte → List Byte → List Byte → List Byte
  | 0, _, _, s => s
  | n + 1, rcon, k, s =>
    let k := nextKey rcon k
    let t := shiftRows (s.map sbox)
    aesRounds n (gfDouble rcon) k (xorBytes (if n == 0 then t else mixColumns t) k)

/-- AES-128 of one block. -/
def aes128 (key block : List Byte) : List Byte := aesRounds 10 1 key (xorBytes block key)

/-- A block doubled in the field of CMAC. -/
def cmacDouble (b : List Byte) : List Byte :=
  let carry := (b.headD 0).getLsbD 7
  let shifted : List Byte := (b.zip (b.drop 1 ++ [0])).map fun (x : Byte × Byte) => (x.1 <<< (1 : Nat)) ||| (x.2 >>> (7 : Nat))
  if carry then shifted.set 15 (shifted.getD 15 0 ^^^ 0x87) else shifted

/-- CBC over whole blocks and a last one of at most sixteen bytes. -/
def cmacChain (key k1 k2 : List Byte) : Nat → List Byte → List Byte → List Byte
  | 0, x, _ => x
  | n + 1, x, m =>
    if m.length == 16 then aes128 key (xorBytes x (xorBytes m k1))
    else if Nat.blt m.length 16 then aes128 key (xorBytes x (xorBytes (padTo 0 16 (m ++ [0x80])) k2))
    else cmacChain key k1 k2 n (aes128 key (xorBytes x (m.take 16))) (m.drop 16)

/-- The AES-128 CMAC of a message: sixteen bytes. -/
def cmac (key m : List Byte) : List Byte :=
  let zero : List Byte := List.replicate 16 0
  let k1 := cmacDouble (aes128 key zero)
  cmacChain key k1 (cmacDouble k1) (m.length / 16 + 1) zero m

end Sys2Proof.Machine
end

