-- ==== Sys2Proof/Machine/Ledger.lean ====
section
/-! DEFINITION. The Ledger (spec/13_store.md, R385 to R395): its records, its queue, the start scan, the choice of the
writer's next work, carry-forward, and what an interruption leaves. The commands stand in Machine/Store.lean. -/

namespace Sys2Proof.Machine

/-! ### Records -/

/-- The byte an erased Ledger cell reads (R385). -/
def erasedByte : Byte := 0xFF

/-- The 64 words of position `p`. -/
def ledPos (m : List Host.Cell) (p : Nat) : List Word := Mem.words erasedByte m (256 * p) 64

/-- Every byte of position `p` reads 0xFF (R386). -/
def ledErased (m : List Host.Cell) (p : Nat) : Bool := (ledPos m p).all (· == 0xFFFFFFFF)

/-- TYPE and SEQ of word 0 (R386). -/
def recType (ws : List Word) : Nat := (ws.headD 0).toNat / 0x1000000
def recSeq (ws : List Word) : Nat := (ws.headD 0).toNat % 0x1000000

/-- The record types (R387). -/
def recTypes : List Nat := [0x11, 0x21, 0x31, 0x41]

/-- The 64 words are a valid record: a type of R387 and a matching CRC (R386). -/
def recValid (ws : List Word) : Bool :=
  recTypes.contains (recType ws) &&
  CrcKind.of .crc32 (wordsBytes (ws.take 63)) == (ws.drop 63).headD 0

/-- A record from its type, SEQ and words 1 to 62 (R386). -/
def recBuild (typ seq : Nat) (content : List Word) : List Word :=
  let ws := Word.ofNat (typ * 0x1000000 + seq % 0x1000000) :: padTo 0 62 content
  ws ++ [CrcKind.of .crc32 (wordsBytes ws)]

/-- Words 1 to 62 of an event-log record (R388). -/
def logContent (es : List (List Word)) : List Word :=
  padTo 0 62 (Word.ofNat es.length :: 0 :: 0 :: es.flatten)

/-- The valid records of a type, as pairs of SEQ and position. -/
def ledRecords (m : List Host.Cell) (typ : Nat) : List (Nat × Nat) :=
  (List.range 64).filterMap fun p =>
    let ws := ledPos m p
    if recType ws == typ && recValid ws then some (recSeq ws, p) else none

/-- The pair with the highest SEQ, the later one where two are equal. -/
def newestOf : List (Nat × Nat) → Option (Nat × Nat)
  | [] => none
  | x :: xs => match newestOf xs with
    | none => some x
    | some y => if y.1 < x.1 then some x else some y

/-- The position of the newest record of a type (R386). -/
def ledNewest (m : List Host.Cell) (typ : Nat) : Option Nat := (newestOf (ledRecords m typ)).map (·.2)

/-- The position of the newest record of a type but one (R387, the second last-fault slot). -/
def ledPrevious (m : List Host.Cell) (typ : Nat) : Option Nat :=
  let rs := ledRecords m typ
  match newestOf rs with
  | none => none
  | some x => (newestOf (rs.filter (·.2 != x.2))).map (·.2)

/-- The highest SEQ of any valid record, 0 where there is none (R386). -/
def ledSeqMax (m : List Host.Cell) : Nat :=
  (recTypes.map fun t => match newestOf (ledRecords m t) with | none => 0 | some x => x.1).foldl max 0

/-! ### Areas and sectors -/

/-- The area of a record type: 0 record area, 1 event-log area (R387). -/
def areaOf (typ : Nat) : Nat := if typ == 0x41 then 1 else 0

/-- The active sector of an area, from STO_LDG_STAT. -/
def ledActive (s : State) (area : Nat) : Nat :=
  if area == 0 then s.get F.STO_LDG_STAT.RSEC else s.get F.STO_LDG_STAT.LSEC

/-- The other sector of the same area. -/
def sectorPair (sec : Nat) : Nat := if sec % 2 == 0 then sec + 1 else sec - 1

/-- The positions of a sector. -/
def sectorPositions (sec : Nat) : List Nat := (List.range 16).map (16 * sec + ·)

/-- Positions of a sector used so far: all up to and with its last position that is not erased (R391). -/
def sectorUsed (m : List Host.Cell) (sec : Nat) : Nat :=
  16 - ((sectorPositions sec).reverse.takeWhile (ledErased m)).length

/-- Erased positions left in a sector. -/
def sectorLeft (m : List Host.Cell) (sec : Nat) : Nat := 16 - sectorUsed m sec

/-- A sector is usable: its first position holds a valid record, or it was erased since the scan (R391). -/
def sectorUsable (s : State) (sec : Nat) : Bool :=
  s.led.erased.getLsbD sec || recValid (ledPos s.led.flash (16 * sec))

/-- The sector stands freshly erased, ready to become active. -/
def sectorFresh (s : State) (sec : Nat) : Bool :=
  s.led.erased.getLsbD sec && sectorLeft s.led.flash sec == 16

/-- The erased positions left in an area's active sector at which its housekeeping becomes due (R392). -/
def dueAt (area : Nat) : Nat := if area == 0 then 8 else 2

/-- The carry-forward of an area is due: its active sector runs low and the other is not freshly erased (R392). -/
def housekeepingDue (s : State) (area : Nat) : Bool :=
  let act := ledActive s area
  sectorUsable s act && Nat.ble (sectorLeft s.led.flash act) (dueAt area) && !sectorFresh s (sectorPair act)

/-- The copies R392 asks for: kept records that lie only in the other sector, both of type 0x11 when either does. -/
def carryList (s : State) : List Nat :=
  let m := s.led.flash
  let oth := sectorPair (ledActive s 0)
  let inOther : Option Nat → Bool := fun o => match o with | none => false | some p => p / 16 == oth
  let faults := [ledPrevious m 0x11, ledNewest m 0x11]
  let f := if faults.any inOther then faults.filterMap id else []
  let one := fun t => let o := ledNewest m t; if inOther o then o.toList else []
  f ++ one 0x21 ++ one 0x31

/-- The copies still to be made: those listed when the carry-forward became due, else those it would list. -/
def carryLeft (s : State) : List Nat :=
  match s.led.carry with
  | some ps => ps
  | none => if housekeepingDue s 0 then carryList s else []

/-- Erased positions a new request of an area may take: in the record area, more must remain than there are copies
still to be made (R392).
(DEDUCED, log entry 66.) -/
def positionFor (s : State) (area : Nat) : Option Nat :=
  let act := ledActive s area
  let m := s.led.flash
  let left := sectorLeft m act
  let reserve := if area == 0 then (carryLeft s).length else 0
  if sectorUsable s act && Nat.blt reserve left then some (16 * act + sectorUsed m act) else none

/-- The position a carry-forward copy or a second attempt takes: the active sector's next erased one. -/
def positionNext (s : State) (area : Nat) : Option Nat :=
  let act := ledActive s area
  let m := s.led.flash
  if sectorUsable s act && Nat.blt 0 (sectorLeft m act) then some (16 * act + sectorUsed m act) else none

/-! ### Requests -/

/-- An event-log entry opens a record of its own: there is none queued, or the newest is full, or is being written or
waits for its second attempt (R389). -/
def logOpens (s : State) : Bool :=
  let items := (s.led.writing.map (·.item)).toList ++ s.led.retry
  let busy := items.contains (.record 0x41) && s.led.q41.length == 1
  match s.led.q41.getLast? with
  | none => true
  | some es => busy || Nat.ble 7 es.length

/-- No Ledger housekeeping of R392 starts any more: the shut-down is past step 4 of R405, or a thermal shutdown has begun
(R200, R393).
(DEDUCED, log entry 66.) -/
def ledClosing (s : State) : Bool :=
  [HaltStep.lastOrders, .record, .final].contains s.ptr.haltStep || s.thm.closing

/-- The shut-down is past step 4 and the event-log area has no erased position (R405). -/
def logClosed (s : State) : Bool := ledClosing s && (positionFor s 1).isNone

/-- An event-log entry is requested: the TIME of the event, source and DATA0 to DATA3 (R388, R389). -/
def logEntryAt (t : Time) (src : Nat) (ds : List Word) (s : State) : State :=
  let e := Word.ofNat (src * 0x1000000) :: (padTo 0 4 ds ++ timeWords t ++ [0])
  let q := s.led.q41
  if logClosed s || (logOpens s && Nat.ble 5 q.length) then
    (s.bump F.STO_LDG_LOG.DROP 1).raise F.STO_EVT.LOG_DROP
  else if logOpens s then
    { s with led := { s.led with q41 := q ++ [[e]] } }
  else
    { s with led := { s.led with q41 := q.dropLast ++ [q.getLastD [] ++ [e]] } }

/-- An event-log entry of an event of this moment is requested (R388, R389). -/
def logEntry (src : Nat) (ds : List Word) (s : State) : State := logEntryAt s.timeNow src ds s

/-- Records queued, with the one being written (R389). -/
def ledQueued (s : State) : Nat :=
  s.led.q31.isSome.toNat + s.led.q21.isSome.toNat + s.led.q11.isSome.toNat + s.led.q41.length

/-- The queued record the writer takes first: 0x31, 0x21, 0x11, 0x41 (R389). -/
def ledFront (s : State) : Option (Nat × List Word) :=
  match s.led.q31, s.led.q21, s.led.q11, s.led.q41 with
  | some c, _, _, _ => some (0x31, c)
  | none, some c, _, _ => some (0x21, c)
  | none, none, some c, _ => some (0x11, c)
  | none, none, none, es :: _ => some (0x41, logContent es)
  | none, none, none, [] => none

/-- The content of the queued record of a type. -/
def ledContent (s : State) (typ : Nat) : Option (List Word) :=
  if typ == 0x31 then s.led.q31 else if typ == 0x21 then s.led.q21 else if typ == 0x11 then s.led.q11
  else s.led.q41.head?.map logContent

/-- The queued record of a type leaves the queue. -/
def ledTake (typ : Nat) (s : State) : State :=
  { s with led :=
      if typ == 0x31 then { s.led with q31 := none } else if typ == 0x21 then { s.led with q21 := none }
      else if typ == 0x11 then { s.led with q11 := none } else { s.led with q41 := s.led.q41.tail } }

/-! ### The writer -/

/-- BUSY and ERASING follow the writer (R398). -/
def ledStat (s : State) : State :=
  (s.putB F.STO_LDG_STAT.BUSY (s.led.writing.isSome || s.led.erasing.isSome)).putB F.STO_LDG_STAT.ERASING
    s.led.erasing.isSome

/-- STO_LDG_NEW and STO_LDG_LOG.NEWEST name the newest records, 0xFF for none (R395). -/
def ledIndex (s : State) : State :=
  let m := s.led.flash
  let at? : Option Nat → Nat := fun o => o.getD 0xFF
  ((((s.put F.STO_LDG_NEW.LO (at? (ledNewest m 0x31))).put F.STO_LDG_NEW.COMMIT (at? (ledNewest m 0x21))).put
    F.STO_LDG_NEW.FAULT0 (at? (ledNewest m 0x11))).put F.STO_LDG_NEW.FAULT1 (at? (ledPrevious m 0x11))).put
    F.STO_LDG_LOG.NEWEST (at? (ledNewest m 0x41))

/-- A full active sector gives way to the other once that is freshly erased (R392). -/
def ledTurn (area : Nat) (s : State) : State :=
  let act := ledActive s area
  let oth := sectorPair act
  if sectorLeft s.led.flash act == 0 && sectorFresh s oth then
    s.put (if area == 0 then F.STO_LDG_STAT.RSEC else F.STO_LDG_STAT.LSEC) oth
  else s

/-- The work the Ledger writer takes up next. -/
inductive LedJob where
  | none
  | write (item : LedItem) (typ : Nat) (content : List Word) (pos : Nat) (attempt : Nat)
  | erase (sec : Nat)
  deriving DecidableEq, Repr

/-- The housekeeping an area needs next (R391, R392): the erase of an unusable active sector, the next copy, or the
erase of the other sector.
(DEDUCED, log entry 66.) -/
def areaJob (s : State) (area : Nat) : LedJob :=
  let act := ledActive s area
  if !sectorUsable s act then .erase act
  else if ledClosing s then .none
  else match (if area == 0 then carryLeft s else []) with
    | p :: _ =>
      match positionNext s area with
      | some q => let ws := ledPos s.led.flash p; .write (.copy p) (recType ws) ((ws.drop 1).take 62) q 0
      | none => .none
    | [] => if housekeepingDue s area then .erase (sectorPair act) else .none

/-- The choice of R389 and R392: a second attempt, then the first queued record where a position is available to it,
else the housekeeping its area needs; with the queue empty, the housekeeping that is due in either area.
(DEDUCED, log entry 66.) -/
def ledJob (s : State) : LedJob :=
  if s.led.writing.isSome || s.led.erasing.isSome then .none
  else
    let again : LedItem → Option LedJob := fun item => match item with
      | .record t =>
        match ledContent s t, positionNext s (areaOf t) with
        | some c, some q => some (.write (.record t) t c q 1)
        | _, _ => none
      | .copy p =>
        match positionNext s 0 with
        | some q => let ws := ledPos s.led.flash p; some (.write (.copy p) (recType ws) ((ws.drop 1).take 62) q 1)
        | none => none
    match s.led.retry.findSome? again with
    | some j => j
    | none =>
      match ledFront s with
      | some (t, c) =>
        match positionFor s (areaOf t) with
        | some q => .write (.record t) t c q 0
        | none => areaJob s (areaOf t)
      | none =>
        if housekeepingDue s 0 then areaJob s 0
        else if housekeepingDue s 1 then areaJob s 1 else .none

/-- A fault record takes the SUPP of its writing time into word 3 (R177). -/
def ledFill (s : State) (item : LedItem) (typ : Nat) (content : List Word) : List Word :=
  if item == .record 0x11 && typ == 0x11 then
    content.take 2 ++ (((content.getD 2 0) &&& 0xFFFFFF00) ||| Word.ofNat (s.get F.PHC_FLT.SUPP)) :: content.drop 3
  else content

/-- The writer starts a job. The copies of a carry-forward are listed when the first of its work starts (R392). -/
def ledBegin (j : LedJob) (s : State) : State :=
  match j with
  | .none => s
  | .write item typ content pos attempt =>
    let content := ledFill s item typ content
    let w : LedWrite := ⟨item, recBuild typ (ledSeqMax s.led.flash + 1) content, pos, attempt⟩
    let s := if item == .record 0x11 then { s with led := { s.led with q11 := some content } } else s
    let carry := match item with
      | .copy _ => some (carryLeft s)
      | .record _ => s.led.carry
    ledStat { s with led := { s.led with writing := some w, retry := s.led.retry.filter (· != item), carry := carry } }
  | .erase sec => ledStat { s with led := { s.led with erasing := some sec } }

/-- LEDGER_WRITE_START: the writer turns to its next work (R389, R392). -/
def ledStart (s : State) : State :=
  let s := ledTurn 1 (ledTurn 0 s)
  ledBegin (ledJob s) s

/-- An erase that is due starts by itself once the writer is free (R392); writes wait for their own command. -/
def ledKick (s : State) : State :=
  if s.thm.closing then s
  else
  let s := ledTurn 1 (ledTurn 0 s)
  match ledJob s with
  | .erase sec => ledBegin (.erase sec) s
  | _ => s

/-- What a failed write leaves at its position: open, but no valid record (R391).
(DESIGN CHOICE, log entry 9.) -/
def ledLeftover (s : State) : List Word :=
  let ws := padTo 0xFFFFFFFF 64 (Config.ledgerLeft s.free)
  if recValid ws then padTo 0xFFFFFFFF 64 [] else ws

/-- A position reads `ws`. -/
def ledPut (pos : Nat) (ws : List Word) (s : State) : State :=
  { s with led := { s.led with flash := Mem.setWords erasedByte s.led.flash (256 * pos) ws } }

/-- The position of a write holds `ws` from now on. -/
def ledProgram (pos : Nat) (ws : List Word) (s : State) : State :=
  let s := ledPut pos ws s
  { s with led := { s.led with unsure := s.led.unsure.filter (·.1 != pos) } }

/-- A copy that was made, or a record of its type that was written, leaves the list of copies to make. -/
def carryDone (item : LedItem) (s : State) : State :=
  match s.led.carry with
  | none => s
  | some ps =>
    match item with
    | .copy p => { s with led := { s.led with carry := some (ps.filter (· != p)) } }
    | .record t =>
      let old := ps.filter fun p => recType (ledPos s.led.flash p) != t
      let new := (carryList s).filter fun p => recType (ledPos s.led.flash p) == t
      { s with led := { s.led with carry := some (new ++ old) } }

/-- The record written leaves the queue, unless a newer capture has taken its place (R175). -/
def ledRetire (w : LedWrite) (s : State) : State :=
  match w.item with
  | .record t =>
    if (ledContent s t).map (padTo 0 62) == some ((w.words.drop 1).take 62) then ledTake t s else s
  | .copy _ => s

/-- A write ends verified: the record stands, LDG_DONE is set, the index follows (R390). -/
def ledDone (w : LedWrite) (s : State) : State :=
  let s := ledProgram w.pos w.words { s with led := { s.led with writing := none } }
  let s := ledRetire w s
  ledKick (ledStat (ledIndex ((carryDone w.item s).raise F.STO_EVT.LDG_DONE)))

/-- A write fails its verify: the position is used, VFAIL counts, and a second attempt follows or the record is
discarded (R391). A copy that fails twice is still to be made, since the erase waits for every copy (R392).
(DEDUCED, log entry 66.) -/
def ledFailed (w : LedWrite) (s : State) : State :=
  let s := (ledProgram w.pos (ledLeftover s) s).draw
  let s := { s with led := { s.led with writing := none } }
  if w.attempt == 0 then
    ledStat ({ s with led := { s.led with retry := s.led.retry ++ [w.item] } }.bumpSat F.STO_LDG_STAT.VFAIL 1)
  else ledKick (ledStat ((ledRetire w s).raise F.STO_EVT.LDG_FAIL))

/-- The record the writer took from its queue has an uncorrectable error there (R373): it is discarded, and nothing is
written. -/
def ledLost (w : LedWrite) (s : State) : State :=
  let s := { s with led := { s.led with writing := none } }
  ledKick (ledStat ((ledRetire w s).raise F.STO_EVT.LDG_FAIL))

/-- A sector erase ends (R390): its positions read 0xFF, ERASES counts, the carry-forward it ended is over. -/
def ledErasedDone (sec : Nat) (s : State) : State :=
  let s := { s with led := { s.led with
              flash := Sparse.keep (fun a => !(Nat.ble (4096 * sec) a && Nat.blt a (4096 * sec + 4096))) s.led.flash,
              unsure := s.led.unsure.filter fun x => x.1 / 16 != sec,
              erasing := none, erased := s.led.erased ||| (1 <<< sec),
              carry := if sec < 2 then none else s.led.carry } }
  ledKick (ledStat (ledIndex (s.bumpSat F.STO_LDG_STAT.ERASES 1)))

/-! ### The start scan -/

/-- The active sector the scan finds for an area: that of its highest SEQ (R391). -/
def scanSector (m : List Host.Cell) (area : Nat) : Nat :=
  let rs := (if area == 0 then [0x11, 0x21, 0x31] else [0x41]).flatMap (ledRecords m)
  match newestOf rs with
  | some x => x.2 / 16
  | none => 2 * area

/-- Positions left open by an abandoned erase read as they may: erased, as before the erase, or neither (R391).
(DESIGN CHOICE, log entry 9.) -/
def unsureRead (s : State) : State :=
  let n := s.free
  (s.each s.led.unsure fun x s =>
    let ws := padTo 0xFFFFFFFF 64 (Config.eraseLeft n x.1)
    ledPut x.1 (if recValid ws then x.2 else ws) s).draw

/-- The scan of R391, after D5 switches on: newest records, active sectors, nothing erased since. What an abandoned erase
left may read differently than before.
(DEDUCED, log entry 66.) -/
def ledgerScan (s : State) : State :=
  let s := if s.led.unsure.isEmpty then s else unsureRead s
  let m := s.led.flash
  let s := { s with led := { s.led with erased := 0, carry := none, writing := none, retry := [], erasing := none } }
  ledIndex ((s.put F.STO_LDG_STAT.RSEC (scanSector m 0)).put F.STO_LDG_STAT.LSEC (scanSector m 1))

/-! ### Interruptions (R393) -/

/-- An abandoned erase leaves each position of its sector open (R391).
(DESIGN CHOICE, log entry 9.) -/
def eraseAbandon (sec : Nat) (s : State) : State :=
  let held := (sectorPositions sec).map fun p =>
    (p, ((s.led.unsure.find? (·.1 == p)).map (·.2)).getD (ledPos s.led.flash p))
  unsureRead { s with led := { s.led with
    erasing := none, unsure := s.led.unsure.filter (fun x => x.1 / 16 != sec) ++ held } }

/-- The erase in progress is abandoned, where there is one. -/
def eraseStop (s : State) : State :=
  match s.led.erasing with
  | some sec => eraseAbandon sec s
  | none => s

/-- The record being written is aborted; the previous record stands. -/
def writeAbort (s : State) : State :=
  match s.led.writing with
  | some w => { (ledProgram w.pos (ledLeftover s) s).draw with
      led := { (ledProgram w.pos (ledLeftover s) s).draw.led with writing := none } }
  | none => s

/-- The record being written is completed. -/
def writeComplete (s : State) : State :=
  match s.led.writing with
  | some w => ledDone w s
  | none => s

/-- The queue is emptied. -/
def queueDrop (s : State) : State :=
  { s with led := { s.led with q31 := none, q21 := none, q11 := none, q41 := [], retry := [], carry := none } }

/-- NRST, loss of power, VSTK undervoltage, the supply limit and the Porter hard limit (R393).
(DEDUCED, log entry 34.) -/
def ledgerCut (s : State) : State := queueDrop (eraseStop (writeAbort s))

/-- The Guard thermal shutdown (R393): the record being written is completed, an erase abandoned, the rest discarded. -/
def ledgerThermal (s : State) : State := queueDrop (eraseStop (writeComplete s))

/-! ### Reading -/

/-- A read of STO_LDG_RD: the word at ADDR, and ADDR advances by one word, wrapping at 16,384 bytes (R395, R398). -/
def ledgerRead (s : State) : Word × State :=
  let a := 4 * s.get F.STO_LDG_RA.ADDR
  (Mem.word erasedByte s.led.flash a, s.put F.STO_LDG_RA.ADDR (s.get F.STO_LDG_RA.ADDR + 1))

end Sys2Proof.Machine
end

