-- ==== Sys2Proof/Machine/Flags.lean ====
section
/-! DEFINITION. What the part computes from its state at every instant: the Guard's permits and status (R340, R366),
the output pins (R313, R341), the head's lock (R244), and the event lines (R310). -/

namespace Sys2Proof.Machine

/-! ### The Guard's block in use (R359, R360) -/

/-- The defaults of R359, used while no valid block is loaded. -/
def grdDefault : Nat → Word
  | 2 => 0x00FFFFFF
  | 3 => 0x000320DF
  | 4 => 0x00000300
  | 5 => 0xFF00FF00
  | 6 => 0xFF00FF00
  | 7 => 0x0009FFFF
  | 8 => 0x00140003
  | 9 => 0x00140003
  | 10 => 0x00140003
  | 11 => 0x00140003
  | 12 => 0x00000307
  | _ => 0

/-- Word `k` of the safety parameter block in use. -/
def State.grdWord (s : State) (k : Nat) : Word :=
  if s.get F.GRD_STAT.BLK == 1 then s.reg (A.GRD_P k) else grdDefault k

/-- Pair `k` is judged: its EN bit (R348). -/
def State.pairEn (s : State) (k : Nat) : Bool := (s.grdWord (8 + k)).getLsbD 31

/-- Pair `k`'s demand removes LP: its ROLE bit (R350). -/
def State.pairRole (s : State) (k : Nat) : Bool := (s.grdWord (8 + k)).getLsbD 30

/-- Pair `k`'s demand latches: its LATCH bit (R350). -/
def State.pairLatch (s : State) (k : Nat) : Bool := (s.grdWord (8 + k)).getLsbD 29

/-- A channel of pair `k` is open after debounce: SIAk, or SIBk where `b` (R348). -/
def State.siOpen (s : State) (k : Nat) (b : Bool) : Bool := !s.rbit A.GRD_SI (2 * k + b.toNat)

/-- The device is in a state in which the Guard judges its pairs (R347). -/
def State.grdJudging (s : State) : Bool := s.on 6 && s.inDev [.start, .run, .recover, .halt]

/-- Pair `k` demands: either of its channels is open (R350). -/
def State.demanding (s : State) (k : Nat) : Bool :=
  s.grdJudging && s.pairEn k && (s.siOpen k false || s.siOpen k true)

/-- Pair `k` disagrees: exactly one of its channels is open (R351). -/
def State.disagreeing (s : State) (k : Nat) : Bool :=
  s.grdJudging && s.pairEn k && (s.siOpen k false != s.siOpen k true)

/-- The local permit LP (R340); it depends on D6 and not on D4 or D5 (R16).
(DEDUCED, log entry 58.) -/
def State.lp (s : State) : Bool :=
  s.on 6 && s.get F.GRD_STAT.BLK == 1 && s.get F.GRD_STAT.COMMIT == 1 && s.bit F.GRD_STAT.SUT_DONE &&
  s.reg A.GRD_FLT == 0 && !([0, 1, 2, 3].any fun k => s.pairRole k && s.demanding k) &&
  s.inDev [.start, .run, .recover]

/-- The enabling conditions GRD_OK (R340).
(DEDUCED, log entry 58.) -/
def State.grdOk (s : State) : Bool :=
  s.lp && s.bit F.GRD_STAT.FLI_OK && s.bit F.GRD_STAT.WD_ARMED && s.inDev [.run, .recover]

/-- GST (R366). -/
def State.gst (s : State) : BitVec 4 :=
  BitVec.ofBool (s.on 6 && s.reg A.GRD_FLT != 0) ++ BitVec.ofBool (s.on 6 && s.bit F.GRD_STAT.FLI_OK) ++
  BitVec.ofBool s.lp ++ BitVec.ofBool s.grdOk

/-- LROLE of the block in use: this device originates the fault loop (R353). -/
def State.originator (s : State) : Bool := (s.grdWord 13).getLsbD 0

/-- FLO toggles (R354). -/
def State.floOn (s : State) : Bool := s.lp && (s.originator || s.bit F.GRD_STAT.FLI_OK)

/-- FLO toggles; else it holds its last level, or floats with D6 off (R353, R354, R448). -/
def State.floToggles (s : State) : Bool := s.on 6 && s.floOn

/-- The level FLO holds while it does not toggle (R353).
(DESIGN CHOICE, log entry 82.) -/
def State.floLevel (s : State) : Bool := Config.floStop s.grd.floStops

/-! ### The safety output pins -/

/-- The Innkeeper is running or waiting: STATE 1 or 2 (R293). -/
def State.inkRuns (s : State) : Bool := s.ink.state == .running || s.ink.state == .waiting

/-- SOA as the part drives it (R313). -/
def State.soaDriven (s : State) : Bool := s.bit F.INK_SAFE.SOA && s.inkRuns && s.grdOk

/-- SOA as the Guard expects it (R342). -/
def State.soaExpected (s : State) : Bool := s.bit F.INK_SAFE.SOA && s.grdOk

/-- The level at the SOA pin: what was last read where that differs from what is driven. -/
def State.soaPin (s : State) : Bool := s.grd.soaRead.getD s.soaDriven

/-- The level at the SOB pin. -/
def State.sobPin (s : State) : Bool := s.grd.sobRead.getD s.grdOk

/-! ### Chain time -/

/-- CHN_TIME_STAT.LOCK, 1 in the head (R244). -/
def State.lock (s : State) : Bool := s.net.headNow || s.bit F.CHN_TIME_STAT.LOCK

/-- The alignment base B (R250). -/
def State.base (s : State) : Time := s.reg A.CHN_EPOCH_BH ++ s.reg A.CHN_EPOCH_BL

/-- MEAS_TRIG.SRC in use: the trigger runs from the chain's base (R39). -/
def State.trigChain (s : State) : Bool := F.MEAS_TRIG.SRC.read s.meas.trigUse == 1

/-- MEAS_STAT.SYNC (R42). -/
def State.sync (s : State) : Bool := s.trigChain && s.lock

/-! ### Event lines -/

/-- A ring event is pending (R383). -/
def State.ringEvent (s : State) : Bool := s.line A.STO_RING_EVT A.STO_RING_EVT_EN

/-- STO_EVT as it reads, with RING (R383). -/
def State.stoEvt (s : State) : Word := F.STO_EVT.RING.write (s.reg A.STO_EVT) s.ringEvent.toNat

/-- CHN_NET_EVT as it reads, with RING (R383). -/
def State.netEvt (s : State) : Word := F.CHN_NET_EVT.RING.write (s.reg A.CHN_NET_EVT) s.ringEvent.toNat

/-- The event line of each block, by line number (R310). -/
def State.evLine (s : State) : Nat → Bool
  | 0 => s.reg A.INK_SLATL != 0 || s.reg A.INK_SLATH != 0 || s.reg A.INK_SLATG != 0
  | 1 => s.line A.GRD_EVT A.GRD_EVT_EN
  | 2 => s.bit F.INK_WDC.FRESH
  | 3 => s.line A.MEAS_EVT A.MEAS_EVT_EN
  | 4 => s.line A.SDP_EVT A.SDP_EVT_EN
  | 5 => s.line A.IMP_EVT A.IMP_EVT_EN
  | 6 => s.line A.PHC_EVT A.PHC_EVT_EN
  | 7 => s.line A.BAL_EVT A.BAL_EVT_EN
  | 8 => s.line A.THM_EVT A.THM_EVT_EN
  | 9 => s.line (A.CHN_P_EVT 0) (A.CHN_P_EVT_EN 0) || s.line (A.CHN_P_EVT 1) (A.CHN_P_EVT_EN 1) ||
         (s.netEvt &&& s.reg A.CHN_NET_EVT_EN) != 0
  | 10 => s.line A.SAT_EVT A.SAT_EVT_EN
  | 11 => (s.stoEvt &&& s.reg A.STO_EVT_EN) != 0
  | 12 => s.line A.PTR_EVT A.PTR_EVT_EN
  | 13 => s.line A.TRU_EVT A.TRU_EVT_EN
  | 14 => !s.ink.cpl.isEmpty
  | 15 => s.bit F.INK_EVT.MBX
  | 16 => s.rbit A.INK_EVT 0
  | 17 => s.rbit A.INK_EVT 1
  | 18 => s.rbit A.INK_EVT 2
  | 19 => s.rbit A.INK_EVT 3
  | 20 => s.rbit A.INK_EVT 8
  | 21 => s.rbit A.INK_EVT 9
  | 22 => s.rbit A.INK_EVT 10
  | 23 => s.rbit A.INK_EVT 11
  | 24 => s.rbit A.INK_EVT 12
  | 25 => s.rbit A.INK_EVT 13
  | 26 => s.rbit A.INK_EVT 14
  | 27 => s.rbit A.INK_EVT 15
  | _ => false

/-- Bits from a rule, bit 0 upward. -/
def bitsWord (n : Nat) (f : Nat → Bool) : Word :=
  (List.range n).foldl (fun w i => if f i then w ||| (1 <<< i) else w) 0

/-- INK_EPEND: all the lines (R310). -/
def State.epend (s : State) : Word := bitsWord 28 s.evLine

/-- HIRQ is low: an enabled network event is pending (R264). -/
def State.hirqLow (s : State) : Bool := (s.netEvt &&& s.reg A.CHN_HOST_IRQEN) != 0

end Sys2Proof.Machine
end

