-- ==== Sys2Proof/Machine/Link.lean ====
section
/-! DEFINITION. The link layer's rooms and counters (spec/07_chain_link.md, R217 to R228) and the choice of a route
(R234, R235). The commands stand in Machine/Ports.lean. -/

namespace Sys2Proof.Machine

/-! ### Ports -/

/-- The state of a port. -/
def State.port (s : State) : Port → PortSt
  | .north => s.north
  | .south => s.south

/-- The state of a port replaced. -/
def State.setPort (s : State) (p : Port) (q : PortSt) : State :=
  match p with
  | .north => { s with north := q }
  | .south => { s with south := q }

/-- The state of a port changed. -/
def State.onPort (s : State) (p : Port) (f : PortSt → PortSt) : State := s.setPort p (f (s.port p))

/-- A field of a port's register block. -/
def pf (p : Port) (f : Nat → Fld) : Fld := f p.idx

/-- CHN_Px_STAT.STATE (R210): 0 SILENT, 1 WAKE_TONE, 2 TRAIN, 3 ALIGN, 4 UP. -/
def State.linkState (s : State) (p : Port) : Nat := s.get (F.CHN_P_STAT.STATE p.idx)

/-- The port is in UP. -/
def State.portUp (s : State) (p : Port) : Bool := s.linkState p == 4

/-- The power domain of a port: D7 North, D8 South (R11). -/
def portDomain : Port → Nat
  | .north => 7
  | .south => 8

/-! ### Frames -/

/-- A reliable frame: SAFETY or CONTROL (R224). -/
def isReliable (f : Frame) : Bool := Nat.blt f.cls 2

/-- A CONTROL request (R218). -/
def isRequest (f : Frame) : Bool := f.cls == 1 && f.typ % 64 / 32 == 0

/-- The header bytes and the LEN payload bytes of a frame in the order of R207: each word most significant byte first. -/
def frameBytes (f : Frame) : List Byte :=
  let w0 := Word.ofNat (f.cls % 4 * 2 ^ 30 + f.typ % 64 * 2 ^ 24 + f.src % 128 * 2 ^ 17 + f.dst % 128 * 2 ^ 10 +
    f.gen % 16 * 64 + f.gst % 16 * 4)
  let w1 := Word.ofNat (f.seq % 256 * 2 ^ 24 + f.len % 512 * 2 ^ 15 + f.strm % 32 * 2 ^ 10)
  let w2 := Word.ofNat f.time
  let crd := fun k => f.crd.getD k 0 % 16
  let w3 := Word.ofNat (crd 3 * 2 ^ 28 + crd 2 * 2 ^ 24 + crd 1 * 2 ^ 20 + crd 0 * 2 ^ 16 + f.ack % 256 * 256)
  let bytes := fun (ws : List Word) => ws.flatMap fun w => (wordBytes w).reverse
  bytes [w0, w1, w2, w3] ++ (bytes f.payload).take f.len

/-- The CRC trailer of a frame (R219). -/
def frameCrc (f : Frame) : Word := CrcKind.of .crc32c (frameBytes f)

/-- The slot this device holds, 0x7F when none (R217). -/
def State.slot (s : State) : Nat := if s.bit F.CHN_NET_STAT.SLOTV then s.get F.CHN_NET_STAT.SLOT else 0x7F

/-- A frame this device originates (R217): class, type, destination, stream slot, payload bytes' length and words. -/
def State.newFrame (s : State) (cls typ dst strm len : Nat) (payload : List Word) : Frame :=
  { cls := cls, typ := typ, src := s.slot, dst := dst, gen := s.get F.CHN_NET_STAT.GEN, gst := 0, seq := 0, len := len,
    strm := strm, time := 0, crd := [0, 0, 0, 0], ack := 0, payload := payload, crcOk := true, formOk := true }

/-! ### Transmit rooms -/

/-- The rooms (R374). -/
inductive Room where
  | safetyRx | safetyTx | guardQueue
  | controlRx | controlTx | endpointRequest | endpointResponse | inkRequest | hostCommand | hostResponse | mirrorStaging
  | streamRx | streamTx | streamOut | cellarStaging
  | bulkRx | bulkTx | inkBulk | readOut
  deriving DecidableEq, Repr, Inhabited

/-- The buffers of a room (R374); those of a port, for each of the two. -/
def Room.size : Room → Nat
  | .safetyRx => 2
  | .safetyTx => 4
  | .guardQueue => 8
  | .controlRx => 8
  | .controlTx => 16
  | .endpointRequest => 32
  | .endpointResponse => 32
  | .inkRequest => 16
  | .hostCommand => 16
  | .hostResponse => 32
  | .mirrorStaging => 64
  | .streamRx => 32
  | .streamTx => 96
  | .streamOut => 48
  | .cellarStaging => 640
  | .bulkRx => 8
  | .bulkTx => 8
  | .inkBulk => 64
  | .readOut => 32

/-- The transmit and the receive room of a class (R218, R374). -/
def txOf : Nat → Room
  | 0 => .safetyTx
  | 1 => .controlTx
  | 2 => .streamTx
  | _ => .bulkTx
def rxOf : Nat → Room
  | 0 => .safetyRx
  | 1 => .controlRx
  | 2 => .streamRx
  | _ => .bulkRx

/-- Buffers of a transmit room by class (R374). -/
def txRoom (k : Nat) : Nat := (txOf k).size

/-- Frames of a class in a port's transmit room. -/
def PortSt.txCount (q : PortSt) (cls : Nat) : Nat := (q.tx.filter fun t => t.frame.cls == cls).length

/-- A port's transmit room takes the frame: a buffer is free, and for a CONTROL request one beyond the two held for
responses (R374). -/
def PortSt.hasRoom (q : PortSt) (f : Frame) : Bool :=
  Nat.blt (q.txCount f.cls) (txRoom f.cls) &&
  (!isRequest f || Nat.blt (q.tx.filter fun t => isRequest t.frame).length 14)

/-- A frame enters a port's transmit room. -/
def enqueue (p : Port) (f : Frame) (s : State) : State :=
  s.onPort p fun q => { q with tx := q.tx ++ [⟨f, .new, 0⟩] }

/-- Two SAFETY frames of the network layer tell the same thing, so that the newer takes the older's place while it waits:
NET_LINK of one port, or the head's frame of its step in progress.
(DESIGN CHOICE, log entry 80.) -/
def sameNews (f g : Frame) : Bool :=
  f.cls == 0 && g.cls == 0 &&
  (if f.typ == 0x0B then g.typ == 0x0B && (f.payload.headD 0).getLsbD 30 == (g.payload.headD 0).getLsbD 30
   else g.typ != 0x0B)

/-- A frame this device originated enters the transmit room, or waits for a buffer there, in the host command room where
`host` says so; waiting SAFETY content merges as that of rank 1 does (R21).
(DESIGN CHOICE, log entry 80.) -/
def offerFrom (host : Bool) (p : Port) (f : Frame) (s : State) : State :=
  if (s.port p).hasRoom f then enqueue p f s
  else
    let others := s.net.outbox.filter fun x => !(x.port == p && sameNews f x.frame)
    { s with net := { s.net with outbox := others ++ [⟨p, f, host⟩] } }

/-- A frame of the network layer, the Guard or the Innkeeper is offered to a port.
(DESIGN CHOICE, log entry 80.) -/
def offer (p : Port) (f : Frame) (s : State) : State := offerFrom false p f s

/-! ### Receive rooms: releases (R222) -/

/-- The list with its `k`-th member changed. -/
def modAt {α : Type} (xs : List α) (k : Nat) (f : α → α) : List α :=
  match xs, k with
  | [], _ => []
  | x :: xs, 0 => f x :: xs
  | x :: xs, k + 1 => x :: modAt xs k f

/-- One buffer of class `k` is freed: counted as released while no more than 15 releases go unsent (R222). -/
def PortSt.release (q : PortSt) (k : Nat) : PortSt :=
  if Nat.blt (q.released.getD k 0 - q.sentRel.getD k 0) 15 then
    { q with released := modAt q.released k (· + 1), ackWaits := true }
  else { q with uncounted := modAt q.uncounted k (· + 1), ackWaits := true }

/-- `n` buffers of class `k` are freed. -/
def PortSt.releaseN (q : PortSt) (k : Nat) : Nat → PortSt
  | 0 => q
  | n + 1 => (q.release k).releaseN k n

/-- Buffers of a receive room by class (R221, R374). -/
def rxRoom (k : Nat) : Nat := (rxOf k).size

/-- A port on entering UP: counters and sequence numbers start afresh, and each free buffer counts as released (R222,
R223, R224, R226). -/
def PortSt.enterUp (q : PortSt) : PortSt :=
  let q := { q with
    lastCrd := [0, 0, 0, 0], released := [0, 0, 0, 0], sentRel := [0, 0, 0, 0], uncounted := [0, 0, 0, 0],
    txSeq := 0, txStream := 0, txBulk := 0, rxSeq := 0, rxStream := 0, rxBulk := 0, discards := 0 }
  [0, 1, 2, 3].foldl (fun q k => q.releaseN k (rxRoom k - (q.rx.filter fun x => x.frame.cls == k).length)) q

/-! ### The line -/

/-- The ACK value: the SEQ of the last reliable frame accepted in order, 0xFF before the first (R224). -/
def PortSt.ack (q : PortSt) : Nat := (q.rxSeq - 1).toNat

/-- A frame goes out on the line with the fields of this hop (R217): GST, TIME, CRD and ACK. The releases it carries are
sent; buffers beyond fifteen are counted from then on (R222). -/
def sendLine (p : Port) (f : Frame) (s : State) : State :=
  let q := s.port p
  let f := { f with gst := s.gst.toNat, time := s.timeNow.toNat % 2 ^ 32, crd := q.released.map (· % 16), ack := q.ack }
  let take := q.uncounted.map (min 15)
  let q := { q with
    sentRel := q.released, released := List.zipWith (· + ·) q.released take,
    uncounted := List.zipWith (· - ·) q.uncounted take, ackWaits := take.any (· != 0), line := some f }
  (s.setPort p q).bump (F.CHN_P_FTX.COUNT p.idx) 1

/-! ### Routes -/

/-- The position of a slot, 0xFF where none is known (R233): byte `s` mod 4 of CHN_POS(s / 4). -/
def State.pos (s : State) (slot : Nat) : Nat :=
  ((s.reg (A.CHN_POS (slot / 4))).extractLsb' (8 * (slot % 4)) 8).toNat

/-- The port the position table names for a slot, before the state of the links is looked at (R234). -/
def State.wantPort (s : State) (slot : Nat) : Option Port :=
  let q := s.pos slot
  if q == 0xFF then none
  else
    let d : Int := s.get F.CHN_NET_STAT.D
    let p : Int := s.get F.CHN_NET_STAT.POS
    let f := ((q : Int) - p) % d
    let south := if s.bit F.CHN_NET_STAT.BRKV then decide (f ≤ ((s.get F.CHN_NET_STAT.BRK : Int) - p) % d)
      else decide (f ≤ (p - (q : Int)) % d)
    some (if south then .south else .north)

/-- The port a frame for another device's slot leaves by (R234); `arrived` is the port it came in on. -/
def State.route (s : State) (slot : Nat) (arrived : Option Port) : Option Port :=
  match s.wantPort slot with
  | none => none
  | some p =>
    let p := if s.portUp p then p else p.opp
    if s.portUp p && arrived != some p then some p else none

/-- A frame has no route: it is discarded and counted (R234). -/
def noRoute (s : State) : State := (s.bump F.CHN_NET_CNT.NOROUTE 1).raise F.CHN_NET_EVT.NOROUTE

/-- The ports a broadcast of this device leaves by (R235): South alone while the ring is intact, else every port in UP. -/
def State.bcastPorts (s : State) : List Port :=
  let up := [Port.north, .south].filter s.portUp
  if !s.bit F.CHN_NET_STAT.BRKV && up.length == 2 then [.south] else up

/-- A broadcast this device originates is offered to its ports (R235). -/
def broadcastFrom (host : Bool) (f : Frame) (s : State) : State := s.each s.bcastPorts fun p s => offerFrom host p f s
def broadcast (f : Frame) (s : State) : State := broadcastFrom false f s

/-- A frame for another device leaves by its route, or is discarded (R234). -/
def sendRouted (f : Frame) (s : State) : State :=
  match s.route f.dst none with
  | some p => offer p f s
  | none => noRoute s

/-! ### What waits for a transmit room -/

/-- Waiting frames of this device enter a port's transmit room while it has buffers.
(DESIGN CHOICE, log entry 80.) -/
def pumpOutbox (p : Port) (s : State) : State :=
  let step := fun (acc : PortSt × List OutFrame) (x : OutFrame) =>
    if x.port == p && acc.1.hasRoom x.frame then ({ acc.1 with tx := acc.1.tx ++ [⟨x.frame, .new, 0⟩] }, acc.2)
    else (acc.1, acc.2 ++ [x])
  let r := s.net.outbox.foldl step (s.port p, [])
  { s.setPort p r.1 with net := { s.net with outbox := r.2 } }

/-- STREAM frames of a member's stream engine enter the transmit room of their route while it has buffers; without a route
they are discarded (R234). -/
def pumpStreams : Nat → State → State
  | 0, s => s
  | n + 1, s =>
    match s.sdp.out with
    | [] => s
    | f :: fs =>
      if s.net.headNow then s
      else match s.route f.dst none with
      | none => pumpStreams n (noRoute { s with sdp := { s.sdp with out := fs } })
      | some p =>
        if (s.port p).hasRoom f then pumpStreams n (enqueue p f { s with sdp := { s.sdp with out := fs } }) else s

/-- The stream engine's output room (R374). -/
def outRoom : Nat := Room.streamOut.size

/-- The stream engine's output room counter is zero (R101). -/
def State.outFull (s : State) : Bool := Nat.ble outRoom s.sdp.out.length

end Sys2Proof.Machine
end

