-- ==== Sys2Proof/Machine/Cellar.lean ====
section
/-! DEFINITION. The Cellar, its rings and the mirror (R376 to R384, R257, R258), and the filing of stream blocks. The
commands stand in Machine/Store.lean. -/

namespace Sys2Proof.Machine

/-- USE: the usable data bytes of the fitted device (R376). -/
def celUse (size : Nat) : Nat := (8 * 1024 * 1024 * 2 ^ size) / 9216 * 8192

/-- USE of the device STO_CEL_CTRL.SIZE names. -/
def State.celUse (s : State) : Nat := Sys2Proof.Machine.celUse (s.get F.STO_CEL_CTRL.SIZE)

/-- The Cellar is initialised (R377). -/
def State.celReady (s : State) : Bool := s.bit F.STO_CEL_STAT.READY

/-- The word at a Cellar byte address. -/
def State.celWord (s : State) (a : Nat) : Word := Mem.word 0 s.cel.mem a

/-- Words stored from a Cellar byte address upward. -/
def celWrite (a : Nat) (ws : List Word) (s : State) : State :=
  { s with cel := { s.cel with mem := Mem.setWords 0 s.cel.mem a ws } }

/-! ### SECDED in the on-chip SRAM outside the Innkeeper's memories (R372, R373) -/

/-- The three memories that STO_ECC_ADDR.MEM names, in the order of its codes (R372, R373). -/
inductive Sram where
  | rooms | buffers | path
  deriving DecidableEq, Repr, Inhabited

/-- The code of a memory in STO_ECC_ADDR.MEM, and its size in bytes (R372). -/
def Sram.code : Sram → Nat
  | .rooms => 0
  | .buffers => 1
  | .path => 2
def Sram.size : Sram → Nat
  | .rooms => 393216
  | _ => 131072

/-- An uncorrectable error in a memory (R373): counted, located, its event and log entry.
(DESIGN CHOICE, log entry 68.) -/
def sramFound (m : Sram) (s : State) : State :=
  let s := s.bump F.STO_ECC.UNCOR 1
  let s := (s.put F.STO_ECC_ADDR.MEM m.code).put F.STO_ECC_ADDR.OFFSET (Config.eccPlace s.free % m.size)
  let s := s.draw.raise F.STO_EVT.SRAM_UNCOR
  logEntry 5 [s.stoEvt, s.reg A.STO_ECC_ADDR] s

/-- A read of a memory (R373): `good` goes on, after a correction too, which is counted; with an uncorrectable error `lost`
says what the part does.
(DESIGN CHOICE, log entry 68.) -/
def sramSees (m : Sram) (e : Ecc) (lost good : State → State) (s : State) : State :=
  match e with
  | .clean => good s
  | .corrected => good (s.bump F.STO_ECC.COR 1)
  | .uncorrectable => sramFound m (lost s)

/-! ### Rings -/

/-- The size in bytes, base and offsets of ring `n` (R380, R381). -/
def State.ringSize (s : State) (n : Nat) : Nat := 4096 * s.get (F.STO_RING_SIZE.SIZE n)
def State.ringBase (s : State) (n : Nat) : Nat := 4096 * s.get (F.STO_RING_BASE.BASE n)
def State.ringWr (s : State) (n : Nat) : Nat := s.get (F.STO_RING_WR.OFF n)
def State.ringRd (s : State) (n : Nat) : Nat := s.get (F.STO_RING_RD.OFF n)
def State.ringOld (s : State) (n : Nat) : Nat := s.get (F.STO_RING_OLD.OFF n)

/-- Bytes from offset `a` forward to offset `b` in a ring of `size` bytes. -/
def ringDist (size a b : Nat) : Nat := (b + size - a % size) % size

/-- Bytes the ring holds, from OLD to WR (R381). -/
def State.ringHeld (s : State) (n : Nat) : Nat := ringDist (s.ringSize n) (s.ringOld n) (s.ringWr n)

/-- The word at an offset of a ring. -/
def State.ringWord (s : State) (n off : Nat) : Word := s.celWord (s.ringBase n + off % s.ringSize n)

/-- The length in bytes of the record at an offset: 16 and its LEN field (R257, R381), to whole words. -/
def State.recordLen (s : State) (n off : Nat) : Nat :=
  16 + ((s.ringWord n off).toNat / 0x1000 % 512 + 3) / 4 * 4

/-- A ring loses records: LOSS counts and its LOSS event sets (R381, R383). -/
def ringLoss (n k : Nat) (s : State) : State :=
  if k == 0 then s else (s.bump (F.STO_RING_LOSS.COUNT n) k).putBit A.STO_RING_EVT (16 + n) true

/-- Whole records are freed from OLD until `need` bytes fit, at most `fuel` of them; RD and OLD follow (R381). -/
def ringFree (n need : Nat) : Nat → State → State
  | 0, s => s
  | fuel + 1, s =>
    let size := s.ringSize n
    if Nat.ble need (size - s.ringHeld n - 4) || s.ringOld n == s.ringWr n then s
    else
      let old := (s.ringOld n + s.recordLen n (s.ringOld n)) % size
      let s := (s.put (F.STO_RING_OLD.OFF n) old).put (F.STO_RING_RD.OFF n) old
      ringFree n need fuel (ringLoss n 1 s)

/-- Words stored at an offset of a ring, wrapping at its end. -/
def ringStore (n : Nat) : Nat → List Word → State → State
  | _, [], s => s
  | off, w :: ws, s => ringStore n (off + 4) ws (celWrite (s.ringBase n + off % s.ringSize n) [w] s)

/-- A record is written into a ring, by its overwrite or drop policy (R381, R383, R384). -/
def ringWrite (n : Nat) (ws : List Word) (s : State) : State :=
  let size := s.ringSize n
  let need := 4 * ws.length
  if !s.bit (F.STO_RING_CFG.EN n) || !s.celReady then ringLoss n 1 s
  else
    let s1 := if s.bit (F.STO_RING_CFG.POLICY n) then s else ringFree n need size s
    if Nat.blt (size - s1.ringHeld n - 4) need then ringLoss n 1 s1
    else
      let was := s1.ringHeld n
      let wr := s1.ringWr n
      let s2 := (ringStore n wr ws s1).put (F.STO_RING_WR.OFF n) ((wr + need) % size)
      let thr := s2.get (F.STO_RING_CFG.THR n)
      if thr != 0 && Nat.blt (16 * was) (thr * size) && Nat.ble (thr * size) (16 * s2.ringHeld n) then
        s2.putBit A.STO_RING_EVT n true
      else s2

/-- OLD follows RD: it advances past every record whose end RD has passed (R382). -/
def ringFollow (n : Nat) : Nat → State → State
  | 0, s => s
  | fuel + 1, s =>
    let size := s.ringSize n
    let old := s.ringOld n
    let len := s.recordLen n old
    if old == s.ringWr n || Nat.blt (ringDist size old (s.ringRd n)) len then s
    else ringFollow n fuel (s.put (F.STO_RING_OLD.OFF n) ((old + len) % size))

/-- RD moves to an offset, and OLD follows (R382). -/
def ringSetRd (n off : Nat) (s : State) : State :=
  ringFollow n (s.ringSize n / 16) (s.put (F.STO_RING_RD.OFF n) off)

/-- Ring `n` as configured reaches beyond USE, overlaps another enabled ring, or overlaps the mirror in use (R380). -/
def ringClash (s : State) (n : Nat) : Bool :=
  let lo := s.ringBase n
  let hi := lo + s.ringSize n
  let mir := 0x400000 * s.get F.CHN_MIR_BASE.BASE
  Nat.blt s.celUse hi ||
  ((List.range 16).any fun m => m != n && s.bit (F.STO_RING_CFG.EN m) &&
    Nat.blt lo (s.ringBase m + s.ringSize m) && Nat.blt (s.ringBase m) hi) ||
  (((List.range 16).any fun m => s.bit (F.CHN_MIR_A.EN m)) && Nat.blt lo (mir + 0x400000) && Nat.blt mir hi)

/-! ### The head's filing of stream blocks (R257) -/

/-- The Cellar stream staging has a buffer (R374). -/
def State.stageRoom (s : State) : Bool := Nat.blt s.cel.blocks.length Room.cellarStaging.size

/-- A block of the head's own or of a member, with its source, stream slot, generation and words: staged as a record for its
stream-table entry's ring, or discarded and counted. LOST is in bits 23:12 of the block's word 1 (R99). `found` is what
SECDED finds in the entry, which reads as 0 after an uncorrectable error until it is written (R373). -/
def fileBlock (found : Ecc) (src strm gen len : Nat) (payload : List Word) (s : State) : State :=
  let unknown := fun (s : State) => (s.bump F.CHN_HEAD_UNK.COUNT 1).raise F.CHN_NET_EVT.STRM_UNK
  let e := 24 * src + strm
  let stage := fun (s : State) =>
    if !s.bit (F.STB_CFG.EN e) then unknown s
    else
      let w0 := Word.ofNat (src % 64 * 2 ^ 26 + strm * 2 ^ 21 + len % 512 * 2 ^ 12 + gen % 16 * 2 ^ 8)
      let words := w0 :: Word.ofNat e :: timeWords s.timeNow ++ payload
      let b := ⟨e, s.get (F.STB_CFG.RING e), words, (payload.getD 1 0).toNat / 0x1000 % 0x1000⟩
      { s with cel := { s.cel with blocks := s.cel.blocks ++ [b] } }
  if src == 0x7F || Nat.ble 24 strm then unknown s
  else sramSees .buffers found (fun s => stage (s.setReg (A.STB_CFG e) 0)) stage s

/-- The oldest staged block is written into its ring, and counted in its stream-table entry (R257). -/
def celFile (s : State) : State :=
  match s.cel.blocks with
  | [] => s
  | b :: bs =>
    let s := ringWrite b.ring b.words { s with cel := { s.cel with blocks := bs } }
    (s.bump (F.STB_STAT.BLK b.entry) 1).bumpSat (F.STB_STAT.LOST b.entry) b.lost

/-- Blocks of the head's own stream engine move from its output room into the staging while this has buffers (R99, R374). -/
def pumpOwn : Nat → State → State
  | 0, s => s
  | n + 1, s =>
    match s.sdp.out with
    | [] => s
    | f :: fs =>
      if s.net.headNow && s.stageRoom then
        pumpOwn n (fileBlock f.ecc.entry 0 f.strm f.gen f.len f.payload { s with sdp := { s.sdp with out := fs } })
      else s

/-- A block of this device's stream engine goes out: the head files it, a member sends it to the head as a STREAM frame
(R99, R257). -/
def emitBlock (strm : Nat) (payload : List Word) (s : State) : State :=
  let f := s.newFrame 2 0 0 strm (4 * payload.length) payload
  let s := { s with sdp := { s.sdp with out := s.sdp.out ++ [f] } }
  if s.net.headNow then pumpOwn s.sdp.out.length s else pumpStreams s.sdp.out.length s

/-! ### The mirror (R258) -/

/-- The Cellar byte address of a pack endpoint's mirror word. -/
def State.mirrorAddr (s : State) (slot a : Nat) : Nat :=
  0x400000 * s.get F.CHN_MIR_BASE.BASE + 4 * (16384 * slot + a)

/-- The mirror staging has a buffer for words that must wait (R374, R377).
(DEDUCED, log entry 43.) -/
def State.mirrorRoom (s : State) : Bool := s.celReady || Nat.blt s.cel.staged.length Room.mirrorStaging.size

/-- Words written into the mirror; until the Cellar is ready they wait in the mirror staging (R377), which a member does not
use (R375).
(DEDUCED, log entry 43.) -/
def mirrorWrite (slot a : Nat) (ws : List Word) (s : State) : State :=
  if !s.net.headNow then s
  else if s.celReady then celWrite (s.mirrorAddr slot a) ws s
  else { s with cel := { s.cel with staged := s.cel.staged ++ [(slot, a, ws)] } }

/-! ### The Cellar's own commands (R377, R378) -/

/-- A write to STO_CEL_CTRL (R376, R377): SIZE is refused while EN is 1; a set EN starts initialisation, every byte 0; a
cleared EN clears READY, the content is lost. What waits for the mirror is discarded; the stream staging is too, each block
with a loss of its ring.
(DEDUCED, log entry 57.) -/
def wrCelCtrl (v : Word) (s : State) : State :=
  let was := s.bit F.STO_CEL_CTRL.EN
  let en := F.STO_CEL_CTRL.EN.read v == 1
  let s := s.put F.STO_CEL_CTRL.SCRUB (F.STO_CEL_CTRL.SCRUB.read v)
  let size := F.STO_CEL_CTRL.SIZE.read v
  let s := if !was then s.put F.STO_CEL_CTRL.SIZE size
    else if size == s.get F.STO_CEL_CTRL.SIZE then s else s.raise F.STO_EVT.CFG_REFUSED
  let empty := fun (s : State) => { s with cel := { s.cel with mem := [], scrub := 0 } }
  if en && !was then
    let s := (s.put F.STO_CEL_CTRL.EN 1).put F.STO_CEL_STAT.INIT 1
    empty (s.put F.STO_CEL_STAT.BLOCKS (s.celUse / 8192))
  else if was && !en then
    let s := ((s.put F.STO_CEL_CTRL.EN 0).put F.STO_CEL_STAT.INIT 0).put F.STO_CEL_STAT.READY 0
    let s := s.each s.cel.blocks fun b s => ringLoss b.ring 1 s
    empty { s with cel := { s.cel with staged := [], blocks := [] } }
  else s

/-- Initialisation ends (R377): READY, its event, and the mirror words that waited.
(DEDUCED, log entries 43 and 57.) -/
def celInitEnd (s : State) : State :=
  if !s.bit F.STO_CEL_STAT.INIT then s
  else
    let s := ((s.put F.STO_CEL_STAT.INIT 0).put F.STO_CEL_STAT.READY 1).raise F.STO_EVT.CEL_READY
    let ws := s.cel.staged
    ({ s with cel := { s.cel with staged := [] } }).each ws fun x s => mirrorWrite x.1 x.2.1 x.2.2 s

/-- What a read of the Cellar at a byte address finds (R378): a correction, or an uncorrectable error.
(DESIGN CHOICE, log entry 68.) -/
def celFound (e : Ecc) (a : Nat) (s : State) : State :=
  match e with
  | .clean => s
  | .corrected => (s.bump F.STO_CEL_ECC.COR 1).raise F.STO_EVT.CEL_COR
  | .uncorrectable =>
    let s := (s.bump F.STO_CEL_ECC.UNCOR 1).setReg A.STO_CEL_ADDR (Word.ofNat a)
    let s := s.raise F.STO_EVT.CEL_UNCOR
    logEntry 5 [s.stoEvt, s.reg A.STO_CEL_ADDR] s

/-- One step of the background scrub: it reads the next eight data bytes of the usable space (R378).
(DEDUCED, log entry 57.) -/
def celScrub (e : Ecc) (s : State) : State :=
  if !s.celReady || !s.bit F.STO_CEL_CTRL.SCRUB then s
  else
    let a := s.cel.scrub
    let s := celFound e a s
    { s with cel := { s.cel with scrub := if Nat.blt (a + 8) s.celUse then a + 8 else 0 } }

/-- A refresh window opens (R379). -/
def celRefresh (s : State) : State :=
  if s.bit F.STO_CEL_CTRL.EN then { s with cel := { s.cel with refreshes := s.cel.refreshes + 1 } } else s

/-! ### Ring registers (R380 to R384) -/

/-- A write to STO_RINGn_CFG (R380, R384). -/
def wrRingCfg (n : Nat) (v : Word) (s : State) : State :=
  let was := s.bit (F.STO_RING_CFG.EN n)
  let en := (F.STO_RING_CFG.EN n).read v == 1
  let fields := fun (s : State) => (s.put (F.STO_RING_CFG.POLICY n) ((F.STO_RING_CFG.POLICY n).read v)).put
    (F.STO_RING_CFG.THR n) ((F.STO_RING_CFG.THR n).read v)
  if en && !was then
    if !s.celReady || s.get (F.STO_RING_SIZE.SIZE n) == 0 || ringClash s n then s.raise F.STO_EVT.CFG_REFUSED
    else
      let s := (fields s).put (F.STO_RING_CFG.EN n) 1
      ((s.put (F.STO_RING_WR.OFF n) 0).put (F.STO_RING_RD.OFF n) 0).put (F.STO_RING_OLD.OFF n) 0
  else (fields s).putB (F.STO_RING_CFG.EN n) en

/-- A write to STO_RINGn_BASE or _SIZE: refused while EN is 1 (R380); a size above 16,384 is refused too. -/
def wrRingPlace (n a : Nat) (v : Word) (s : State) : State :=
  if s.bit (F.STO_RING_CFG.EN n) ||
      (a == A.STO_RING_SIZE n && Nat.blt 16384 ((F.STO_RING_SIZE.SIZE n).read v)) then s.raise F.STO_EVT.CFG_REFUSED
  else s.plainWrite a v

/-- A write of the program to STO_RINGn_RD (R382): from the present RD to WR in ring order, a multiple of 4. -/
def wrRingRd (n : Nat) (v : Word) (s : State) : State :=
  let size := s.ringSize n
  let off := (F.STO_RING_RD.OFF n).read v
  if off % 4 == 0 && Nat.blt off size &&
      Nat.ble (ringDist size (s.ringRd n) off) (ringDist size (s.ringRd n) (s.ringWr n)) then ringSetRd n off s
  else s.raise F.STO_EVT.CFG_REFUSED

/-! ### Check units (R396, R397) -/

/-- The CRC a unit computes. -/
def State.crcKind (s : State) (u : Nat) : CrcKind := CrcKind.ofPoly (s.get (F.STO_CRC_CFG.POLY u))

/-- The internal form of a unit's running register, as a mask over it (R397).
(DESIGN CHOICE, log entry 10.) -/
def State.crcMask (s : State) (u : Nat) : Word := Config.crcForm (s.get (F.STO_CRC_CFG.POLY u)) &&& (s.crcKind u).bits

/-- A unit's running register.
(DESIGN CHOICE, log entry 10.) -/
def State.crcRun (s : State) (u : Nat) : Word := s.reg (A.STO_CRC_STATE u) ^^^ s.crcMask u

/-- A unit's running register takes a value; RES follows with the final XOR.
(DESIGN CHOICE, log entry 10.) -/
def crcSet (u : Nat) (c : Word) (s : State) : State :=
  let k := s.crcKind u
  (s.setReg (A.STO_CRC_STATE u) ((c ^^^ s.crcMask u) &&& k.bits)).setReg (A.STO_CRC_RES u) ((c ^^^ k.final) &&& k.bits)

/-- A saved running register is written back. -/
def crcRestore (u : Nat) (v : Word) (s : State) : State := crcSet u (v ^^^ s.crcMask u) s

/-- A write to STO_CRCu_CFG: POLY, and the initial value. -/
def wrCrcCfg (u : Nat) (v : Word) (s : State) : State :=
  let s := s.put (F.STO_CRC_CFG.POLY u) ((F.STO_CRC_CFG.POLY u).read v)
  crcSet u (s.crcKind u).init s

/-- INIT = 1 loads the initial value of the POLY written with it. -/
def crcRestart (u : Nat) (v : Word) (s : State) : State :=
  if (F.STO_CRC_CFG.INIT u).read v == 1 then wrCrcCfg u v s else s

/-- Bytes are absorbed. -/
def crcTake (u : Nat) (bs : List Byte) (s : State) : State :=
  crcSet u ((s.crcKind u).absorb (s.crcRun u) bs) s

end Sys2Proof.Machine
end

