-- ==== Sys2Proof/Machine/Turns.lean ====
section
/-! DEFINITION. Cosines, sines and decaying exponentials in whole numbers, for the multisine and the demodulation (R110,
R120) and for the overload filter (R169). Angles are fractions of a turn; values are in 1/2^60. -/

namespace Sys2Proof.Machine

/-- π to twenty places, over 10^20. -/
def piNum : Int := 314159265358979323846
def piDen : Int := 100000000000000000000

/-- One, in the fixed point of this file. -/
def fixOne : Int := 2 ^ 60

/-- The sum of `fuel` terms t, ∓ t·x²/((n+1)(n+2)), … of a sine's or a cosine's series.
(DESIGN CHOICE, log entry 78.) -/
def trigSeries (x : Int) : Nat → Int → Int → Int
  | 0, _, _ => 0
  | fuel + 1, n, t => t + trigSeries x fuel (n + 2) (-(t * x / fixOne * x / fixOne) / ((n + 1) * (n + 2)))

/-- Cosine and sine of the angle rem / den of a quarter turn, 0 ≤ rem < den. -/
def quarterCos (rem den : Int) : Int := trigSeries (piNum * rem * fixOne / (2 * piDen * den)) 16 0 fixOne
def quarterSin (rem den : Int) : Int :=
  let x := piNum * rem * fixOne / (2 * piDen * den)
  trigSeries x 16 1 x

/-- The cosine of num / den of a turn.
(DESIGN CHOICE, log entry 78.) -/
def cosTurn (num den : Int) : Int :=
  let r := 4 * (num % den)
  let rem := r % den
  match (r / den).toNat with
  | 0 => quarterCos rem den
  | 1 => -quarterSin rem den
  | 2 => -quarterCos rem den
  | _ => quarterSin rem den

/-- The sine of num / den of a turn: the cosine a quarter turn back.
(DESIGN CHOICE, log entry 78.) -/
def sinTurn (num den : Int) : Int := cosTurn (4 * num - den) (4 * den)

/-- The terms x^n/n! of e^−x, alternating.
(DESIGN CHOICE, log entry 78.) -/
def expSeries (x : Int) : Nat → Int → Int → Int
  | 0, _, _ => 0
  | fuel + 1, n, t => t + expSeries x fuel (n + 1) (-(t * x / fixOne) / (n + 1))

/-- A fixed-point number squared `k` times. -/
def squareTimes : Nat → Int → Int
  | 0, v => v
  | k + 1, v => squareTimes k (v * v / fixOne)

/-- e^(−num / den) for 0 ≤ num, in 1/2^60; 0 from 64 on.
(DESIGN CHOICE, log entry 78.) -/
def expNeg (num den : Int) : Int :=
  if 64 * den ≤ num then 0 else squareTimes 6 (expSeries (num * fixOne / (64 * den)) 24 0 fixOne)

end Sys2Proof.Machine
end

