-- ==== Sys2Proof/Machine/Sdp.lean ====
section
/-! DEFINITION. The sample datapath (spec/03_sample_datapath.md): correction, channel filters, output sets, the result
registers, the accumulators and the stream engine, and the commands of its own registers. -/

namespace Sys2Proof.Machine

/-! ### Channels -/

/-- A channel's state. -/
def State.chan (s : State) (n : Nat) : ChanSt := s.sdp.ch.getD n default

/-- A channel's state changed. -/
def State.onChan (s : State) (n : Nat) (f : ChanSt → ChanSt) : State :=
  { s with sdp := { s.sdp with ch := modAt s.sdp.ch n f } }

/-- A stream slot's state. -/
def State.stream (s : State) (n : Nat) : StreamSt := s.sdp.streams.getD n default

/-- A stream slot's state changed. -/
def State.onStream (s : State) (n : Nat) (f : StreamSt → StreamSt) : State :=
  { s with sdp := { s.sdp with streams := modAt s.sdp.streams n f } }

/-- The datapath runs: SDP_CFG.EN is 1 and D5 is on. -/
def State.sdpRuns (s : State) : Bool := s.bit F.SDP_CFG.EN && s.on 5

/-- Channel `n` is enabled. -/
def State.chanOn (s : State) (n : Nat) : Bool := s.rbit A.SDP_CH_EN n

/-- The channels. -/
def channels : List Nat := List.range 25

/-- The stream slots. -/
def slots : List Nat := List.range 24

/-- P, the output period of a rate, in ticks (R85). -/
def ratePeriod : Nat → Nat
  | 0 => 100000 | 1 => 50000 | 2 => 25000 | 3 => 12500 | 4 => 6250 | _ => 3125

/-- GD, the group delay of a rate, in ticks (R85). -/
def rateDelay : Nat → Nat
  | 0 => 2018600 | 1 => 1018600 | 2 => 518600 | 3 => 250600 | 4 => 125600 | _ => 63100

/-- The trigger's base and phase in use, together, in ticks (R39). -/
def State.gridOrigin (s : State) : Nat :=
  (if s.trigChain then s.meas.baseUse.toNat else 0) + F.MEAS_TRIG.PHASE.read s.meas.trigUse

/-- A TIME value lies on a grid of `period` ticks counted from base and phase. -/
def State.onGrid (s : State) (t : Time) (period : Nat) : Bool :=
  ((t.toNat : Int) - (s.gridOrigin : Int)) % (period : Int) == 0

/-! ### Correction (R84) -/

/-- V_raw of a raw code in µV: a cell converter's or CI's (R36). -/
def rawUv (conv code : Nat) : Int :=
  if conv == 24 then ((code : Int) - 2048) * 50 else (code : Int) * 1600 - 500000

/-- The corrected value of a raw code by the factors of converter index `conv` (0 to 23, 24 CI, 25 CT), in 1/2^20 µV
(R55). -/
def State.corrected (s : State) (conv code : Nat) : Int :=
  rawUv conv code * (2 ^ 20 + s.getS (F.MEAS_GAIN.GAIN conv)) - s.getS (F.MEAS_OFF.OFF conv) * 2 ^ 20

/-- A value in 1/2^20 µV brought to the 1/16 µV of the decimation filter (R84).
(DESIGN CHOICE, log entry 11.) -/
def toSixteenth (v : Int) : Int :=
  v / 2 ^ 16 + (if v % 2 ^ 16 != 0 && Config.corrRoundsUp v then 1 else 0)

/-- Division rounded to nearest, ties away from zero; the divisor is positive. -/
def roundDiv (a b : Int) : Int := if 0 ≤ a then (2 * a + b) / (2 * b) else -((2 * (-a) + b) / (2 * b))

/-! ### Filter starts and restarts (R89, R103) -/

/-- A channel's filter is cleared and waits for its first raw sample; nothing of what it held is used. -/
def ChanSt.clear (c : ChanSt) : ChanSt := { c with run := none, old := [], filling := true }

/-- The newest sample of a run; a run begins with one. -/
def Run.last (r : Run) : Time := (r.samples.head?.map (·.time)).getD r.t0

/-- A channel's filter restarts with cleared state (R89). The run that ended is kept for as long as an output whose span
lies before the restart can be unwritten: 3.0 µs after its span (R88), with a margin. -/
def ChanSt.restart (c : ChanSt) : ChanSt :=
  match c.run with
  | none => { c with filling := true }
  | some r => { c with run := none, filling := true, old := r :: c.old.filter fun x => Nat.ble r.last.toNat (x.last.toNat + 1000) }

/-- The filter of an enabled channel restarts (R89). -/
def chanRestart (n : Nat) (s : State) : State := if s.chanOn n && s.sdpRuns then s.onChan n ChanSt.restart else s

/-- Every enabled channel's filter restarts (R89: a base or grid change). -/
def allRestart (s : State) : State := s.each channels chanRestart

/-- A corrected sample enters its channel's filter; the first since a start begins a run and sets REFILL (R89). -/
def chanSample (n : Nat) (x : Sample) (s : State) : State :=
  if !(s.sdpRuns && s.chanOn n) then s
  else
    let span := 2 * rateDelay (s.get F.SDP_CFG.RATE) + 400
    let r' := match (s.chan n).run with
      | none => ⟨x.time, s.gridOrigin, [x]⟩
      | some r => { r with samples := x :: r.samples.takeWhile fun y => Nat.ble (x.time.toNat - y.time.toNat) span }
    (s.onChan n fun c => { c with run := some r' }).raiseIf (s.chan n).run.isNone F.SDP_EVT.REFILL

/-- A residue mismatch for channel `n` at a sample (R103): counted and reported; an enabled channel's filter is cleared,
and the sample stays in its run for its tags (R90). -/
def chanResidue (n : Nat) (x : Sample) (s : State) : State :=
  chanSample n { x with bad := true } ((s.bump F.SDP_RCNT.MISMATCH 1).raise F.SDP_EVT.RESIDUE)

/-! ### Stream blocks (R99, R100, R102, R138) -/

/-- The channels a stream slot carries (R97). -/
def State.streamMask (s : State) (n : Nat) : List Nat := channels.filter fun i => s.rbit (A.SDP_SMASK n) i

/-- The sample word of an output (R100). -/
def sampleWord (o : OutSample) : Nat :=
  match o.val with
  | none => if o.ch == 24 then 0x8000 else 0
  | some v =>
    if o.ch == 24 then unsign 16 (clamp (-32767) 32767 (roundDiv v 5))
    else (clamp 0 65535 (roundDiv v 100 + 5000)).toNat

/-- Sample words two by two, the earlier in bits 15:0 (R99). -/
def packWords : List Nat → List Word
  | [] => []
  | [a] => [Word.ofNat a]
  | a :: b :: ws => Word.ofNat (a + b * 0x10000) :: packWords ws

/-- A bit mask of the channels for which a rule holds. -/
def outMask (sets : List OutSet) (mask : List Nat) (p : OutSample → Bool) : Nat :=
  (bitsWord 25 fun n => mask.contains n && sets.any fun x => x.outs.any fun o => o.ch == n && p o).toNat

/-- The data block of the sets a stream holds (R99). -/
def dataBlock (sets : List OutSet) (mask : List Nat) (first : Bool) (lost : Nat) : List Word :=
  match sets with
  | [] => []
  | x :: _ =>
    let ts := x.ts.toNat
    let anyOut := fun (p : OutSample → Bool) => (sets.any fun y => y.outs.any p).toNat
    let openw := (sets.any fun y => y.outs.any fun o => mask.contains o.ch && o.openw).toNat
    let trv := ((sets.map (·.trvCh)).find? (· != 31)).getD 31
    let w1 := first.toNat * 2 ^ 29 + sets.length * 2 ^ 25 + min lost 4095 * 2 ^ 12 + ts / 2 ^ 32 % 4096
    let w2 := anyOut (·.refcold) * 2 ^ 31 + anyOut (·.unsync) * 2 ^ 30 + openw * 2 ^ 29 +
      outMask sets mask (fun o => o.val.isNone)
    let w3 := trv * 2 ^ 24 + outMask sets (mask.filter (· != 24)) (·.bal)
    let words := sets.flatMap fun y => (mask.filterMap fun n => y.outs.find? (·.ch == n)).map sampleWord
    Word.ofNat ts :: Word.ofNat w1 :: Word.ofNat w2 :: Word.ofNat w3 :: packWords words

/-- The data block of the impedance records a stream holds (R138). Each record is its four words with bits 63:32 of W
before them. -/
def recordBlock (recs : List (List Word)) (first : Bool) (lost l srcMask : Nat) : List Word :=
  match recs with
  | [] => []
  | r :: _ =>
    let w1 := first.toNat * 2 ^ 29 + recs.length * 2 ^ 25 + min lost 4095 * 2 ^ 12 + (r.headD 0).toNat % 4096
    r.getD 1 0 :: Word.ofNat w1 :: Word.ofNat (l % 2 ^ 19) :: Word.ofNat srcMask :: recs.flatMap (·.drop 1)

/-- The tones and the fallback that are exciting, as SRCMASK (R138). -/
def State.exciting (s : State) : Nat := s.get F.IMP_STAT.TONE_ON + (s.bit F.IMP_STAT.FB_BUSY).toNat * 64

/-- The block a stream holds is sent; nothing is held, LOST starts afresh, and its last record is the last delivered. -/
def streamFlush (n : Nat) (s : State) : State :=
  let t := s.stream n
  if t.held.isEmpty && t.records.isEmpty then s
  else
    let block := if t.records.isEmpty then dataBlock t.held (s.streamMask n) t.first t.lost
      else recordBlock t.records t.first t.lost t.recL s.exciting
    let s1 := s.onStream n fun t => { t with
      held := [], records := [], first := false, lost := 0,
      lastTs := match t.records.getLast? with
        | some r => some (r.getD 0 0 ++ r.getD 1 0)
        | none => t.lastTs }
    emitBlock n block s1

/-- A block of records that is due: sent, or discarded and counted where the room counter is zero. -/
def recordsDue (n : Nat) (s : State) : State :=
  let t := s.stream n
  if t.records.isEmpty then s
  else if Nat.ble outRoom s.sdp.out.length && !s.net.headNow then
    ((s.onStream n fun t => { t with records := [], lost := t.lost + t.records.length }).bump (F.SDP_SCFG.LOST n)
      t.records.length).raise F.IMP_EVT.STRM_LOST
  else streamFlush n s

/-- A stream closes: what it holds is sent, records under the rule for a block that is due, then one tag block (R102,
R139). -/
def streamClose (n cause : Nat) (s : State) : State :=
  if !s.bit (F.SDP_SCFG.OPEN n) then s
  else
    let s1 := streamFlush n (recordsDue n s)
    let t := s1.stream n
    let abort := cause == 2 || cause == 4
    let ts := (t.lastTs.getD 0).toNat
    let w1 := (if abort then 2 else 1) * 2 ^ 30 + min t.lost 4095 * 2 ^ 12 + ts / 2 ^ 32 % 4096
    let s2 := emitBlock n [Word.ofNat ts, Word.ofNat w1, Word.ofNat abort.toNat, Word.ofNat cause] s1
    ((s2.put (F.SDP_SCFG.OPEN n) 0).onStream n fun _ => default).raise F.SDP_EVT.STRM_END

/-- A stream opens (R98). -/
def streamOpen (n : Nat) (s : State) : State :=
  if s.bit (F.SDP_SCFG.EN n) && s.works [.run] && s.sdpRuns && !s.bit (F.SDP_SCFG.OPEN n) then
    (s.put (F.SDP_SCFG.OPEN n) 1).onStream n fun _ => { (default : StreamSt) with first := true }
  else s

/-- Every open stream closes with a cause (R104). -/
def streamsClose (cause : Nat) (s : State) : State := s.each slots fun n s => streamClose n cause s

/-- Every enabled stream opens where R98 lets it. -/
def streamsOpen (s : State) : State := s.each slots streamOpen

/-- Streams that are filling a buffer of the output room. -/
def State.filling (s : State) : Nat :=
  (s.sdp.streams.filter fun t => !(t.held.isEmpty && t.records.isEmpty)).length

/-- The stream engine's output room counter is zero (R101). -/
def State.roomZero (s : State) : Bool := Nat.ble outRoom (s.sdp.out.length + s.filling)

/-- Output instants of a stream that had no delivered set are counted as lost (R89, R101). -/
def streamLose (n k : Nat) (s : State) : State :=
  if k == 0 then s
  else (streamFlush n s).onStream n (fun t => { t with lost := t.lost + k }) |>.bump (F.SDP_SCFG.LOST n) k

/-- Output instants between the last one counted for a stream and `ts`. -/
def missedBefore (t : StreamSt) (ts : Time) (period : Nat) : Nat :=
  match t.lastInstant with
  | none => 0
  | some l => (ts.toNat - l.toNat) / period - 1

/-- An output instant that has no set: every open stream of SDP channels counts it as lost (R89). -/
def instantLost (ts : Time) (s : State) : State :=
  let period := ratePeriod (s.get F.SDP_CFG.RATE)
  s.each slots fun n s =>
    if s.bit (F.SDP_SCFG.OPEN n) && s.get (F.SDP_SCFG.SRC n) == 0 then
      (streamLose n (missedBefore (s.stream n) ts period + 1) s).onStream n fun t => { t with lastInstant := some ts }
    else s

/-- The stream engine reads a set into stream `n`, or skips it where its room counter is zero (R99, R101). -/
def streamSet (n : Nat) (x : OutSet) (s : State) : State :=
  if !(s.bit (F.SDP_SCFG.OPEN n) && s.get (F.SDP_SCFG.SRC n) == 0) then s
  else
    let period := ratePeriod (s.get F.SDP_CFG.RATE)
    let s := streamLose n (missedBefore (s.stream n) x.ts period) s
    if s.roomZero && !s.net.headNow then
      (streamLose n 1 s).onStream n fun t => { t with lastInstant := some x.ts }
    else
      let s := s.each (s.streamMask n) fun i s => s.onChan i fun c => { c with read := true }
      let s := s.onStream n fun t =>
        { t with held := t.held ++ [x], lastTs := some x.ts, lastInstant := some x.ts }
      if Nat.ble (s.get (F.SDP_SCFG.NEFF n)) (s.stream n).held.length then streamFlush n s else s

/-! ### Impedance records (R137 to R139) -/

/-- A result record is offered to every open impedance stream that selects `bit` of its mask (R137); fifteen records
make a block due (R138). -/
def recordOffer (bit : Nat) (w : Time) (rec3 : List Word) (s : State) : State :=
  s.each slots fun n s =>
    if s.bit (F.SDP_SCFG.OPEN n) && s.get (F.SDP_SCFG.SRC n) == 1 && s.rbit (A.SDP_SMASK n) bit then
      let hi := (timeWords w).getD 1 0
      let lo := (timeWords w).headD 0
      let l := s.get F.IMP_GRID.L
      let s := s.onStream n fun t => { t with
        records := t.records ++ [hi :: lo :: rec3], recL := if t.records.isEmpty then l else t.recL }
      if Nat.ble 15 (s.stream n).records.length then recordsDue n s else s
    else s

/-! ### Output sets (R87 to R95) -/

/-- The samples of a run in the span of the output at `ts`: (ts − GD, ts + GD] (R87). -/
def spanOf (r : Run) (ts : Time) (gd : Nat) : List Sample :=
  r.samples.filter fun x => decide ((ts.toNat : Int) - gd < x.time.toNat) && Nat.ble x.time.toNat (ts.toNat + gd)

/-- D1, the CIC's decimation ratio at a rate (R85). -/
def cicRatio (rate : Nat) : Nat := if Nat.blt rate 3 then 125 else 5

/-- Half the width of the CIC's window, in ticks: a third-order CIC by D1 spans 3 × D1 − 2 raw samples. -/
def cicHalf (rate : Nat) : Nat := 150 * (cicRatio rate - 1)

/-- The number of ways to write `n` as a sum of three naturals. -/
def threes (n : Int) : Int := if n < 0 then 0 else (n + 1) * (n + 2) / 2

/-- The weight a third-order CIC by `d` gives its `i`-th raw sample, of 3 × d − 2: three windows of `d` in a row.
(DESIGN CHOICE, log entry 12.) -/
def cicWeight (d : Nat) (i : Int) : Int := threes i - 3 * threes (i - d) + 3 * threes (i - 2 * d) - threes (i - 3 * d)

/-- The intermediate sample at instant `u`, times D1³, in 1/16 µV (R85, R86): the CIC over the raw samples about `u`. -/
def cicAt (rate : Nat) (xs : List Sample) (u : Int) : Int :=
  (xs.map fun x => cicWeight (cicRatio rate) (((x.time.toNat : Int) - u + cicHalf rate) / 100) * x.val).sum

/-- Half the length of the FIR, in ticks: what the CIC's delay leaves of GD (R85), a whole number of intermediate periods. -/
def firHalf (rate : Nat) : Nat := rateDelay rate - cicHalf rate

/-- The intermediate instants the FIR takes for the output at `ts`: those of the grid at D1 µs (R86) nearer to it than
`firHalf`, so that no raw sample outside the span of R87 counts.
(DEDUCED, log entry 12.) -/
def interInstants (rate : Nat) (origin : Nat) (ts : Time) : List Int :=
  let d : Int := 100 * cicRatio rate
  let low : Int := (ts.toNat : Int) - firHalf rate
  let first := low + 1 + (origin - (low + 1)) % d
  ((List.range (2 * firHalf rate / (100 * cicRatio rate) + 1)).map fun (i : Nat) => first + d * i).filter fun u =>
    decide (u < (ts.toNat : Int) + firHalf rate)

/-- The FIR's coefficient at a distance from the output instant, in 1/2^40 (R85, R87): linear-phase, so it depends on the
distance alone, and of a DC gain within 1 ± 2^−20, which the coefficient nearest to the instant makes good.
(DESIGN CHOICE, log entry 12.) -/
def firTaps (rate : Nat) (offs : List Int) : List (Int × Int) :=
  let taps := offs.map fun u => (u, Config.firTap rate u.natAbs)
  let gain := (taps.map (·.2)).sum
  let fix := clamp (2 ^ 40 - 2 ^ 20 + 1) (2 ^ 40 + 2 ^ 20) gain - gain
  let near := (offs.map (·.natAbs)).foldl min (firHalf rate)
  let share := taps.filter fun t => t.1.natAbs == near
  taps.map fun t => if t.1.natAbs == near then (t.1, t.2 + fix / share.length) else t

/-- The filter's value times 2^40 × D1³, in 1/16 µV: the FIR over the CIC's intermediate samples (R85 to R87).
(DESIGN CHOICE, log entry 12.) -/
def filterValue (rate : Nat) (origin : Nat) (ts : Time) (xs : List Sample) : Int :=
  ((firTaps rate ((interInstants rate origin ts).map fun u => u - ts.toNat)).map fun t =>
    t.2 * cicAt rate xs (t.1 + ts.toNat)).sum

/-- The chain's gain at num / den of the output rate, times 2^160 × D1³: the CIC's and the FIR's, both of linear phase. -/
def chainGain (rate : Nat) (offs : List Int) (num den : Int) : Int :=
  let turn := fun (ticks : Int) => cosTurn (ticks * num) (den * ratePeriod rate)
  let cic := ((List.range (3 * cicRatio rate - 2)).map fun (i : Nat) =>
    cicWeight (cicRatio rate) i * turn (100 * i - cicHalf rate)).sum
  cic * ((firTaps rate offs).map fun t => t.2 * turn t.1).sum

/-- The table of R87 for the free coefficients, at every phase of the output instants on the intermediate grid: ripple
within 0.01 dB to 0.40 of the rate, −3 dB between 0.445 and 0.455, and 90 dB from 0.50 to 500 kHz. A claim that needs it
takes it as a premise.
(DESIGN CHOICE, log entry 12.) -/
def responseMeets (rate : Nat) : Prop :=
  ∀ (origin : Nat) (ts : Time) (num den : Int), 0 < den → 0 ≤ num →
    let offs : List Int := (interInstants rate origin ts).map (· - (ts.toNat : Int))
    let gain := chainGain rate offs num den
    let mag := if gain < 0 then -gain else gain
    let one : Int := 2 ^ 160 * (cicRatio rate : Int) ^ 3
    (10 * num ≤ 4 * den → 998849 * one ≤ 1000000 * mag ∧ 1000000 * mag ≤ 1001152 * one) ∧
    (1000 * num ≤ 445 * den → 501187 * one ^ 2 ≤ 1000000 * mag ^ 2) ∧
    (455 * den ≤ 1000 * num → 200 * num ≤ ratePeriod rate * den → 1000000 * mag ^ 2 ≤ 501187 * one ^ 2) ∧
    (den ≤ 2 * num → 200 * num ≤ ratePeriod rate * den → 10 ^ 9 * mag ^ 2 ≤ one ^ 2)

/-- A residue mismatch makes the output at `ts` invalid (R103): for one at tm, with the restart at the next raw sample's
trigger t0, an output with TS + GD ≥ tm and TS − GD < t0. Newest sample first.
(DESIGN CHOICE, log entry 77.) -/
def residueHits (gd : Nat) (ts : Time) : Option Time → List Sample → Bool
  | _, [] => false
  | next, x :: xs =>
    (x.bad && Nat.ble x.time.toNat (ts.toNat + gd) &&
      (match next with | none => true | some t0 => decide ((ts.toNat : Int) - gd < t0.toNat))) ||
    residueHits gd ts (some x.time) xs

/-- The output of channel `n` at `ts` (R90, R92, R103): the filter's value rounded to whole µV, ties away from zero. -/
def outSample (rate : Nat) (ts : Time) (n : Nat) (r : Run) : OutSample :=
  let gd := rateDelay rate
  let span := spanOf r ts gd
  let value := clamp (-8388607) 8388607
    (roundDiv (filterValue rate r.origin ts span) (2 ^ 44 * (cicRatio rate : Int) ^ 3))
  { ch := n, val := if residueHits gd ts none r.samples then none else some value,
    conv := ((r.samples.find? fun x => Nat.ble x.time.toNat ts.toNat).map (·.conv)).getD 0,
    refcold := span.any (·.refcold), bal := span.any (·.bal), unsync := span.any (·.unsync),
    openw := span.any (·.openw) }

/-- An output is kept out of the accumulators by one of its flags (R95). -/
def State.excluded (s : State) (o : OutSample) : Bool :=
  (o.refcold && s.bit F.SDP_ACC_CTRL.EXCL_REFCOLD) || (o.bal && s.bit F.SDP_ACC_CTRL.EXCL_BAL) ||
  (o.openw && s.bit F.SDP_ACC_CTRL.EXCL_OPENW) || (o.unsync && s.bit F.SDP_ACC_CTRL.EXCL_UNSYNC)

/-- The largest count of an accumulator (R95). -/
def accFull : Nat := 0xFFFFFFFF

/-- An output is added to its channel's live accumulator and trackers, unless it is invalid, excluded, or the count is
full (R95). -/
def accumulate (o : OutSample) (s : State) : State :=
  match o.val with
  | none => s
  | some v =>
    let c := s.chan o.ch
    if s.excluded o || c.count == accFull then s
    else
      let c' := { c with sum := c.sum + v, count := c.count + 1,
                         least := if c.count == 0 then v else min c.least v,
                         most := if c.count == 0 then v else max c.most v }
      let s1 := s.onChan o.ch fun _ => c'
      if c.count + 1 == accFull then (s1.raise F.SDP_EVT.ACC_SAT).raise F.SDP_STAT.ACC_SAT else s1

/-- The register word of an output (R92). -/
def resWord (o : OutSample) (ovr : Bool) : Word :=
  Word.ofNat (ovr.toNat * 2 ^ 31 + o.bal.toNat * 2 ^ 29 + o.conv % 32 * 2 ^ 24 +
    (match o.val with | none => 0x800000 | some v => unsign 24 v))

/-- Channel `n` is in an open stream. -/
def State.streamed (s : State) (n : Nat) : Bool :=
  slots.any fun i => s.bit (F.SDP_SCFG.OPEN i) && s.get (F.SDP_SCFG.SRC i) == 0 && s.rbit (A.SDP_SMASK i) n

/-- An output is written to its result register, with OVR where the last one was not read (R93). -/
def resWrite (o : OutSample) (s : State) : State :=
  let c := s.chan o.ch
  let ovr := c.written && !c.read
  let s1 := s.setReg (A.SDP_RES o.ch) (resWord o ovr)
  let s2 := if ovr && s.streamed o.ch then (s1.bump F.SDP_OVRCNT.COUNT 1).raise F.SDP_EVT.OVR else s1
  s2.onChan o.ch fun c => { c with read := false, written := true, shown := true }

/-- The enabled channels. -/
def State.enabledChans (s : State) : List Nat := channels.filter s.chanOn

/-- SETFLG of a set (R90, R106). -/
def setFlags (x : OutSet) : Word :=
  Word.ofNat ((x.outs.any (·.refcold)).toNat * 2 ^ 31 + (x.outs.any (·.unsync)).toNat * 2 ^ 30) |||
  bitsWord 24 fun n => x.outs.any fun o => o.ch == n && o.openw

/-- A run holds the whole span of the output at `ts`, an instant of the run's own grid (R86, R89): its first raw sample
lies at or before ts − GD, and the last trigger of the span has delivered. -/
def Run.covers (rate : Nat) (ts : Time) (r : Run) : Bool :=
  let gd := rateDelay rate
  ((ts.toNat : Int) - (r.origin : Int)) % (ratePeriod rate : Int) == 0 && Nat.ble (r.t0.toNat + gd) ts.toNat &&
  Nat.blt (ts.toNat + gd) (r.last.toNat + 100)

/-- The set at `ts` gives a channel its first output since its last start, unless the output comes of a run that has ended
(R89). -/
def ChanSt.filled (rate : Nat) (ts : Time) (c : ChanSt) : ChanSt :=
  { c with filling := c.filling && !c.run.any (Run.covers rate ts) }

/-- A set is written and routed by the device state (R91, R92, R101). -/
def setRoute (x : OutSet) (s : State) : State :=
  let s := s.each x.outs fun o s =>
    accumulate o (if o.val.isNone then s.bump F.SDP_RCNT.INVALID 1 else s)
  let s := s.each x.outs fun o s => s.onChan o.ch (ChanSt.filled (s.get F.SDP_CFG.RATE) x.ts)
  if s.ptr.dev == .run then
    let s := s.each x.outs resWrite
    let s := ((s.setReg A.SDP_SET_TSL ((timeWords x.ts).headD 0)).setReg A.SDP_SET_TSH
      ((timeWords x.ts).getD 1 0)).setReg A.SDP_SETFLG (setFlags x)
    let s := { s with sdp := { s.sdp with setValid := true } }.raise F.SDP_EVT.SET
    s.each slots fun n s => streamSet n x s
  else s

/-- The run of channel `n` that holds the span of the output at `ts`. -/
def State.chanRun (s : State) (n : Nat) (ts : Time) : Option Run :=
  ((s.chan n).run.toList ++ (s.chan n).old).find? (Run.covers (s.get F.SDP_CFG.RATE) ts)

/-- No sample is still to come for the output at `ts` of channel `n` (R88): its newest sample has passed the span, or
nothing converts that could deliver one. -/
def State.spanOver (s : State) (n : Nat) (ts : Time) : Bool :=
  let gd := rateDelay (s.get F.SDP_CFG.RATE)
  match (s.chan n).run with
  | none => true
  | some r => Nat.blt (ts.toNat + gd) (r.last.toNat + 100) ||
      (!s.bit F.MEAS_CTRL.ARRAY_EN && s.meas.conv.all (·.isNone))

/-- The channel CT produced at `ts`, 31 when none (R90, R99). -/
def State.trvAt (s : State) (ts : Time) : Nat :=
  ((s.meas.held.find? fun x => Nat.ble x.1.toNat ts.toNat).map (·.2)).getD 31

/-- The output instant `ts` has come up; the last one stays the last. -/
def instantSeen (ts : Time) (s : State) : State := { s with sdp := { s.sdp with lastInst := ts } }

/-- SET_WRITE: the output instant `ts` comes up. A set is written when every enabled channel's span is whole; else the
instant has no set (R88, R89), as it has none where the staged set is discarded (R373). An instant off the grid, before the
last one, or not yet due does nothing.
(DESIGN CHOICE, log entry 7.) -/
def setInstant (o : SetObs) (s : State) : State :=
  let ts := o.ts
  let rate := s.get F.SDP_CFG.RATE
  let runs := s.enabledChans.map fun n => (s.chanRun n ts).map fun r => outSample rate ts n r
  if !s.sdpRuns || s.enabledChans.isEmpty || Nat.ble ts.toNat s.sdp.lastInst.toNat then s
  else if runs.all (·.isSome) then
    let x : OutSet := ⟨ts, runs.filterMap id, s.trvAt ts⟩
    sramSees .buffers o.stage (instantLost ts) (fun s => setRoute x { s with sdp := { s.sdp with lastSet := ts } })
      (instantSeen ts s)
  else if s.onGrid ts (ratePeriod rate) && s.enabledChans.all fun n => s.spanOver n ts then
    instantLost ts (instantSeen ts s)
  else s

/-! ### Register writes -/

/-- EN or a channel is set, or RUN begins: the next output is the first of its period, which sets no OVR (R93). -/
def resFresh (n : Nat) (s : State) : State := s.onChan n fun c => { c with written := false, read := false }

/-- SDP_CFG is written with EN cleared while it was set: partial outputs are discarded and streams abort (R104). -/
def sdpOff (s : State) : State :=
  let s := streamsClose 4 s
  let s := s.each channels fun n s => s.onChan n ChanSt.clear
  { s.put F.SDP_CFG.EN 0 with sdp := { (s.put F.SDP_CFG.EN 0).sdp with setValid := false } }

/-- SDP_CFG.EN is set: filters start, no set has been written yet, enabled streams open in RUN (R89, R94, R98). -/
def sdpOn (s : State) : State :=
  let s := s.put F.SDP_CFG.EN 1
  let s := { s with sdp := { s.sdp with setValid := false } }
  streamsOpen (s.each channels fun n s => resFresh n (s.onChan n ChanSt.clear))

/-- A write of SDP_SMASKn: ignored and reported while the slot's EN is 1 (R104). -/
def wrSmask (n : Nat) (v : Word) (s : State) : State :=
  if s.bit (F.SDP_SCFG.EN n) then s.raise F.SDP_EVT.CFG_REFUSED else s.plainWrite (A.SDP_SMASK n) v

/-- The stored form of NSETS: 0 stores 1, 9 to 15 store 8. -/
def nsetsStored (n : Nat) : Nat := if n == 0 then 1 else min n 8

/-- The enable of a slot is refused: an empty mask, or one that names a channel not enabled; for impedance results, no
tone selected or a reserved bit set (R97, R136). -/
def State.streamBad (s : State) (n src : Nat) : Bool :=
  let m := s.reg (A.SDP_SMASK n)
  if src == 1 then m &&& 0x7F == 0 || m &&& 0x01FFFF80 != 0
  else m &&& 0x01FFFFFF == 0 || (m &&& 0x01FFFFFF &&& ~~~(s.reg A.SDP_CH_EN)) != 0

/-- NEFF on enable (R97, R136). -/
def State.neff (s : State) (n src nsets : Nat) : Nat :=
  if src == 1 then 15 else min (min nsets 8) (120 / (s.streamMask n).length)

/-- A write of SDP_SCFGn (R97, R104): while EN is 1, SRC and NSETS stay and a changed value is reported, and a cleared
EN closes the stream all the same; while EN is 0, SRC and NSETS are stored and a set EN is checked.
(DESIGN CHOICE, log entry 81.) -/
def wrScfg (n : Nat) (v : Word) (s : State) : State :=
  let src := (F.SDP_SCFG.SRC n).read v
  let nsets := nsetsStored ((F.SDP_SCFG.NSETS n).read v)
  let en := (F.SDP_SCFG.EN n).read v == 1
  if Nat.ble 2 src then s.raise F.SDP_EVT.CFG_REFUSED
  else if s.bit (F.SDP_SCFG.EN n) then
    let s := s.raiseIf (src != s.get (F.SDP_SCFG.SRC n) || nsets != s.get (F.SDP_SCFG.NSETS n)) F.SDP_EVT.CFG_REFUSED
    if en then s else (streamClose n 1 s).put (F.SDP_SCFG.EN n) 0
  else
    let s := (s.put (F.SDP_SCFG.SRC n) src).put (F.SDP_SCFG.NSETS n) nsets
    if !en then s
    else if s.streamBad n src then s.raise F.SDP_EVT.STRM_REFUSED
    else streamOpen n ((s.put (F.SDP_SCFG.EN n) 1).put (F.SDP_SCFG.NEFF n) (s.neff n src nsets))

/-- A write of SDP_CH_EN (R104): a cleared channel's partial output is discarded and the streams that carry it abort; a
set channel's filter starts. -/
def wrSdpChEn (v : Word) (s : State) : State :=
  let was := s.reg A.SDP_CH_EN
  let now := v &&& 0x01FFFFFF
  let cleared := channels.filter fun n => was.getLsbD n && !now.getLsbD n
  let set := channels.filter fun n => now.getLsbD n && !was.getLsbD n
  let hit := slots.filter fun n => s.bit (F.SDP_SCFG.EN n) && s.get (F.SDP_SCFG.SRC n) == 0 &&
    cleared.any fun c => s.rbit (A.SDP_SMASK n) c
  let s := s.each hit fun n s => (streamClose n 2 s).put (F.SDP_SCFG.EN n) 0
  let s := s.setReg A.SDP_CH_EN now
  s.each (cleared ++ set) fun n s => resFresh n (s.onChan n ChanSt.clear)

/-- A snapshot of the accumulators (R96). A tracker of COUNT 0 is written with VALUE 0.
(DESIGN CHOICE, log entry 81.) -/
def accSnapshot (s : State) : State :=
  let clr := s.bit F.SDP_ACC_CTRL.CLR
  let s := s.each channels fun n s =>
    let c := s.chan n
    let sum := unsign 56 c.sum
    let valid := Nat.blt 0 c.count
    let track := fun (v : Int) => Word.ofNat (if valid then 2 ^ 31 + unsign 24 v else 0)
    let s := ((s.setReg (A.SDP_ACCL n) (Word.ofNat sum)).setReg (A.SDP_ACCH n) (Word.ofNat (sum / 2 ^ 32))).setReg
      (A.SDP_ACNT n) (Word.ofNat c.count)
    let s := (s.setReg (A.SDP_MIN n) (track c.least)).setReg (A.SDP_MAX n) (track c.most)
    if clr then s.onChan n fun c => { c with sum := 0, count := 0, least := 0, most := 0 } else s
  let s := (s.setReg A.SDP_ACC_TSL ((timeWords s.sdp.lastSet).headD 0)).setReg A.SDP_ACC_TSH
    ((timeWords s.sdp.lastSet).getD 1 0)
  let s := if clr then s.put F.SDP_STAT.ACC_SAT 0 else s
  (s.raise F.SDP_ACC_CTRL.DONE).raise F.SDP_EVT.ACC_DONE

/-- A write of SDP_ACC_CTRL: the exclusions and CLR are stored; SNAP takes a snapshot (R96). -/
def wrAccCtrl (v : Word) (s : State) : State :=
  let s := s.plainWrite A.SDP_ACC_CTRL v
  if F.SDP_ACC_CTRL.SNAP.read v == 1 then accSnapshot (s.put F.SDP_ACC_CTRL.DONE 0) else s

/-! ### Views -/

/-- SDP_RESn as it reads (R94). -/
def State.resView (s : State) (n : Nat) : Word :=
  if s.ptr.dev == .run && s.sdpRuns && s.chanOn n && (s.chan n).shown then s.reg (A.SDP_RES n) else 0x40000000

/-- A set register as it reads (R94). -/
def State.setView (s : State) (a : Nat) : Word :=
  if s.ptr.dev == .run && s.sdpRuns && s.sdp.setValid then s.reg a else 0

/-- SDP_STAT as it reads: FILL, ROUTE and ACTIVE follow the datapath (R91, R106). -/
def State.sdpStatView (s : State) : Word :=
  let route := if !s.sdpRuns then 0 else if s.ptr.dev == .run then 2 else 1
  let fill := s.sdpRuns && s.enabledChans.any fun n => (s.chan n).filling
  F.SDP_STAT.FILL.write (F.SDP_STAT.ROUTE.write (F.SDP_STAT.ACTIVE.write (s.reg A.SDP_STAT) s.sdpRuns.toNat) route)
    fill.toNat

/-- A read of SDP_RESn marks it read (R93). -/
def resMark (n : Nat) (s : State) : State := s.onChan n fun c => { c with read := true }

/-- The device enters RUN: no result of this RUN period stands yet, and enabled streams open (R94, R98). -/
def sdpEnterRun (s : State) : State :=
  let s := s.each channels fun n s => (resFresh n s).onChan n fun c => { c with shown := false }
  streamsOpen { s with sdp := { s.sdp with setValid := false } }

/-- The device leaves RUN in good order: open streams close with CAUSE 3 (R104). -/
def sdpLeaveRun (s : State) : State := streamsClose 3 s

end Sys2Proof.Machine
end

