-- ==== Sys2Proof/Machine/Imp.lean ====
section
/-! DEFINITION. The impedance engine (spec/04_impedance_engine.md): excitation, windows, results, the fallback, and the
writes of its registers. -/

namespace Sys2Proof.Machine

/-- The tones and the contexts. -/
def tones : List Nat := List.range 6
def contexts : List Nat := List.range 160

/-- A tone's, a context's state, and its change. -/
def State.tone (s : State) (t : Nat) : ToneSt := s.imp.tones.getD t default
def State.ctx (s : State) (c : Nat) : CtxSt := s.imp.ctx.getD c default
def State.onTone (s : State) (t : Nat) (f : ToneSt → ToneSt) : State :=
  { s with imp := { s.imp with tones := modAt s.imp.tones t f } }
def State.onCtx (s : State) (c : Nat) (f : CtxSt → CtxSt) : State :=
  { s with imp := { s.imp with ctx := modAt s.imp.ctx c f } }
def State.onFb (s : State) (f : FbSt → FbSt) : State := { s with imp := { s.imp with fb := f s.imp.fb } }

/-- ACTIVE: the engine is enabled, the device is in RUN, SDP runs (R115, R140). -/
def State.impActive (s : State) : Bool := s.bit F.IMP_CTRL.EN && s.works [.run] && s.sdpRuns

/-- The phase controller regulates (R162); it no longer does while its last cycles complete (R174). -/
def State.phcRegulates (s : State) : Bool := s.get F.PHC_STAT.STATE == 2 && !s.phc.stopping

/-- The conditions of R112 for the excitation. -/
def State.excOk (s : State) : Bool :=
  s.bit F.IMP_CTRL.EN && s.get F.IMP_CTRL.EXC == 1 && s.works [.run] && s.phcRegulates

/-- Tone `t` is excited. -/
def State.toneOn (s : State) (t : Nat) : Bool := s.rbit A.IMP_STAT (8 + t)

/-- The fallback runs (R132, R133). -/
def State.fbRuns (s : State) : Bool := s.bit F.IMP_FB_CTRL.EN && s.get F.IMP_CTRL.EXC == 2 && s.impActive

/-- An open-wire test pass is running (R78). -/
def State.owRuns (s : State) : Bool := s.ow.step != .none

/-! ### What the fallback and open-wire passes withhold from balancing (R187) -/

/-- The slot in progress ends at once: every switch opens, the BAL tag stops, nothing is counted (R182, R187, R188). -/
def slotCut (s : State) : State :=
  { s.put F.BAL_STAT.ON 0 with bal := { s.bal with inSlot := false, tag := 0 } }

/-- The cases in which every switch is withheld from the scheduler (R187). -/
def State.balHeld (s : State) : Bool := s.fbRuns || s.owRuns

/-- HELD follows the cases of R187; when withholding begins, the slot in progress ends and BAL_EVT.HELD is set. -/
def balHold (s : State) : State :=
  if s.balHeld && !s.bit F.BAL_STAT.HELD then ((slotCut s).put F.BAL_STAT.HELD 1).raise F.BAL_EVT.HELD
  else s.putB F.BAL_STAT.HELD s.balHeld

/-- A fundamental period in ticks (R107). -/
def State.fundTicks (s : State) : Nat := s.get F.IMP_GRID.L * 2000

/-! ### Results (R121 to R125) -/

/-- The word of a result part, and whether it saturated (R121). -/
def partWord (v : Int) : Word × Bool :=
  (BitVec.ofInt 32 (clamp (-2147483647) 2147483647 v), decide (v < -2147483647 ∨ 2147483647 < v))

/-- A quotient rounded to nearest, ties away from zero; over a zero divisor a free value (R121).
(DESIGN CHOICE, log entry 13.) -/
def quotient (a b : Int) : Int :=
  if b == 0 then Config.byZero a else if b < 0 then roundDiv (-a) (-b) else roundDiv a b

/-- The flags word of a result (R122). -/
def flagBits (inv lowexc sat : Bool) (f : WinFlags) : Nat :=
  inv.toNat * 128 + f.dist.toNat * 64 + f.bal.toNat * 32 + f.refcold.toNat * 16 + f.openw.toNat * 8 +
  f.unsync.toNat * 4 + lowexc.toNat * 2 + sat.toNat

/-- A context's result is written and offered to the streams (R125, R137). -/
def ctxResult (c : Nat) (w : Time) (cause ndone flags : Nat) (cfg re im : Word) (s : State) : State :=
  let s := s.put (F.IMP_CTX_STAT.SEQ c) (s.get (F.IMP_CTX_STAT.SEQ c) + 1)
  let s := ((s.put (F.IMP_CTX_STAT.CAUSE c) cause).put (F.IMP_CTX_STAT.NDONE c) ndone).put (F.IMP_CTX_STAT.FLAGS c) flags
  let s := ((s.setReg (A.IMP_CTX_ZRE c) re).setReg (A.IMP_CTX_ZIM c) im).putBit (A.IMP_NEW (c / 32)) (c % 32) true
  let s := ((s.raise F.IMP_EVT.RESULT).raiseIf (cause != 0) F.IMP_EVT.ABORT).raiseIf (flags / 64 % 2 == 1)
    F.IMP_EVT.DISTURBED
  if (F.IMP_CTX_CFG.SEN c).read cfg == 1 then
    recordOffer ((F.IMP_CTX_CFG.TONE c).read cfg) w
      [Word.ofNat (c * 2 ^ 24 + cause * 2 ^ 20 + ndone % 4096 * 256 + flags), re, im] s
  else s

/-- The word that marks an invalid or aborted value (R121). -/
def invalidWord : Word := 0x80000000

/-- A reference's window was discarded: dependent results of the same window find its cause (R128). -/
def refLost (c : Nat) (w : Time) (cause : Nat) (cfg : Word) (s : State) : State :=
  if (F.IMP_CTX_CFG.KIND c).read cfg == 1 then s.onCtx c fun x => { x with ref := some ⟨w, 0, 0, cause, false⟩ } else s

/-- The IMP-path samples a window's result needs (R119); the module sum takes those of its 24 cells (R114). -/
def WinReady.needs (c : Nat) (r : WinReady) : Nat :=
  r.periods * r.acc.l * (if (F.IMP_CTX_CFG.SRC c).read r.cfg == 25 then 24 else 1)

/-- An ended window whose last IMP-path sample is still to come is in flight like any other (R126, R128): it is discarded,
with the fundamental periods integrated whole.
(DEDUCED, log entry 61.) -/
def readyAbort (cause c : Nat) (s : State) : State :=
  match (s.ctx c).ready with
  | none => s
  | some r =>
    if Nat.ble (r.needs c) r.acc.got then s
    else
      let flags := flagBits true false false r.seen
      let s := ctxResult c r.w cause (r.periods - 1) flags r.cfg invalidWord invalidWord s
      refLost c r.w cause r.cfg (s.onCtx c fun x => { x with ready := none })

/-- The window of context `c` in flight is discarded with a cause (R128). A discarded window has no end, and its record
carries the TIME of the discarding in its place.
(DESIGN CHOICE, log entry 81.) -/
def ctxAbort (cause c : Nat) (s : State) : State :=
  match (s.ctx c).integ with
  | none => s
  | some cfg =>
    let t := (F.IMP_CTX_CFG.TONE c).read cfg
    let ndone := (s.tone t).run.getD 0
    let flags := flagBits true false false (s.ctx c).seen
    let s1 := ctxResult c s.timeNow cause ndone flags cfg invalidWord invalidWord s
    refLost c s.timeNow cause cfg (s1.onCtx c fun x => { x with integ := none, seen := default })

/-- The windows in flight of the contexts a rule selects by configuration are discarded (R128). -/
def ctxAbortIf (cause : Nat) (p : Nat → Word → Bool) (s : State) : State :=
  s.each contexts fun c s =>
    let s := match (s.ctx c).ready with
      | some r => if p c r.cfg then readyAbort cause c s else s
      | none => s
    match (s.ctx c).integ with
    | some cfg => if p c cfg then ctxAbort cause c s else s
    | none => s

/-! ### The fallback (R132 to R135) -/

/-- A fallback result on a cell is written and offered to the streams (R133, R137). -/
def fbResult (cell : Nat) (w : Time) (cause ndone flags : Nat) (re im : Word) (s : State) : State :=
  let s := s.put F.IMP_FB_STAT.SEQ (s.get F.IMP_FB_STAT.SEQ + 1)
  let s := ((s.put F.IMP_FB_STAT.CAUSE cause).put F.IMP_FB_STAT.NDONE ndone).put F.IMP_FB_STAT.FLAGS flags
  let s := (s.setReg A.IMP_FB_ZRE re).setReg A.IMP_FB_ZIM im
  let s := ((s.raise F.IMP_EVT.FB_DONE).raiseIf (cause != 0) F.IMP_EVT.ABORT).raiseIf (flags / 64 % 2 == 1)
    F.IMP_EVT.DISTURBED
  recordOffer 6 w
    [Word.ofNat ((224 + cell) * 2 ^ 24 + cause * 2 ^ 20 + ndone % 4096 * 256 + flags), re, im] s

/-- An ended fallback window lacks IMP-path samples that are still to come (R134). -/
def WinReady.fbLacks (r : WinReady) : Bool := Nat.blt r.acc.got (r.periods * r.acc.l)

/-- A fallback result of no value is written for a window on a cell. -/
def fbVoid (cell : Nat) (w : Time) (cause ndone : Nat) (seen : WinFlags) (s : State) : State :=
  fbResult cell w cause ndone (flagBits true false false { seen with bal := false }) invalidWord invalidWord s

/-- The fallback's ended window is discarded where its last IMP-path sample is still to come (R126, R128).
(DEDUCED, log entry 61.) -/
def fbReadyAbort (cause : Nat) (s : State) : State :=
  match s.imp.fb.ready with
  | none => s
  | some r =>
    if r.fbLacks then
      fbVoid (F.IMP_FB_CTRL.CELL.read r.cfg) r.w cause (r.periods - 1) r.seen (s.onFb fun f => { f with ready := none })
    else s

/-- The fallback's windows in flight are discarded, and BLn opens (R128, R135).
(DESIGN CHOICE, log entry 81.) -/
def fbAbort (cause : Nat) (s : State) : State :=
  let s := fbReadyAbort cause s
  let fb := s.imp.fb
  let s1 := match fb.tone.run with
    | some n => fbVoid (s.get F.IMP_FB_CTRL.CELL) s.timeNow cause n fb.seen s
    | none => s
  (s1.put F.IMP_STAT.FB_BUSY 0).onFb fun f => { f with closed := false, tone := default, seen := default }

/-- BLn is withheld from the fallback, in a thermal pause slot or an open-wire pass, whether it runs yet or is enabled
only later in it (R135). -/
def fbWithhold (s : State) : State :=
  (if s.fbRuns && !s.imp.fb.withheld then fbAbort 9 s else s).onFb fun f => { f with withheld := true }

/-- The withholding ends; switching resumes at the next fundamental boundary (R135). -/
def fbRelease (s : State) : State := s.onFb fun f => { f with withheld := false }

/-! ### Events that end windows (R128) -/

/-- Every tone's windows stop; they start anew, with SKIP, once the excitation's conditions hold. -/
def tonesStop (s : State) : State := s.each tones fun t s => s.onTone t fun x => { x with left := none, run := none }

/-- A condition of R112 has ceased to hold for a tone that is excited: its contribution ends at the first trigger from now
on; with the trigger stopped, at once (R112, R126). -/
def excDrop (s : State) : State :=
  let s := s.each tones fun k s =>
    if s.toneOn k && !(s.excOk && s.bit (F.IMP_TONE.EN k)) then
      if s.bit F.MEAS_CTRL.ARRAY_EN then s.onTone k fun x => { x with gone := true }
      else
        let s := (s.putBit A.IMP_STAT (8 + k) false).onTone k fun x => { x with gone := false }
        { s with imp := { s.imp with exc := s.imp.exc.filter fun e => e.tone != k } }
    else s
  if s.bit F.MEAS_CTRL.ARRAY_EN then s else s.putB F.IMP_STAT.EXC_ON (s.bit F.IMP_STAT.EXC_ON && s.excOk)

/-- Every window in flight is discarded, and the fallback's too where `fb` holds. -/
def impAbortAll (cause : Nat) (fb : Bool) (s : State) : State :=
  let s := tonesStop (ctxAbortIf cause (fun _ _ => true) s)
  if fb then fbAbort cause s else s

/-- The phase controller stops regulating (R128). -/
def impPhcLost (s : State) : State := 
  impAbortAll 3 false (s.raiseIf (s.bit F.IMP_STAT.EXC_ON && s.ptr.dev == .run) F.IMP_EVT.EXC_LOST)

/-- The device leaves RUN (R128); a window that the phase controller's stop also ends is written with CAUSE 3 before
(R129). -/
def impLeaveRun (s : State) : State := impAbortAll 6 true s

/-- SDP_CFG.EN is cleared (R115, R128). -/
def impSdpOff (s : State) : State :=
  let s := impAbortAll 7 true s
  { s with imp := { s.imp with path := List.replicate 25 [] } }

/-- A context's own input or that of its reference is channel `n` (R114, R117). -/
def usesChannel (n : Nat) (c : Nat) (cfg : Word) : Bool :=
  let src := (F.IMP_CTX_CFG.SRC c).read cfg
  src == n || (src == 25 && Nat.blt n 24) || ((F.IMP_CTX_CFG.KIND c).read cfg == 0 && n == 24)

/-- Channel `n` has no sample at a trigger (R128). -/
def impGap (n : Nat) (s : State) : State := ctxAbortIf 4 (usesChannel n) s

/-- The alignment base, MEAS_TRIG.PHASE or SRC changes (R43, R128): every window in flight is discarded, the fallback's
too, whose switching starts again on the new grid; the decimators start afresh.
(DEDUCED, log entry 61.) -/
def impGridChange (s : State) : State :=
  let s := ctxAbortIf 4 (fun _ _ => true) s
  let s := if s.bit F.IMP_STAT.FB_BUSY then fbAbort 4 s else fbReadyAbort 4 s
  { s with imp := { s.imp with path := List.replicate 25 [] } }

/-! ### The IMP path and the demodulation (R114, R120) -/

/-- Taps of the decimator: a second-order CIC by 20 weighs 39 samples 1, 2, …, 20, …, 2, 1, with a gain of 400.
(DEDUCED, log entry 61.) -/
def pathWeight (i : Nat) : Int := if Nat.blt i 20 then (i : Int) + 1 else 39 - i

/-- The decimator's response to a tone of H × 50,000 / L Hz, as its value for e^jωt at the instant of x(k): real and
imaginary part, in 1/2^60 of a gain of 1/400 (R120).
(DEDUCED, log entry 61.) -/
def pathResponse (l h : Nat) : Int × Int :=
  let part := fun (f : Int → Int → Int) =>
    ((List.range 39).map fun i => pathWeight i * f (h * i) (20 * l)).sum
  (part cosTurn, part sinTurn)

/-- The IMP-path sample x(k) of a channel, times 400, and its instant, once the last of its 39 raw samples has come: x(k)
takes the raw samples from its instant on to 38 µs later, which the delay of R126 allows (R114).
(DEDUCED, log entry 61.) -/
def State.pathSample (s : State) (raw : List (Time × Int)) : Option (Time × Int) :=
  match raw.head?, raw.getLast? with
  | some new, some old =>
    if raw.length == 39 && new.1.toNat == old.1.toNat + 3800 && s.onGrid old.1 2000 then
      some (old.1, ((List.range 39).map fun i => pathWeight i * (raw.getD i default).2).sum)
    else none
  | _, _ => none

/-- A window's demodulation with nothing taken yet.
(DEDUCED, log entry 61.) -/
def Demod.fresh (start : Time) (l h ph imin : Nat) : Demod :=
  { (default : Demod) with start := start, l := l, h := h, ph := ph, imin := imin }

/-- x(k) at instant `u` enters a demodulation: θ(k) = 2π (H k / L + PH / 256) (R120). -/
def Demod.take (u : Time) (x : Int) (d : Demod) : Demod :=
  if Nat.blt u.toNat d.start.toNat then d
  else
    let k := (u.toNat - d.start.toNat) / 2000
    let num : Int := 256 * d.h * k + d.ph * d.l
    let den : Int := 256 * d.l
    { d with re := d.re + x * cosTurn num den, im := d.im - x * sinTurn num den, sum := d.sum + x, got := d.got + 1 }

/-- A window's demodulation takes x(k) where it lies before the window's end. -/
def WinReady.take (u : Time) (x : Int) (r : WinReady) : WinReady :=
  if Nat.blt u.toNat r.w.toNat then { r with acc := r.acc.take u x } else r

/-- x(k) of channel `n` enters the windows that use it as their source: its own, and those of the module sum (R114). -/
def impTake (n : Nat) (u : Time) (x : Int) (s : State) : State :=
  let uses := fun (c : Nat) (cfg : Word) =>
    let src := (F.IMP_CTX_CFG.SRC c).read cfg
    src == n || (src == 25 && Nat.blt n 24)
  let s := s.each contexts fun c s =>
    s.onCtx c fun y => { y with
      acc := if y.integ.any (uses c) then y.acc.take u x else y.acc,
      ready := y.ready.map fun r => if uses c r.cfg then r.take u x else r }
  s.onFb fun f => { f with
    acc := if f.tone.run.isSome && s.get F.IMP_FB_CTRL.CELL == n then f.acc.take u x else f.acc,
    ready := f.ready.map fun r => if F.IMP_FB_CTRL.CELL.read r.cfg == n then r.take u x else r }

/-- A corrected sample of channel `n` enters its decimator (R114), and its tags count for the flags of the windows in
flight (R122). -/
def impSample (n : Nat) (x : Sample) (s : State) : State :=
  let raw := ((x.time, x.val) :: s.imp.path.getD n []).take 39
  let s := { s with imp := { s.imp with path := modAt s.imp.path n fun _ => raw } }
  let s := match s.pathSample raw with
    | some y => impTake n y.1 y.2 s
    | none => s
  let add := fun (own : Bool) (f : WinFlags) => { f with
    bal := f.bal || (own && x.bal && n != 24), refcold := f.refcold || x.refcold, openw := f.openw || x.openw,
    unsync := f.unsync || x.unsync }
  let s := s.each contexts fun c s =>
    match (s.ctx c).integ with
    | some cfg => if usesChannel n c cfg then s.onCtx c fun y => { y with seen := add true y.seen } else s
    | none => s
  if s.imp.fb.tone.run.isSome && s.get F.IMP_FB_CTRL.CELL == n then s.onFb fun f => { f with seen := add false f.seen }
  else s

/-- A failed check is noted of an ended window that still lacks samples. -/
def WinReady.residue (lacks : Bool) (r : WinReady) : WinReady :=
  if lacks then { r with seen := { r.seen with residue := true } } else r

/-- A correction-stage mismatch of channel `n` acts as a failed check of the contexts that use it, in their windows in
flight and in those ended ones that wait for their last sample (R124).
(DEDUCED, log entry 61.) -/
def impResidue (n : Nat) (s : State) : State :=
  let s := s.each contexts fun c s =>
    s.onCtx c fun y => { y with
      seen := { y.seen with residue := y.seen.residue || y.integ.any (usesChannel n c) },
      ready := y.ready.map fun r =>
        r.residue (usesChannel n c r.cfg && Nat.blt r.acc.got (r.needs c)) }
  s.onFb fun f => { f with
    seen := { f.seen with residue := f.seen.residue || (f.tone.run.isSome && s.get F.IMP_FB_CTRL.CELL == n) },
    ready := f.ready.map fun r => r.residue (F.IMP_FB_CTRL.CELL.read r.cfg == n && r.fbLacks) }

/-- A protective action of the phase controller marks every window in flight (R131). -/
def impDisturb (s : State) : State :=
  s.each contexts fun c s =>
    if (s.ctx c).integ.isSome then s.onCtx c fun x => { x with seen := { x.seen with dist := true } } else s

/-- The phase controller switches: a fallback window in flight is marked (R134). -/
def fbDisturb (s : State) : State :=
  if s.imp.fb.tone.run.isSome then s.onFb fun f => { f with seen := { f.seen with dist := true } } else s

/-! ### Trigger instants (R110 to R112) -/

/-- The excitation is computed at a trigger instant; what may no longer be excited is removed. Windows run on through a
shed or added phase (R130). -/
def impTrigger (t : Time) (s : State) : State :=
  let keep := fun k => s.toneOn k && !(s.tone k).gone && s.excOk && s.bit (F.IMP_TONE.EN k)
  let on := (bitsWord 6 keep).toNat
  let terms := (tones.filter keep).map fun k =>
    ⟨k, s.get (F.IMP_TONE.AMP k), s.get (F.IMP_TONE.H k), s.get (F.IMP_TWIN.PH k)⟩
  let s1 := (s.put F.IMP_STAT.TONE_ON on).putB F.IMP_STAT.EXC_ON (s.bit F.IMP_STAT.EXC_ON && s.excOk)
  let s1 := s1.each tones fun k s => s.onTone k fun x => { x with gone := false }
  { s1 with imp := { s1.imp with exc := terms, excTau := t.toNat - s.imp.boundary.toNat } }

/-- i_ph of R110 over I_lim / 1,024, in 1/2^60: the sum of AMP_t × cos(2π (f_t τ + PH_t / 256)), with f_t τ =
H_t × τ / (L × 2,000) for τ in ticks. -/
def State.excSum (s : State) : Int :=
  let l : Int := s.get F.IMP_GRID.L
  (s.imp.exc.map fun e => (e.amp : Int) * cosTurn (256 * e.h * s.imp.excTau + 2000 * l * e.ph) (512000 * l)).sum

/-! ### Fundamental boundaries (R112, R119, R133) -/

/-- A window of tone `k` begins at `w`: every context enabled on it integrates under its present configuration, unless
its window on the tone it was configured for before is still in flight (R19, R118).
(DEDUCED, log entry 61.) -/
def windowStart (w : Time) (k : Nat) (s : State) : State :=
  let s := s.onTone k fun _ => ⟨none, some 0, false⟩
  let acc := Demod.fresh w (s.get F.IMP_GRID.L) (s.get (F.IMP_TONE.H k)) (s.get (F.IMP_TWIN.PH k)) (s.get F.IMP_LIM.IMIN)
  s.each contexts fun c s =>
    if s.bit (F.IMP_CTX_CFG.EN c) && s.get (F.IMP_CTX_CFG.TONE c) == k && (s.ctx c).integ.isNone then
      s.onCtx c fun x => { x with integ := some (s.reg (A.IMP_CTX_CFG c)), seen := default, acc := acc }
    else s

/-- The window of tone `k` closes at `w`: the results of its contexts are due. A window that lacks more than its last
IMP-path sample had none at some trigger instant, and is discarded with CAUSE 4 (R128); so is an ended one that waits.
(DEDUCED, log entry 61.) -/
def windowEnd (w : Time) (k : Nat) (s : State) : State :=
  let n := s.get (F.IMP_TWIN.NPER k)
  s.each contexts fun c s =>
    match (s.ctx c).integ with
    | some cfg =>
      if (F.IMP_CTX_CFG.TONE c).read cfg != k then s
      else
        let s := readyAbort 4 c s
        let y := s.ctx c
        let r : WinReady := ⟨w, n, cfg, y.seen, y.acc⟩
        let per := if (F.IMP_CTX_CFG.SRC c).read cfg == 25 then 24 else 1
        if Nat.blt (y.acc.got + per) (r.needs c) then ctxAbort 4 c s
        else s.onCtx c fun x => { x with integ := none, ready := some r, seen := default }
    | none => s

/-- The window of tone `k` closes at the present boundary. -/
def State.toneCloses (s : State) (k : Nat) : Bool :=
  s.excOk && s.bit (F.IMP_TONE.EN k) && s.toneOn k && !(s.tone k).gone && s.sdpRuns &&
  match (s.tone k).run with
  | some n => Nat.ble (s.get (F.IMP_TWIN.NPER k)) (n + 1)
  | none => false

/-- What begins or goes on for one tone at a boundary, its window having been closed where it ends here. -/
def toneBoundary (w : Time) (k : Nat) (s : State) : State :=
  let begin := fun (s : State) =>
    let skip := s.get (F.IMP_TWIN.SKIP k)
    if skip == 0 then windowStart w k s else s.onTone k fun _ => ⟨some skip, none, false⟩
  if !(s.excOk && s.bit (F.IMP_TONE.EN k)) then s
  else if !s.toneOn k || (s.tone k).gone then
    let s := (s.putBit A.IMP_STAT (8 + k) true).onTone k fun _ => default
    if s.sdpRuns then begin s else s
  else if !s.sdpRuns then s
  else match (s.tone k).run, (s.tone k).left with
    | some n, _ =>
      if Nat.ble (s.get (F.IMP_TWIN.NPER k)) (n + 1) then windowStart w k s
      else s.onTone k fun _ => ⟨none, some (n + 1), false⟩
    | none, some n => if Nat.ble n 1 then windowStart w k s else s.onTone k fun _ => ⟨some (n - 1), none, false⟩
    | none, none => begin s

/-- The fallback's window ends at `w` (R133). One that lacks more than its last IMP-path sample had none at some trigger
instant, and is discarded with CAUSE 4 (R128); so is an ended one that still waits.
(DEDUCED, log entry 61.) -/
def fbWindowEnd (w : Time) (n : Nat) (s : State) : State :=
  let s := fbReadyAbort 4 s
  let f := s.imp.fb
  let r : WinReady := ⟨w, n, s.reg A.IMP_FB_CTRL, f.seen, f.acc⟩
  if Nat.blt (r.acc.got + 1) (n * r.acc.l) then fbVoid (s.get F.IMP_FB_CTRL.CELL) w 4 (n - 1) r.seen s
  else s.onFb fun f => { f with ready := some r }

/-- The fallback at a boundary: switching starts with BLn closed; windows follow SKIP (R133). -/
def fbBoundary (w : Time) (s : State) : State :=
  let acc := Demod.fresh w (s.get F.IMP_GRID.L) (s.get F.IMP_FB_TONE.H) 0 0
  let fresh := fun (s : State) => s.onFb fun f => { f with tone := ⟨none, some 0, false⟩, seen := default, acc := acc }
  if !s.fbRuns || s.imp.fb.withheld then s
  else if !s.bit F.IMP_STAT.FB_BUSY then
    let s := (s.raise F.IMP_STAT.FB_BUSY).onFb fun f => { f with closed := true }
    let skip := s.get F.IMP_FB_CTRL.SKIP
    if skip == 0 then fresh s else s.onFb fun f => { f with tone := ⟨some skip, none, false⟩ }
  else match s.imp.fb.tone.run, s.imp.fb.tone.left with
    | some n, _ =>
      if Nat.ble (s.get F.IMP_FB_CTRL.NPER) (n + 1) then fresh (fbWindowEnd w (n + 1) s)
      else s.onFb fun f => { f with tone := ⟨none, some (n + 1), false⟩ }
    | none, some n => if Nat.ble n 1 then fresh s else s.onFb fun f => { f with tone := ⟨some (n - 1), none, false⟩ }
    | none, none => s

/-- FUNDAMENTAL_BOUNDARY: excitation and windows start, windows end (R107, R112, R119, R133).
(DESIGN CHOICE, log entry 7.) -/
def boundary (t : Time) (s : State) : State :=
  if s.bit F.IMP_CTRL.EN && s.onGrid t s.fundTicks && s.timeMay t then
    let s := { s with ptr := { s.ptr with time := t }, imp := { s.imp with boundary := t } }
    let s := (s.each (tones.filter s.toneCloses) (windowEnd t)).each tones (toneBoundary t)
    fbBoundary t (s.raiseIf s.excOk F.IMP_STAT.EXC_ON)
  else s

/-! ### Writing results -/

/-- The cause a result is written with: its own residue mismatch, or what its reference gives (R123, R124, R128, R129). -/
def resultCause (bad : Bool) (ref : Option RefResult) (kind : Nat) : Nat :=
  let own := if bad then 10 else 0
  if kind != 0 then own
  else match ref with
    | none => 8
    | some r =>
      if r.cause == 10 then 10
      else if r.cause != 0 || (r.re == 0 && r.im == 0) then 8 else own

/-- A complex quotient (a + jb) / (c + jd) times num / den, its parts rounded: what R121 makes of two phasors.
(DESIGN CHOICE, log entry 13.) -/
def phasorOver (a b c d num den : Int) : Int × Int :=
  let m := (c * c + d * d) * den
  (quotient ((a * c + b * d) * num) m, quotient ((b * c - a * d) * num) m)

/-- The result of a context (R120, R121) from its sums over N IMP-path samples and those of its reference: X is 2 / N
times the sums, in 1/16 µV; KIND 1 and 2 divide it by the decimator's response at the tone.
(DEDUCED, log entry 61.) -/
def resultValue (kind : Nat) (rsh : Int) (n : Nat) (acc : Demod) (ref : Option RefResult) : Int × Int :=
  let p := pathResponse acc.l acc.h
  if kind == 0 then
    match ref with
    | some r => phasorOver acc.re acc.im r.re r.im (-rsh) 1000
    | none => (0, 0)
  else if kind == 1 then phasorOver acc.re acc.im p.1 p.2 2000000 (16 * n * rsh)
  else phasorOver acc.re acc.im p.1 p.2 2 (16 * n)

/-- |I| of a reference phasor is below the IMIN of its window's start, in mA (R19, R123): |2 S / (16 N R)| × 10^6 / RSH
against IMIN, squared. -/
def State.lowExc (s : State) (n : Nat) (acc : Demod) : Bool :=
  let rsh : Int := s.get F.IMP_RSHUNT.RSH
  let imin : Int := acc.imin
  let p := pathResponse acc.l acc.h
  let lim := imin * rsh * 8 * n
  decide ((acc.re * acc.re + acc.im * acc.im) * 1000000 * 1000000 < lim * lim * (p.1 * p.1 + p.2 * p.2))

/-- IMP_RESULT_WRITE: the result of context `c` for its ended window, once its last IMP-path sample has come (R121 to
R126). A KIND 0 result waits for that of its reference. An uncorrectable accumulator is a failed check; a result whose staging
is uncorrectable is discarded (R373).
(DEDUCED, log entry 61.) -/
def impResult (c : Nat) (reBad : Bool) (o : ResultObs) (s : State) : State :=
  let bad := reBad || o.bad || o.acc == .uncorrectable
  match (s.ctx c).ready with
  | none => s
  | some r =>
    let kind := (F.IMP_CTX_CFG.KIND c).read r.cfg
    let rc := (F.IMP_CTX_CFG.REF c).read r.cfg
    let refWaits := match (s.ctx rc).ready with | some q => q.w == r.w | none => false
    if (kind == 0 && refWaits) || Nat.blt r.acc.got (r.needs c) then s
    else
      let n := r.periods * r.acc.l
      let ref := match (s.ctx rc).ref with | some q => if q.w == r.w then some q else none | none => none
      let own := bad || r.seen.residue
      let cause := resultCause own ref kind
      let low := match kind, ref with
        | 0, some q => q.low
        | 1, _ => cause == 0 && s.lowExc n r.acc
        | _, _ => false
      let v := resultValue kind (s.get F.IMP_RSHUNT.RSH) n r.acc ref
      let x := partWord v.1
      let y := partWord v.2
      let inv := cause != 0
      let flags := flagBits inv low (!inv && (x.2 || y.2)) r.seen
      let s := if bad then s.bump F.IMP_RCNT.MISMATCH 1 else s
      let s := if cause == 10 then s.bump F.IMP_RCNT.INVALID 1 else s
      let s := (s.raiseIf own F.IMP_EVT.RESIDUE).raiseIf low F.IMP_EVT.LOWEXC
      let s := s.onCtx c fun z => { z with
        ready := none, ref := if kind == 1 then some ⟨r.w, r.acc.re, r.acc.im, cause, low⟩ else z.ref }
      sramSees .buffers o.stage id
        (ctxResult c r.w cause r.periods flags r.cfg (if inv then invalidWord else x.1) (if inv then invalidWord else y.1))
        (sramSees .path o.acc id id s)

/-- FB_RESULT_WRITE: the fallback's result for its ended window, once its last IMP-path sample has come (R134): with X = 2 S / N and V̄ the sum over N of the same
samples, Z = −j S × π × RBAL × 1,000 / sum.
(DEDUCED, log entry 61.) -/
def fbResultWrite (accBad : Bool) (o : ResultObs) (s : State) : State :=
  let bad := accBad || o.bad || o.acc == .uncorrectable
  match s.imp.fb.ready with
  | none => s
  | some r =>
    if r.fbLacks then s
    else
    let cause := if bad || r.seen.residue then 10 else 0
    let rbal : Int := s.get F.IMP_FB_RBAL.RBAL
    let den := r.acc.sum * fixOne * piDen
    let x := partWord (quotient (r.acc.im * piNum * rbal * 1000) den)
    let y := partWord (quotient (-r.acc.re * piNum * rbal * 1000) den)
    let inv := cause != 0
    let flags := flagBits inv false (!inv && (x.2 || y.2)) { r.seen with bal := false }
    let s := if bad then s.bump F.IMP_RCNT.MISMATCH 1 else s
    let s := if inv then (s.bump F.IMP_RCNT.INVALID 1).raise F.IMP_EVT.RESIDUE else s
    sramSees .buffers o.stage id
      (fbResult (F.IMP_FB_CTRL.CELL.read r.cfg) r.w cause r.periods flags (if inv then invalidWord else x.1)
        (if inv then invalidWord else y.1))
      (sramSees .path o.acc id id (s.onFb fun f => { f with ready := none }))

/-! ### Register writes -/

/-- A write of this block is refused. -/
def impRefuse (s : State) : State := s.raise F.IMP_EVT.CFG_REFUSED

/-- A write of IMP_CTRL (R109, R112, R128). -/
def wrImpCtrl (v : Word) (s : State) : State :=
  let en := F.IMP_CTRL.EN.read v == 1
  let exc := F.IMP_CTRL.EXC.read v
  if s.bit F.IMP_CTRL.EN then
    let s := s.raiseIf (exc != s.get F.IMP_CTRL.EXC) F.IMP_EVT.CFG_REFUSED
    if en then s else balHold (excDrop ((impAbortAll 5 true s).put F.IMP_CTRL.EN 0))
  else if exc == 3 || (en && exc == 1 && s.get F.IMP_RSHUNT.RSH == 0) then impRefuse s
  else balHold ((s.put F.IMP_CTRL.EXC exc).putB F.IMP_CTRL.EN en)

/-- A write of IMP_GRID: held within 25 to 500,000, refused while EN is 1 (R109). -/
def wrImpGrid (v : Word) (s : State) : State :=
  if s.bit F.IMP_CTRL.EN then impRefuse s
  else s.put F.IMP_GRID.L (min 500000 (max 25 (F.IMP_GRID.L.read v)))

/-- A write of IMP_RSHUNT, refused while EN is 1 (R109). -/
def wrImpRshunt (v : Word) (s : State) : State :=
  if s.bit F.IMP_CTRL.EN then impRefuse s else s.plainWrite A.IMP_RSHUNT v

/-- The sum of AMP over the enabled tones other than `t`. -/
def State.ampOthers (s : State) (t : Nat) : Nat :=
  ((tones.filter fun k => k != t && s.bit (F.IMP_TONE.EN k)).map fun k => s.get (F.IMP_TONE.AMP k)).sum

/-- The enable of tone `t` with harmonic `h` and amplitude `amp` is refused (R108). f_t = h × 50,000 / L. -/
def State.toneBad (s : State) (t h amp : Nat) : Bool :=
  let l := s.get F.IMP_GRID.L
  Nat.blt (h * 500000) l || Nat.blt (2000 * l) (h * 50000) ||
  (tones.any fun k => k != t && s.bit (F.IMP_TONE.EN k) && s.get (F.IMP_TONE.H k) == h) ||
  Nat.blt 384 (s.ampOthers t + amp)

/-- A write of IMP_TONEt (R108, R109, R128).
(DEDUCED, log entry 61.) -/
def wrTone (t : Nat) (v : Word) (s : State) : State :=
  let en := (F.IMP_TONE.EN t).read v == 1
  let h := max 1 ((F.IMP_TONE.H t).read v)
  let amp := min 128 ((F.IMP_TONE.AMP t).read v)
  if s.bit (F.IMP_TONE.EN t) then
    if en then impRefuse s
    else
      let s := ctxAbortIf 2 (fun c cfg => (F.IMP_CTX_CFG.TONE c).read cfg == t) s
      let s := s.onTone t fun x => { x with left := none, run := none }
      excDrop (((s.put (F.IMP_TONE.H t) h).put (F.IMP_TONE.AMP t) amp).put (F.IMP_TONE.EN t) 0)
  else
    let s1 := (s.put (F.IMP_TONE.H t) h).put (F.IMP_TONE.AMP t) amp
    if !en then s1
    else if s.toneBad t h amp then impRefuse s1
    else s1.put (F.IMP_TONE.EN t) 1

/-- A write of IMP_TWINt: refused while the tone is enabled (R109). -/
def wrTwin (t : Nat) (v : Word) (s : State) : State :=
  if s.bit (F.IMP_TONE.EN t) then impRefuse s
  else (s.plainWrite (A.IMP_TWIN t) v).put (F.IMP_TWIN.NPER t) (max 1 ((F.IMP_TWIN.NPER t).read v))

/-- A write of IMP_CTXc_CFG is refused (R118, and the limits of TONE and REF in R140). -/
def State.ctxBad (s : State) (c : Nat) (v : Word) : Bool :=
  let kind := (F.IMP_CTX_CFG.KIND c).read v
  let src := (F.IMP_CTX_CFG.SRC c).read v
  let tone := (F.IMP_CTX_CFG.TONE c).read v
  let ref := (F.IMP_CTX_CFG.REF c).read v
  Nat.ble 6 tone || Nat.ble 160 ref ||
  (if (F.IMP_CTX_CFG.EN c).read v == 1 then
    kind == 3 || Nat.ble 26 src || (kind == 1 && src != 24) ||
    (kind == 0 && !(s.bit (F.IMP_CTX_CFG.EN ref) && s.get (F.IMP_CTX_CFG.KIND ref) == 1 &&
      s.get (F.IMP_CTX_CFG.TONE ref) == tone))
  else
    s.bit (F.IMP_CTX_CFG.EN c) && contexts.any fun d => s.bit (F.IMP_CTX_CFG.EN d) &&
      s.get (F.IMP_CTX_CFG.KIND d) == 0 && s.get (F.IMP_CTX_CFG.REF d) == c)

/-- A write of IMP_CTXc_CFG (R118, R128): clearing EN discards the window in flight.
(DEDUCED, log entry 61.) -/
def wrCtxCfg (c : Nat) (v : Word) (s : State) : State :=
  if s.ctxBad c v then impRefuse s
  else
    let s := if (F.IMP_CTX_CFG.EN c).read v == 0 then ctxAbort 1 c (readyAbort 1 c s) else s
    s.plainWrite (A.IMP_CTX_CFG c) v

/-- The enable of the fallback is refused (R132). f_FB = H × 50,000 / L. -/
def State.fbBad (s : State) : Bool :=
  let l := s.get F.IMP_GRID.L
  let h := s.get F.IMP_FB_TONE.H
  !(s.bit F.IMP_CTRL.EN) || s.get F.IMP_CTRL.EXC != 2 || Nat.blt (h * 500000) l || Nat.blt (100 * l) (h * 50000) ||
  s.get F.IMP_FB_RBAL.RBAL == 0

/-- A write of IMP_FB_CTRL (R132, R135). While the fallback runs only clearing EN is taken. -/
def wrFbCtrl (v : Word) (s : State) : State :=
  let en := F.IMP_FB_CTRL.EN.read v == 1
  let store := fun (s : State) =>
    ((s.put F.IMP_FB_CTRL.CELL (min 23 (F.IMP_FB_CTRL.CELL.read v))).put F.IMP_FB_CTRL.SKIP
      (F.IMP_FB_CTRL.SKIP.read v)).put F.IMP_FB_CTRL.NPER (max 1 (F.IMP_FB_CTRL.NPER.read v))
  if s.bit F.IMP_FB_CTRL.EN then
    if en then impRefuse s else balHold (store ((fbAbort 1 s).put F.IMP_FB_CTRL.EN 0))
  else
    let s := store s
    if !en then s else if s.fbBad then impRefuse s else balHold (s.put F.IMP_FB_CTRL.EN 1)

/-- A write of IMP_FB_TONE or IMP_FB_RBAL: refused while the fallback runs (R135). -/
def wrFbTone (v : Word) (s : State) : State :=
  if s.bit F.IMP_FB_CTRL.EN then impRefuse s else s.put F.IMP_FB_TONE.H (max 1 (F.IMP_FB_TONE.H.read v))
def wrFbRbal (v : Word) (s : State) : State :=
  if s.bit F.IMP_FB_CTRL.EN then impRefuse s else s.plainWrite A.IMP_FB_RBAL v

/-- A write of SDP_CFG (R89, R104, R128): clearing EN ends the datapath's and this engine's work; a write that changes RATE
while EN is 1, or with RATE 6 or 7, is ignored as a whole. -/
def wrSdpCfg (v : Word) (s : State) : State :=
  let en := F.SDP_CFG.EN.read v == 1
  let rate := F.SDP_CFG.RATE.read v
  if Nat.ble 6 rate || (s.bit F.SDP_CFG.EN && rate != s.get F.SDP_CFG.RATE) then s.raise F.SDP_EVT.CFG_REFUSED
  else if s.bit F.SDP_CFG.EN then if en then s else balHold (sdpOff (impSdpOff s))
  else
    let s := s.put F.SDP_CFG.RATE rate
    if en then balHold (sdpOn s) else s

/-- FB_SWITCH: a half period of f_FB ends (R133). The drive keeps its phase through an overcurrent fault, which holds BLn
open (R180). -/
def fbToggle (s : State) : State :=
  if s.fbRuns && s.bit F.IMP_STAT.FB_BUSY && !s.imp.fb.withheld then s.onFb fun f => { f with closed := !f.closed }
  else s

/-! ### Views -/

/-- IMP_STAT as it reads (R140). -/
def State.impStatView (s : State) : Word :=
  F.IMP_STAT.ACTIVE.write (F.IMP_STAT.PHC_READY.write (s.reg A.IMP_STAT) s.phcRegulates.toNat) s.impActive.toNat

/-- IMP_CTXc_STAT as it reads: STATE follows the context. -/
def State.ctxStatView (s : State) (c : Nat) : Word :=
  let st := if !(s.bit (F.IMP_CTX_CFG.EN c) && s.bit F.IMP_CTRL.EN) then 0 else if (s.ctx c).integ.isSome then 2 else 1
  (F.IMP_CTX_STAT.STATE c).write (s.reg (A.IMP_CTX_STAT c)) st

/-- IMP_FB_STAT as it reads. -/
def State.fbStatView (s : State) : Word :=
  let st := if !s.fbRuns then 0 else if s.imp.fb.tone.run.isSome then 2 else 1
  F.IMP_FB_STAT.STATE.write (s.reg A.IMP_FB_STAT) st

end Sys2Proof.Machine
end

