-- ==== Sys2Proof/Machine/Phc.lean ====
section
/-! DEFINITION. The phase controller (spec/05_phase_controller.md): its states, per-cycle evaluations, protection, fault
record, and the writes of its registers. -/

namespace Sys2Proof.Machine

/-- The phases. -/
def phases : List Nat := List.range 6

/-- A phase's state, and its change. -/
def State.phase (s : State) (x : Nat) : PhaseSt := s.phc.phases.getD x default
def State.onPhase (s : State) (x : Nat) (f : PhaseSt → PhaseSt) : State :=
  { s with phc := { s.phc with phases := modAt s.phc.phases x f } }

/-- STATE (R162). -/
def State.phcState (s : State) : Nat := s.get F.PHC_STAT.STATE

/-- The enabled phases; those that have not failed; the active ones. -/
def State.phEn (s : State) : List Nat := phases.filter fun x => (s.get F.PHC_CTRL.PH_EN).testBit x
def State.phAvail (s : State) : List Nat := s.phEn.filter fun x => !s.phc.failed.getLsbD x
def State.phAct (s : State) : List Nat := phases.filter fun x => (s.get F.PHC_STAT.ACT).testBit x

/-- The controller switches in the states Soft start and Regulating (R162), until it is disabled (R174). -/
def State.phcSwitching (s : State) : Bool := (s.phcState == 1 || s.phcState == 2) && !s.phc.stopping

/-- D9 is on and the device in RUN or RECOVER (R144). -/
def State.phcPowered (s : State) : Bool := s.on 9 && s.works [.run, .recover]

/-- The six-bit mask of a list of phases. -/
def phaseMask (xs : List Nat) : Nat := (bitsWord 6 xs.contains).toNat

/-- The trim of phase `x` in use, and its change. -/
def State.trim (s : State) (x : Nat) : Int := s.getS (F.PHC_TRIM.APPLIED x)
def setTrim (x : Nat) (t : Int) (s : State) : State := s.putS (F.PHC_TRIM.APPLIED x) t

/-- The pinned trim of phase `x`, clamped to the bounds (R30, R155). -/
def State.pinTrim (s : State) (x : Nat) : Int :=
  clamp (s.getS F.PHC_TRIMCFG.TRIM_LO) (s.getS F.PHC_TRIMCFG.TRIM_HI) (s.getS (F.PHC_TRIM.PINVAL x))

/-- The trims while the controller does not regulate: unpinned ones are held at 0, pinned ones stand at their values from
the first cycle on, and without cycles at once (R155, R157, R174). -/
def trimRest (s : State) : State :=
  if s.phcRegulates then s
  else s.each phases fun x s =>
    if s.bit F.PHC_TRIMCFG.PIN then if s.phcSwitching then s else setTrim x (s.pinTrim x) s
    else if (s.phase x).forced || (s.phase x).back then s else setTrim x 0 s

/-- A phase that carries no current and has no cycle in progress; what was reported of it stays for the means of R149. -/
def PhaseSt.rest (p : PhaseSt) : PhaseSt := { (default : PhaseSt) with cur := p.cur }

/-- The active set becomes `xs` (R146, R157, R171): a phase that enters starts afresh, with the excitation of this instant
(R110) and trim 0 unless the trims are pinned; one that leaves completes its cycle in progress, unless `cut` holds of it. -/
def setActive (cut : Nat → Bool) (xs : List Nat) (s : State) : State :=
  let was := s.phAct
  let s := s.each phases fun x s =>
    if xs.contains x then
      if was.contains x then s
      else
        let s := s.onPhase x fun p => { p.rest with exc := s.excSum }
        setTrim x (if s.bit F.PHC_TRIMCFG.PIN then s.pinTrim x else 0) s
    else s.onPhase x fun p =>
      if cut x then p.rest
      else if was.contains x then { p.rest with now := p.now, up := p.up, exc := p.exc, onNs := p.onNs, leaving := true }
      else p
  ((s.put F.PHC_STAT.ACT (phaseMask xs)).put F.PHC_STAT.N_ACT xs.length).put F.PHC_STAT.N_AVAIL s.phAvail.length

/-- N_ACT becomes `n`: the lowest-indexed phases that have not failed (R158); SHED is set where it changes (R160). -/
def setCount (n : Nat) (s : State) : State :=
  if n == s.get F.PHC_STAT.N_ACT then s
  else
    let s1 := setActive (fun _ => false) (s.phAvail.take n) s
    { s1 with phc := { s1.phc with shedAt := s1.ptr.time } }.raise F.PHC_EVT.SHED

/-- The pinned phase count, clamped to the bounds, and the bounds in force (R30, R158). -/
def State.shedPin (s : State) : Nat := max (s.get F.PHC_SHED.NMIN) (min (s.get F.PHC_SHED.NMAX) (s.get F.PHC_SHED.NPIN))
def State.shedLo (s : State) : Nat := if s.bit F.PHC_SHED.PIN then s.shedPin else s.get F.PHC_SHED.NMIN
def State.shedHi (s : State) : Nat := if s.bit F.PHC_SHED.PIN then s.shedPin else s.get F.PHC_SHED.NMAX

/-- Protection holds N_ACT away from its bounds or its pin (R31, R172). -/
def shedOverride (s : State) : State :=
  { s with phc := { s.phc with shedBack := true } }.raise F.PHC_OVR.SHED |>.raise F.PHC_EVT.OVR

/-! ### The current command and the on-time (R146 to R150, R156, R168) -/

/-- The k-th of n active phases turns on this long after the period start of the lowest, in ns as dividend and divisor
(R146). -/
def turnOnAfter (fsw k n : Nat) : Nat × Nat := (100000 * k, n * fsw)

/-- V_cmd with the excitation added and the clamp at 7/8 of SC applied (R148), in µV / (10 × N_ACT × 2^70). -/
def State.peakCmd (s : State) (vc : Nat) (exc : Int) : Int :=
  let n : Int := max 1 (s.get F.PHC_STAT.N_ACT)
  let sc : Int := s.get F.PHC_SCLIM.SC
  min (8750 * sc * n * 2 ^ 70)
    ((clamp 500000 2000000 vc - 500000) * s.phEn.length * 2 ^ 70 + 10000 * exc * sc * n)

/-- The ramp m_a = (SLOPE / 16) × V_OUT × RS / L (R150), in µV/ns as dividend and divisor. -/
def State.rampSlope (s : State) (vout : Nat) : Int × Int :=
  ((s.get F.PHC_SLOPE.SLOPE : Int) * vout * s.get F.PHC_RSENSE.RS, 1600000 * max 1 (s.get F.PHC_SLOPE.LIND))

/-- By how much a negative trim lowers the threshold (R156), in µV as dividend and divisor: the up-slope of the previous
cycle times |T| / 1,024 of the period. -/
def State.trimDrop (s : State) (x : Nat) : Int × Int :=
  (max 0 (-s.trim x) * (s.phase x).up * 100, 1024 * s.get F.PHC_FSW.FSW)

/-- The instant in ns after the turn-on at which the sense voltage, rising by `up` µV/µs from `valley`, reaches the command
less the ramp and the trim's part; none where it never does. The first 60 ns are ignored (R148).
(DESIGN CHOICE, log entry 79.) -/
def State.tripAt (s : State) (o : PhcObs) : Option Nat :=
  let n : Int := max 1 (s.get F.PHC_STAT.N_ACT)
  let d := s.trimDrop o.x
  let r := s.rampSlope o.vout
  let unit := 10 * n * 2 ^ 70
  let head := (s.peakCmd o.vc (s.phase o.x).exc - o.valley * unit) * d.2 - d.1 * unit
  let rise := (o.up : Int) * r.2 + r.1 * 1000
  if head ≤ 0 then some 60
  else if rise ≤ 0 then none
  else some (max 60 ((head * 1000 * r.2 + unit * d.2 * rise - 1) / (unit * d.2 * rise)).toNat)

/-- The on-time in ns (R147, R156, R168): a positive trim prolongs it by T / 1,024 periods, the fast limit ends it, and
100 ns and 90 % of the period bound it.
(DESIGN CHOICE, log entry 79.) -/
def State.onTime (s : State) (o : PhcObs) : Nat :=
  let fsw := s.get F.PHC_FSW.FSW
  let top := 90000 / fsw
  let more := (max 0 (s.trim o.x)).toNat * 100000 / (1024 * fsw)
  let on := match s.tripAt o with | some t => min top (t + more) | none => top
  max 100 (match o.sc with | some t => min on t | none => on)

/-- PHx `ns` after its latest turn-on (R141, R170): high for the on-time while the phase is driven. -/
def State.phHigh (s : State) (x ns : Nat) : Bool :=
  s.bit F.PHC_STAT.PHEN && !s.bit F.PHC_STAT.BUS_OV && (s.phAct.contains x || (s.phase x).leaving) &&
  Nat.blt ns (s.phase x).onNs

/-- PHEN as driven (R141). -/
def State.phenHigh (s : State) : Bool := s.bit F.PHC_STAT.PHEN

/-! ### The error amplifier (R154) -/

/-- g_m in µS, R_C in kΩ, C_C in pF and C_HF in pF as PHC_COMP sets them.
(DESIGN CHOICE, log entry 73.) -/
def State.gmUs (s : State) : Nat := 50 * 2 ^ s.get F.PHC_COMP.GM
def State.rcKohm (s : State) : Nat := 2 * (s.get F.PHC_COMP.RC + 1)
def State.ccPf (s : State) : Nat := 250 * (s.get F.PHC_COMP.CC + 1)
def State.chfPf (s : State) : Nat := 2 * s.get F.PHC_COMP.CHF

/-! ### Targets (R152, R153) -/

/-- A quotient reported in whole units; which way a fraction goes is open.
(DESIGN CHOICE, log entry 14.) -/
def reported (a b : Int) : Int := a / b + (if a % b != 0 && Config.phcUp a b then 1 else 0)

/-- RS in µΩ, as a divisor. -/
def State.rsDiv (s : State) : Int := max 1 (s.get F.PHC_RSENSE.RS)

/-- Iout times RS: the sum of the phases' latest mean sense voltages, in µV (R149). -/
def State.ioutNow (s : State) : Int := (phases.map fun x => (s.phase x).now).sum

/-- A current in 10 mA, from a sum of `n` sense voltages in µV (R149). -/
def State.tenMa (s : State) (sum : Int) (n : Nat) : Int := reported (100 * sum) (max 1 n * s.rsDiv)

/-- Vset in units of 10 mV / FSW: as it moves toward VSET while the controller switches, and VSET itself else (R152,
R174). -/
def State.vsetNow (s : State) : Nat :=
  if s.phcSwitching then s.phc.vset else s.get F.PHC_VSET.VSET * s.get F.PHC_FSW.FSW

/-- The load line's target in µV as dividend and divisor (R152), for an excitation i_exc given as N × `excSum`. -/
def State.targetFor (s : State) (exc : Int) : Int × Int :=
  let f : Int := s.get F.PHC_FSW.FSW
  let avail : Int := max 1 s.phAvail.length
  let ncfg : Int := s.phEn.length
  let net := s.ioutNow * 2 ^ 70 - exc * s.get F.PHC_SCLIM.SC * 1000
  ((s.vsetNow : Int) * (1000000000 * f + s.phc.share) * avail * s.rsDiv * 2 ^ 70 -
    200 * (s.get F.PHC_LL.RLL : Int) * net * ncfg * 100000 * f * f, 100000 * f * f * avail * s.rsDiv * 2 ^ 70)

/-- Vtarget (R111, R152): the excitation summed over the active phases does not count for the load line. -/
def State.vtarget (s : State) : Int × Int := s.targetFor (s.get F.PHC_STAT.N_ACT * s.excSum)

/-! ### The filtered output current (R169) -/

/-- I_f now (R169): while no phase switches it decays from where it stood, with Iout = 0.
(DEDUCED, log entry 15.) -/
def State.filtNow (s : State) : Int :=
  match s.phc.offAt with
  | none => s.phc.filt
  | some t => s.phc.filt * expNeg (s.ptr.time.toNat - t.toNat) (100000 * max 1 (s.get F.PHC_OLIM.TAU)) / fixOne

/-- PHC_IOUT as it reads (R149, R169). -/
def State.phcIoutView (s : State) : Word :=
  F.PHC_IOUT.IOL_FILT.write (s.reg A.PHC_IOUT) (clamp 0 65535 (reported s.filtNow (2 ^ 40))).toNat

/-! ### Fault record (R175 to R177) -/

/-- Two halfwords in one word. -/
def halves (hi lo : Nat) : Word := Word.ofNat (hi % 0x10000 * 0x10000 + lo % 0x10000)

/-- I_f decays from now on, or from its last such instant on, and no more (R169).
(DEDUCED, log entry 15.) -/
def filtHold (s : State) : State := { s with phc := { s.phc with filt := s.filtNow, offAt := some s.ptr.time } }
def filtGo (s : State) : State := { s with phc := { s.phc with filt := s.filtNow, offAt := none } }

/-- Words 1 to 62 of the fault record (R177); Vtarget, V_OUT and Iout are those of the state `d` at detection (R175). -/
def State.phcRecord (s d : State) (cause phase : Nat) : List Word :=
  let t := timeWords s.timeNow
  let reg16 := fun a => (s.reg a).toNat % 0x10000
  let trim := fun x => s.get (F.PHC_TRIM.APPLIED x)
  let vt := d.vtarget
  let hist := padTo (0, 0) 32 ((d.ioutNow, d.phc.vout) :: d.phc.hist)
  let amps := fun (i : Int) => unsign 16 (s.tenMa i 1)
  t ++
  [Word.ofNat (cause * 2 ^ 24 + phase * 2 ^ 20 + s.phcState * 2 ^ 17 + s.get F.PHC_STAT.THROWS * 2 ^ 14 +
      s.get F.PHC_STAT.N_ACT * 2 ^ 11 + s.get F.PHC_STAT.N_AVAIL * 2 ^ 8 + s.get F.PHC_FLT.SUPP),
   halves (clamp 0 65535 (reported vt.1 (1000 * vt.2))).toNat d.phc.vout,
   halves (reg16 (A.MEAS_HK 13)) (reg16 (A.MEAS_HK 8)),
   s.phcIoutView,
   halves (reg16 (A.PHC_IPH 1)) (reg16 (A.PHC_IPH 0)), halves (reg16 (A.PHC_IPH 3)) (reg16 (A.PHC_IPH 2)),
   halves (reg16 (A.PHC_IPH 5)) (reg16 (A.PHC_IPH 4)),
   Word.ofNat (trim 3 * 2 ^ 24 + trim 2 * 2 ^ 16 + trim 1 * 2 ^ 8 + trim 0),
   halves (s.get F.PHC_SHARE_STAT.APPLIED) (trim 5 * 256 + trim 4),
   Word.ofNat (s.get F.PHC_FAIL.SENSE * 2 ^ 24 + s.get F.PHC_FAIL.OPEN * 2 ^ 16 + s.get F.PHC_STAT.ACT * 2 ^ 8 +
      s.get F.PHC_CTRL.PH_EN),
   Word.ofNat (s.get F.PHC_SCLIM.SC * 2 ^ 24 + s.get F.PHC_LL.RLL * 2 ^ 16 + s.get F.PHC_VSET.VSET),
   Word.ofNat (s.get F.PHC_FSW.FSW * 2 ^ 24 + (s.reg A.PHC_COMP).toNat % 2 ^ 18),
   s.reg A.PHC_SCCNT] ++
  (hist.reverse.map fun h => halves (amps h.1) h.2) ++ List.replicate 15 0

/-- A fault detected in state `d` is captured and its Ledger write requested, or counted in SUPP while a capture waits
(R175).
(DEDUCED, log entry 62.) -/
def phcCaptureOf (d : State) (cause phase : Nat) (s : State) : State :=
  if s.bit F.PHC_FLT.PEND && cause != 6 then s.bumpSat F.PHC_FLT.SUPP 1
  else
    let s := if s.bit F.PHC_FLT.PEND then s else (s.put F.PHC_FLT.SUPP 0).put F.PHC_FLT.PEND 1
    let t := timeWords s.timeNow
    let s := ((s.put F.PHC_FLT.CAUSE cause).put F.PHC_FLT.PHASE phase).setReg A.PHC_FLT_TSL (t.getD 0 0)
    let s := s.setReg A.PHC_FLT_TSH (t.getD 1 0)
    { s with led := { s.led with q11 := some (s.phcRecord d cause phase) } }

/-- A fault is captured as the state shows it.
(DEDUCED, log entry 62.) -/
def phcCapture (cause phase : Nat) (s : State) : State := phcCaptureOf s cause phase s

/-! ### Stopping and starting (R162 to R166) -/

/-- All phases off and PHEN low, in state `st`: the windows that need the excitation end where the controller regulated
(R128, R174), unpinned trims are 0 (R157), I_f decays from now on (R169). -/
def phcOff (st : Nat) (s : State) : State :=
  let s := if s.phcRegulates then impPhcLost s else s
  let s := setActive (fun _ => true) [] s
  let s := filtHold { s with phc := { s.phc with stopping := false } }
  excDrop (trimRest (((s.put F.PHC_STAT.STATE st).put F.PHC_STAT.PHEN 0).put F.PHC_STAT.BUS_OV 0))

/-- The controller latches off with a cause 6 record (R165). -/
def phcLatch (s : State) : State := (phcOff 4 (phcCapture 6 15 s)).raise F.PHC_EVT.LATCHED

/-- A throw for a cause, or the latch-off where the throws are used up (R165, R175): that is where THROWS equals
THROWS_MAX; above a lowered THROWS_MAX the part goes on throwing, and THROWS wraps.
(DESIGN CHOICE, log entry 81.) -/
def phcThrow (cause : Nat) (s : State) : State :=
  let s := if s.get F.PHC_STAT.THROWS == 0 then phcCapture cause 15 s
    else if s.bit F.PHC_FLT.PEND then s.bumpSat F.PHC_FLT.SUPP 1 else s
  if s.get F.PHC_STAT.THROWS == s.get F.PHC_SS.THROWS_MAX then phcLatch s
  else ((phcOff 3 s).bump F.PHC_STAT.THROWS 1).raise F.PHC_EVT.HICCUP

/-- A soft start begins (R163): cleared phases are available again (R171), and with none available the controller
latches; with VSTK below its limit it waits for the input (R170); with fewer phases available than its lower bound asks
for, after a failure, all of them run under an override (R172).
(DESIGN CHOICE, log entry 16.) -/
def softStart (s : State) : State :=
  if !(s.bit F.PHC_CTRL.EN && s.phcPowered) then s
  else
    let s := { s with phc := { s.phc with failed := BitVec.ofNat 6 (s.get F.PHC_FAIL.SENSE ||| s.get F.PHC_FAIL.OPEN) } }
    if s.phAvail.isEmpty then phcLatch s
    else if s.phc.vinLow then (s.put F.PHC_STAT.STATE 5).raise F.PHC_EVT.VIN_LOW
    else
      let avail := s.phAvail.length
      let lo := min avail s.shedLo
      let hi := min avail s.shedHi
      let n := max lo (min hi (Config.startPhases lo hi))
      let short := Nat.blt avail s.shedLo && Nat.blt avail s.phEn.length
      let s := { s with phc := { s.phc with
        vset := s.get F.PHC_VSET.VSET * s.get F.PHC_FSW.FSW, checked := false, vsetS := s.get F.PHC_VSET.VSET,
        ref0 := 0, shedAt := s.ptr.time, shedBack := false } }
      let s := trimRest (filtGo s)
      let s := setActive (fun _ => true) (s.phAvail.take n) ((s.put F.PHC_STAT.STATE 1).put F.PHC_STAT.PHEN 1)
      if short then shedOverride s else s

/-- The start check, or the reference's arrival at Vtarget after it (R163, R164), with V_OUT now and at S. The ramp aims at
VSET as it stands (R174). -/
def startCheck (o : StartObs) (s : State) : State :=
  if s.phcState != 1 || s.phc.stopping then s
  else
    let s := { s with phc := { s.phc with vout := o.vout, ref0 := 5 * o.vStart - s.phc.vsetS } }
    let vt := s.vtarget
    let reached := s.phc.checked ||
      decide (vt.1 ≤ ((s.phc.ref0 + 50 * s.get F.PHC_VSET.VSET : Nat) : Int) * 200 * vt.2)
    if !s.phc.checked && decide ((o.vout : Int) * 5000 * vt.2 ≤ vt.1) then phcThrow 1 s
    else if reached then (s.put F.PHC_STAT.STATE 2).raise F.PHC_EVT.REGULATING
    else { s with phc := { s.phc with checked := true } }

/-- The device enters RUN or RECOVER, or D9 switches on, with EN = 1 (R144, R174). -/
def phcEnter (s : State) : State :=
  if s.phcState == 0 && s.bit F.PHC_CTRL.EN && s.phcPowered then softStart (s.put F.PHC_STAT.THROWS 0) else s

/-- The last cycle of a controller that was disabled has completed (R174); enabled again meanwhile, it starts anew. -/
def stopCheck (s : State) : State :=
  if s.phc.stopping && !(phases.any fun x => (s.phase x).leaving) then
    let s := phcOff 0 s
    if s.bit F.PHC_CTRL.EN then phcEnter s else s
  else s

/-- The controller stops: EN cleared, or the device leaves RUN and RECOVER (R174). Each active phase completes its cycle in
progress first; where none is, everything is off at once. -/
def phcStop (s : State) : State :=
  if s.phcState == 0 || s.phc.stopping then s
  else if s.phcSwitching && !s.bit F.PHC_STAT.BUS_OV then
    let s := if s.phcRegulates then impPhcLost s else s
    let s := s.each s.phAct fun x s => s.onPhase x fun p => { p with leaving := true }
    stopCheck (excDrop { s with phc := { s.phc with stopping := true } })
  else phcOff 0 s

/-- D9 is switched off, which completes after the last cycles have (R174, R409). -/
def phcPowerOff (s : State) : State :=
  let s := phcStop s
  if s.phc.stopping then phcOff 0 s else s

/-! ### Phase failures (R171) -/

/-- Phase `x` fails with a cause (4 open, 5 sense loss): it leaves the active set at once, and where too few are left for
the lower bound, others enter (R158, R171, R172). The record shows the target and the currents at detection, and the
registers as the failure leaves them. With no phase left the controller latches, whatever its state.
(DEDUCED, log entry 62.) -/
def phaseFail (x cause : Nat) (s : State) : State :=
  let d := s
  let fld := if cause == 5 then F.PHC_FAIL.SENSE else F.PHC_FAIL.OPEN
  let was := s.phAct
  let s := (s.putBit A.PHC_FAIL (fld.lo + x) true).raise F.PHC_EVT.PHASE_FAIL
  let s := { s with phc := { s.phc with failed := s.phc.failed ||| (1 <<< x) } }
  let rest := was.filter (· != x)
  let n := if s.phcSwitching then max rest.length (min s.phAvail.length s.shedLo) else rest.length
  let next := if n == rest.length then rest else s.phAvail.take n
  let s := impDisturb (setActive (· == x) next s)
  let s := if was.contains x then { s with phc := { s.phc with shedAt := s.ptr.time } }.raise F.PHC_EVT.SHED else s
  let s := phcCaptureOf d cause x s
  if s.phAvail.isEmpty && s.phcState != 4 then phcLatch s
  else if s.phc.stopping then stopCheck s
  else if s.phcSwitching && Nat.blt s.phAvail.length s.shedLo then shedOverride s
  else s

/-- SENSE_LOSS: an open sense line of an enabled phase, whatever else it does or has failed of (R171). -/
def senseLost (x : Nat) (s : State) : State :=
  if s.on 9 && s.phEn.contains x && !s.rbit A.PHC_FAIL (8 + x) then phaseFail x 5 s else s

/-- Counted cycles after which a phase is open (R171); with N_ACT = 1 and the trims pinned, 64.
(DESIGN CHOICE, log entry 81.) -/
def State.openNeeds (s : State) : Nat :=
  if s.get F.PHC_STAT.N_ACT == 1 then 64 else if s.bit F.PHC_TRIMCFG.PIN then 1024 else 16

/-- OPEN_PHASE: the run of counted cycles of an active phase is complete (R171). -/
def openPhase (x : Nat) (s : State) : State :=
  if s.phcSwitching && s.phAct.contains x && Nat.ble s.openNeeds (s.phase x).openRun then phaseFail x 4 s else s

/-! ### Per-cycle work of one phase (R149, R168, R171, R172) -/

/-- A forced trim goes down one step, as far as −64; away from its pin or bounds it sets the override flag (R31, R172). -/
def trimForce (x : Nat) (s : State) : State :=
  let t := max (-64) (s.trim x - 1)
  let s := setTrim x t s
  if decide (t < s.getS F.PHC_TRIMCFG.TRIM_LO) || (s.bit F.PHC_TRIMCFG.PIN && t != s.pinTrim x) then
    (s.raise F.PHC_OVR.TRIM).raise F.PHC_EVT.OVR
  else s

/-- The phase's own part of a switching cycle: its mean sense voltage within ±200 mV, its on-time, its runs of cycles; the
next cycle begins with the excitation of this instant (R110). An open phase's cycle counts by its peak command.
(DEDUCED, log entry 62.) -/
def cyclePhase (o : PhcObs) (s : State) : State :=
  let p := s.phase o.x
  let sense := clamp (-200000) 200000 o.sense
  let sc : Int := s.get F.PHC_SCLIM.SC
  let low := decide (sense * 32 < sc * 1000) &&
    decide (1250 * sc * max 1 (s.get F.PHC_STAT.N_ACT) * 2 ^ 70 ≤ s.peakCmd o.vc 0)
  let counts := s.bit F.PHC_TRIMCFG.PIN || s.get F.PHC_STAT.N_ACT == 1 ||
    decide (s.trim o.x = s.getS F.PHC_TRIMCFG.TRIM_HI)
  let on := s.onTime o
  let exc := s.excSum
  let s := { s with phc := { s.phc with vout := o.vout } }.putB F.PHC_STAT.VIN_OK o.vin
  let acted := o.sc.isSome
  let s := s.onPhase o.x fun p => { p with
    now := sense, up := o.up, onNs := on, exc := exc,
    scRun := if acted then p.scRun + 1 else 0, scAdd := if acted then p.scAdd + 1 else 0,
    openRun := if !low then 0 else if counts then p.openRun + 1 else p.openRun,
    forced := p.forced && acted, back := p.back || (p.forced && !acted) }
  let s := if p.forced && acted then trimForce o.x s else s
  let s := fbDisturb s
  if acted then impDisturb ((s.bump F.PHC_SCCNT.COUNT 1).raise F.PHC_EVT.SC_ACT) else s

/-- The last cycle of a phase that has left the active set, or of a disabled controller, completes (R146, R174). -/
def cycleLast (o : PhcObs) (s : State) : State :=
  stopCheck ((cyclePhase o s).onPhase o.x fun p => { p with leaving := false, exc := 0 })

/-! ### Evaluations once per cycle of the lowest-indexed active phase -/

/-- The trim of a phase moves one step (R31, R155, R157); `sum` is that of the `n` active phases. -/
def trimStep (sum : Int) (n : Nat) (x : Nat) (s : State) : State :=
  let p := s.phase x
  let t := s.trim x
  let lo := s.getS F.PHC_TRIMCFG.TRIM_LO
  let hi := s.getS F.PHC_TRIMCFG.TRIM_HI
  let toward := fun (g : Int) => if t < g then t + 1 else if g < t then t - 1 else t
  if p.forced then s
  else if s.bit F.PHC_TRIMCFG.PIN then
    let g := s.pinTrim x
    if p.back then (setTrim x (toward g) s).onPhase x fun p => { p with back := toward g != g }
    else setTrim x g s
  else if !s.phcRegulates then
    if p.back then (setTrim x (toward 0) s).onPhase x fun p => { p with back := toward 0 != 0 } else setTrim x 0 s
  else
    let i := p.now * 64 * n
    let mag := if sum < 0 then -sum else sum
    let want := if i < 64 * sum - mag then t + 1 else if 64 * sum + mag < i then t - 1 else t
    let t' := if t < lo then t + 1 else if hi < t then t - 1 else clamp lo hi want
    (setTrim x t' s).onPhase x fun p => { p with
      back := false, boundRun := if t' == lo || t' == hi then p.boundRun + 1 else 0 }

/-- N_ACT after the evaluation of R159 and R160, with the overrides' return of R172; a pin holds at once (R158). Ī is the
mean over the last 8 cycles, over fewer where the lowest-indexed active phase has not had so many.
(DESIGN CHOICE, log entry 81.) -/
def shedStep (s : State) : State :=
  let n := s.get F.PHC_STAT.N_ACT
  let avail := s.phAvail.length
  let lo := min avail s.shedLo
  let hi := min avail s.shedHi
  let dwelt := Nat.ble (max 1 (s.get F.PHC_SHED.DWELL) * 100000) (s.ptr.time.toNat - s.phc.shedAt.toNat)
  let last := s.phc.iout.take 8
  let k : Int := last.length
  let sum := last.sum
  let thr := fun (m : Nat) (h : Nat) => (10 * (m * s.get F.PHC_SHED_I.ISHED + h * s.get F.PHC_SHED_I.IHYS) : Nat)
  let above := fun (m : Nat) => decide ((thr m 1 : Int) * k * s.rsDiv < 100 * sum)
  let back := fun (b : Bool) (s : State) => { s with phc := { s.phc with shedBack := b } }
  if Nat.blt n lo then
    if !s.phc.shedBack then setCount lo s
    else if dwelt then back (Nat.blt (n + 1) lo) (setCount (n + 1) s) else s
  else if Nat.blt hi n then
    if s.bit F.PHC_SHED.PIN && !s.phc.shedBack then setCount hi s
    else if dwelt then back (Nat.blt hi (n - 1)) (setCount (n - 1) s) else s
  else
    let s := back (Nat.blt avail s.shedLo) s
    if s.bit F.PHC_SHED.PIN then s
    else if above n && Nat.blt n hi then
      let m := ((List.range (hi - n)).map (n + 1 + ·)).find? fun m => !above m
      setCount (m.getD hi) s
    else if Nat.blt lo n && dwelt && decide (100 * sum < (thr (n - 1) 0 : Int) * k * s.rsDiv) then setCount (n - 1) s
    else s

/-- The applied share offset moves (R31, R172, R173), in switching cycles alone.
(DESIGN CHOICE, log entry 81.) -/
def shareStep (s : State) : State :=
  let f : Int := s.get F.PHC_FSW.FSW
  let slew : Int := s.get F.PHC_SHARE_CFG.SLEW
  let lo := s.getS F.PHC_SHARE.LO * 156250 * f
  let hi := s.getS F.PHC_SHARE.HI * 156250 * f
  let goal := clamp lo hi (s.getS F.PHC_SHARE.INDEX * 156250 * f)
  let a := s.phc.share
  let pin := s.bit F.PHC_SHARE.PIN
  let floor := -20000000 * f
  let toward := if a < goal then min goal (a + slew) else max goal (a - slew)
  let a' := if s.phc.pull then max (min a floor) (a - slew) else if pin && !s.phc.shareBack then goal else toward
  let out := s.phc.pull && ((pin && a' != goal) || decide (a' < lo))
  let s := { s with phc := { s.phc with share := a', shareBack := s.phc.pull || (s.phc.shareBack && a' != goal) } }
  let s := s.putS F.PHC_SHARE_STAT.APPLIED (reported a' (1000 * f))
  if out then (s.raise F.PHC_OVR.SHARE).raise F.PHC_EVT.OVR else s

/-- I_f moves over one switching cycle with Iout as it stood in it, by e^(−T/τ) with T / τ = 1 / (10 × FSW × TAU); the
warning, the pull-back and the overload throw follow (R169). The windows of a cycle in which the limit acts are marked
(R131).
(DEDUCED, log entry 15.) -/
def overloadStep (iout : Int) (s : State) : State :=
  let goal := iout * 100 * 2 ^ 40 / s.rsDiv
  let filt := goal + (s.phc.filt - goal) * expNeg 1 (10 * s.get F.PHC_FSW.FSW * s.get F.PHC_OLIM.TAU) / fixOne
  let ncfg : Int := s.phEn.length
  let lim : Int := (s.get F.PHC_OLIM.IOL : Int) * 10 * s.phAvail.length * 2 ^ 40
  let warn := decide (7 * lim < 8 * filt * ncfg)
  let calm := decide (4 * filt * ncfg < 3 * lim)
  let s := { s with phc := { s.phc with filt := filt, pull := warn || (s.phc.pull && !calm) } }
  let s := s.put F.PHC_IOUT.IOL_FILT (clamp 0 65535 (reported filt (2 ^ 40))).toNat
  let s := s.raiseIf warn F.PHC_EVT.OL_WARN
  let s := if s.phc.pull then impDisturb s else s
  if decide (lim < filt * ncfg) then phcThrow 2 s else s

/-- The setpoint in use moves toward VSET by 0.1 V/ms (R174). -/
def vsetStep (s : State) : State :=
  let goal := s.get F.PHC_VSET.VSET * s.get F.PHC_FSW.FSW
  let v := s.phc.vset
  let v' := if s.phcState == 1 then goal else if Nat.blt v goal then v + 1 else if Nat.blt goal v then v - 1 else v
  { s with phc := { s.phc with vset := v' } }

/-- The reports of R149 and R153, the target without the excitation, and the history of R177. Beyond their sixteen bits
the currents wrap, and the target saturates as IOL_FILT does.
(DESIGN CHOICE, log entry 81.) -/
def reportStep (s : State) : State :=
  let n := s.phc.cycles + 1
  let s := { s with phc := { s.phc with cycles := n } }
  let s := s.each phases fun x s =>
    s.putS (F.PHC_IPH.I x) (s.tenMa (s.phase x).cur.sum (s.phase x).cur.length)
  let s := (s.putS F.PHC_IOUT.IOUT (s.tenMa s.phc.iout.sum s.phc.iout.length)).put F.PHC_VOUT.VOUT s.phc.vout
  let vt := s.targetFor 0
  let s := if n % 64 == 0 then s.put F.PHC_VOUT.TARGET (clamp 0 65535 (reported vt.1 (1000 * vt.2))).toNat else s
  if n % 8 == 0 then
    { s with phc := { s.phc with hist := ((s.phc.iout.headD 0, s.phc.vout) :: s.phc.hist).take 31 } }
  else s

/-- A phase that neither is active nor completes a cycle carries no current after the means have taken its last one. -/
def phaseQuiet (act : List Nat) (x : Nat) (s : State) : State :=
  s.onPhase x fun p =>
    { p with cur := p.now :: p.cur.take 63, now := if act.contains x || p.leaving then p.now else 0 }

/-- What is evaluated once per cycle of the lowest-indexed active phase.
(DESIGN CHOICE, log entry 73.) -/
def cycleAll (s : State) : State :=
  let iout := s.ioutNow
  let act := s.phAct
  let s := { s with phc := { s.phc with iout := iout :: s.phc.iout.take 63 } }
  let sum := (act.map fun x => (s.phase x).now).sum
  let s := vsetStep (s.each (if s.bit F.PHC_TRIMCFG.PIN then phases else act) (trimStep sum act.length))
  let s := reportStep (s.each phases (phaseQuiet act))
  let s := overloadStep iout s
  if s.phcSwitching then shareStep (shedStep s) else s

/-- SWITCHING_CYCLE: a cycle of an active phase, or the last one of a phase that has left (R146, R149, R157, R160, R168,
R169).
(DESIGN CHOICE, log entry 73.) -/
def switchingCycle (o : PhcObs) (s : State) : State :=
  if !s.on 9 || s.bit F.PHC_STAT.BUS_OV then s
  else if (s.phase o.x).leaving then cycleLast o s
  else if s.phcSwitching && s.phAct.contains o.x then
    let s1 := cyclePhase o s
    if s1.phAct.headD 6 == o.x then cycleAll s1 else s1
  else s

/-- TRIM_SAT: a trim has stood at a bound for 16 cycles (R157). -/
def trimSat (x : Nat) (s : State) : State :=
  if Nat.ble 16 (s.phase x).boundRun then s.raise F.PHC_EVT.TRIM_SAT else s

/-- SC_OVERRIDE: the fast limit has acted in four consecutive cycles (R172): the trim of phase `x` is forced, and when
it has done so on every active phase, one more phase is added. -/
def scOverride (x : Nat) (s : State) : State :=
  if !(s.phcSwitching && s.phAct.contains x && Nat.ble 4 (s.phase x).scRun) then s
  else
    let all := s.phAct.all fun y => Nat.ble 4 (s.phase y).scAdd
    let n := s.get F.PHC_STAT.N_ACT
    let s := if (s.phase x).forced then s else trimForce x (s.onPhase x fun p => { p with forced := true })
    if all && Nat.blt n s.phAvail.length then
      let s := s.each s.phAct fun y s => s.onPhase y fun p => { p with scAdd := 0 }
      let hi := s.shedHi
      let s := setCount (n + 1) s
      if Nat.blt hi (n + 1) then shedOverride s else s
    else s

/-! ### Output and input limits (R165, R170) -/

/-- The hiccup wait ends. -/
def hiccupOver (s : State) : State := if s.phcState == 3 then softStart s else s

/-- A second of continuous regulation returns THROWS to 0. -/
def throwsOver (s : State) : State := if s.phcRegulates then s.put F.PHC_STAT.THROWS 0 else s

/-- The output collapses. -/
def outputCollapsed (s : State) : State := if s.phcRegulates then phcThrow 3 s else s

/-- VSTK is low: the event is set, and a controller that switches or waits in hiccup goes to state 5; disabled or latched
off it stays so (R166, R170).
(DEDUCED, log entry 62.) -/
def inputLowered (s : State) : State :=
  let s := { s with phc := { s.phc with vinLow := true } }.put F.PHC_STAT.VIN_OK 0
  if !s.on 9 then s
  else
    let s := s.raise F.PHC_EVT.VIN_LOW
    if s.phc.stopping then phcOff 0 s
    else if s.phcSwitching || s.phcState == 3 then phcOff 5 s else s

/-- VSTK has recovered. -/
def inputRecovered (s : State) : State :=
  let s := { s with phc := { s.phc with vinLow := false } }.put F.PHC_STAT.VIN_OK 1
  if s.phcState == 5 then softStart s else s

/-- The bus voltage is too high: switching is held, and I_f decays (R169, R170). -/
def busHigh (s : State) : State :=
  if s.phcRegulates then filtHold ((s.put F.PHC_STAT.BUS_OV 1).raise F.PHC_EVT.BUS_OV) else s

/-- The bus voltage has fallen: switching resumes, with the excitation of this instant (R110, R170). -/
def busNormal (s : State) : State :=
  if s.bit F.PHC_STAT.BUS_OV then
    let s := filtGo (s.put F.PHC_STAT.BUS_OV 0)
    s.each s.phAct fun x s => s.onPhase x fun p => { p with exc := s.excSum }
  else s

/-! ### Register writes (R144, R155, R158, R173, R174) -/

/-- A write of this block is refused. -/
def phcRefuse (s : State) : State := s.raise F.PHC_EVT.CFG_REFUSED

/-- EN = 1 is refused with these phases (R144). -/
def State.phcBad (s : State) (phEn : Nat) : Bool :=
  phEn == 0 || s.get F.PHC_RSENSE.RS == 0 || s.get F.PHC_SLOPE.LIND == 0 || s.get F.PHC_OLIM.IOL == 0

/-- PHC_CTRL written with EN = 1 (R144, R163, R165, R166).
(DEDUCED, log entry 62.) -/
def phcEnableWrite (v : Word) (s : State) : State :=
  let phEn := F.PHC_CTRL.PH_EN.read v
  let s := s.put F.PHC_STAT.THROWS 0
  if s.bit F.PHC_CTRL.EN then
    let s := s.raiseIf (phEn != s.get F.PHC_CTRL.PH_EN) F.PHC_EVT.CFG_REFUSED
    if F.PHC_CTRL.RESTART.read v == 1 && s.phcState == 4 then softStart s else s
  else
    let s := s.put F.PHC_CTRL.PH_EN phEn
    let s := s.put F.PHC_STAT.N_AVAIL s.phAvail.length
    if s.phcBad phEn then phcRefuse s
    else phcEnter ((if s.phcState == 4 then s.put F.PHC_STAT.STATE 0 else s).put F.PHC_CTRL.EN 1)

/-- PHC_CTRL written with EN = 0 (R165, R174). -/
def phcDisableWrite (v : Word) (s : State) : State :=
  let phEn := F.PHC_CTRL.PH_EN.read v
  let s := if F.PHC_CTRL.RESTART.read v == 1 then s.put F.PHC_STAT.THROWS 0 else s
  if s.bit F.PHC_CTRL.EN then
    phcStop ((s.raiseIf (phEn != s.get F.PHC_CTRL.PH_EN) F.PHC_EVT.CFG_REFUSED).put F.PHC_CTRL.EN 0)
  else
    let s := s.put F.PHC_CTRL.PH_EN phEn
    s.put F.PHC_STAT.N_AVAIL s.phAvail.length

/-- A write of PHC_CTRL. -/
def wrPhcCtrl (v : Word) (s : State) : State :=
  if F.PHC_CTRL.EN.read v == 1 then phcEnableWrite v s else phcDisableWrite v s

/-- RESTART is written, every other field as it stands: THROWS returns to 0, and state 4 is left (R165, R166). -/
def phcRestartWrite (s : State) : State :=
  let s := s.put F.PHC_STAT.THROWS 0
  if s.phcState == 4 then softStart s else s

/-- A write of PHC_VSET, held within 1,200 to 5,600. -/
def wrPhcVset (v : Word) (s : State) : State :=
  s.put F.PHC_VSET.VSET (min 5600 (max 1200 (F.PHC_VSET.VSET.read v)))

/-- A write of PHC_FSW, held within 10 to 50; refused while EN is 1.
(DESIGN CHOICE, log entry 14.) -/
def wrPhcFsw (v : Word) (s : State) : State :=
  if s.bit F.PHC_CTRL.EN then phcRefuse s
  else
    let was := s.get F.PHC_FSW.FSW
    let now := min 50 (max 10 (F.PHC_FSW.FSW.read v))
    { s with phc := { s.phc with share := s.phc.share * now / was } }.put F.PHC_FSW.FSW now

/-- A write of PHC_COMP or PHC_RSENSE: refused while EN is 1. -/
def wrPhcComp (v : Word) (s : State) : State :=
  if s.bit F.PHC_CTRL.EN then phcRefuse s else s.plainWrite A.PHC_COMP v
def wrPhcRsense (v : Word) (s : State) : State :=
  if s.bit F.PHC_CTRL.EN then phcRefuse s else s.plainWrite A.PHC_RSENSE v

/-- A write of PHC_SLOPE: a changed LIND is refused while EN is 1, SLOPE is stored.
(DEDUCED, log entry 62.) -/
def wrPhcSlope (v : Word) (s : State) : State :=
  let lind := F.PHC_SLOPE.LIND.read v
  let s1 := s.put F.PHC_SLOPE.SLOPE (min 32 (F.PHC_SLOPE.SLOPE.read v))
  if s.bit F.PHC_CTRL.EN then s1.raiseIf (lind != s.get F.PHC_SLOPE.LIND) F.PHC_EVT.CFG_REFUSED
  else s1.put F.PHC_SLOPE.LIND lind

/-- A write of PHC_SCLIM, held within 20 to 150; of PHC_OLIM, TAU within 1 to 1,000; of PHC_SS, RAMP within 1 to 100. -/
def wrPhcSclim (v : Word) (s : State) : State := s.put F.PHC_SCLIM.SC (min 150 (max 20 (F.PHC_SCLIM.SC.read v)))
def wrPhcOlim (v : Word) (s : State) : State :=
  (s.put F.PHC_OLIM.TAU (min 1000 (max 1 (F.PHC_OLIM.TAU.read v)))).put F.PHC_OLIM.IOL (F.PHC_OLIM.IOL.read v)
def wrPhcSs (v : Word) (s : State) : State :=
  (s.put F.PHC_SS.RAMP (min 100 (max 1 (F.PHC_SS.RAMP.read v)))).put F.PHC_SS.THROWS_MAX (F.PHC_SS.THROWS_MAX.read v)

/-- A write of PHC_SHED: refused where NMIN would be above NMAX (R158). -/
def wrPhcShed (v : Word) (s : State) : State :=
  let c := fun n => min 6 (max 1 n)
  let nmin := c (F.PHC_SHED.NMIN.read v)
  let nmax := c (F.PHC_SHED.NMAX.read v)
  if Nat.blt nmax nmin then phcRefuse s
  else
    let s := ((s.put F.PHC_SHED.NMIN nmin).put F.PHC_SHED.NMAX nmax).put F.PHC_SHED.NPIN (c (F.PHC_SHED.NPIN.read v))
    (s.put F.PHC_SHED.PIN (F.PHC_SHED.PIN.read v)).put F.PHC_SHED.DWELL (max 1 (F.PHC_SHED.DWELL.read v))

/-- A write of PHC_TRIMCFG: bounds held within ±64, refused where TRIM_LO would be above TRIM_HI (R155). -/
def wrPhcTrimcfg (v : Word) (s : State) : State :=
  let lo := clamp (-64) 64 (signed 8 (F.PHC_TRIMCFG.TRIM_LO.read v))
  let hi := clamp (-64) 64 (signed 8 (F.PHC_TRIMCFG.TRIM_HI.read v))
  if hi < lo then phcRefuse s
  else trimRest (((s.putS F.PHC_TRIMCFG.TRIM_LO lo).putS F.PHC_TRIMCFG.TRIM_HI hi).put F.PHC_TRIMCFG.PIN
    (F.PHC_TRIMCFG.PIN.read v))

/-- A write of PHC_TRIMx: PINVAL held within ±64. -/
def wrPhcTrim (x : Nat) (v : Word) (s : State) : State :=
  trimRest (s.putS (F.PHC_TRIM.PINVAL x) (clamp (-64) 64 (signed 8 ((F.PHC_TRIM.PINVAL x).read v))))

/-- A write of PHC_SHARE (R173): refused where LO would be above HI; with PIN = 1 the offset is at its target at once,
unless an override holds it (R31). -/
def wrPhcShare (v : Word) (s : State) : State :=
  let c := fun f => clamp (-128) 128 (signed 9 (Fld.read f v))
  let lo := c F.PHC_SHARE.LO
  let hi := c F.PHC_SHARE.HI
  if hi < lo then phcRefuse s
  else
    let s := ((s.putS F.PHC_SHARE.LO lo).putS F.PHC_SHARE.HI hi).putS F.PHC_SHARE.INDEX (c F.PHC_SHARE.INDEX)
    let s := s.put F.PHC_SHARE.PIN (F.PHC_SHARE.PIN.read v)
    if F.PHC_SHARE.PIN.read v == 1 && !s.phc.pull && !s.phc.shareBack then
      let goal := clamp lo hi (c F.PHC_SHARE.INDEX) * 156250
      { s with phc := { s.phc with share := goal * s.get F.PHC_FSW.FSW } }.putS F.PHC_SHARE_STAT.APPLIED
        (reported goal 1000)
    else s

/-- A write of PHC_SHARE_CFG: SLEW 0 stores 1. -/
def wrPhcShareCfg (v : Word) (s : State) : State :=
  s.put F.PHC_SHARE_CFG.SLEW (max 1 (F.PHC_SHARE_CFG.SLEW.read v))

end Sys2Proof.Machine
end

