-- ==== Sys2Proof/Machine/Balance.lean ====
section
/-! DEFINITION. The balancing scheduler and thermal management (spec/06_balancing_and_thermal.md). -/

namespace Sys2Proof.Machine

/-- The cells. -/
def cells : List Nat := List.range 24

/-! ### Balancing -/

/-- ACTIVE: R181 holds apart from withholding. -/
def State.balActive (s : State) : Bool :=
  s.bit F.BAL_CTRL.EN && s.works [.run, .recover] && s.on 1 && s.on 5

/-- BLn is closed, by the scheduler or the fallback (R179, R180, R133). -/
def State.blClosed (s : State) (n : Nat) : Bool :=
  s.on 1 && !s.rbit A.BAL_FAULT n &&
  ((s.get F.BAL_STAT.ON).testBit n || (s.imp.fb.closed && s.get F.IMP_FB_CTRL.CELL == n))

/-- The scheduler stops: EN cleared, the device leaves RUN and RECOVER, or D1 off; the deferred set is cleared (R188). -/
def balStop (s : State) : State := (slotCut s).setReg A.BAL_DEF 0

/-- The alignment base changes (R182): the slot in progress ends, the deferred set stays. -/
def balBase (s : State) : State := slotCut s

/-- Slot number `k` is a pause slot at level `p` (R194). -/
def pauseSlot (k p : Nat) : Bool := Nat.blt (k * p / 8) ((k + 1) * p / 8)

/-- One pass of the selection over candidates (R184): `both` looks at both neighbours. -/
def balPass (maxon : Nat) (both : Bool) : List Nat → List Nat × List Nat → List Nat × List Nat
  | [], acc => acc
  | n :: ns, (closed, deferred) =>
    let near := (n != 0 && closed.contains (n - 1)) || (both && closed.contains (n + 1))
    if near || closed.length == maxon then balPass maxon both ns (closed, deferred ++ [n])
    else balPass maxon both ns (closed ++ [n], deferred)

/-- The switches closed and the cells deferred (R184). -/
def balSelect (req dfr : List Nat) (maxon : Nat) : List Nat × List Nat :=
  balPass maxon true (req.filter fun n => !dfr.contains n) (balPass maxon false (req.filter dfr.contains) ([], []))

/-- The cells that may be selected (R184). -/
def State.balReq (s : State) : List Nat :=
  cells.filter fun n => s.rbit A.BAL_REQ n && !s.rbit A.BAL_FAULT n &&
    (!s.bit F.BAL_CTRL.COUNTED || s.get (F.BAL_CNT.SLOTS n) != 0)

/-- A mask of cells. -/
def cellMask (xs : List Nat) : Word := bitsWord 24 xs.contains

/-- The slot in progress ends as scheduled (R183, R185): counts of the cells still closed go down. -/
def slotFinish (s : State) : State :=
  if !s.bal.inSlot then s
  else
    let on := cells.filter fun n => (s.get F.BAL_STAT.ON).testBit n
    let s := if s.bal.counted then s.each on fun n s =>
        let left := s.get (F.BAL_CNT.SLOTS n) - 1
        let s := s.put (F.BAL_CNT.SLOTS n) left
        if left == 0 then ((s.putBit A.BAL_REQ n false).putBit A.BAL_DONE n true).raise F.BAL_EVT.CELL_DONE else s
      else s
    { s.put F.BAL_STAT.ON 0 with bal := { s.bal with inSlot := false } }

/-- A slot begins (R184, R185, R187, R194). -/
def slotBegin (t : Time) (s : State) : State :=
  let k := (((t.toNat : Int) - s.base.toNat) / 1000000 % 8).toNat
  let p := s.get F.THM_STAT.LEVEL
  let pause := pauseSlot k p
  let s := (s.put F.BAL_STAT.LEVEL p).putB F.BAL_STAT.PAUSE pause
  let s := { s with bal := { inSlot := true, start := t, tag := 0, counted := s.bit F.BAL_CTRL.COUNTED } }
  let s := if pause then fbWithhold s else if s.owRuns then s else fbRelease s
  if !s.balActive then s
  else if pause then s.bump F.BAL_SLOTS.PAUSED 1
  else if s.balHeld then s
  else
    let dfr := cells.filter fun n => s.rbit A.BAL_DEF n
    let r := balSelect s.balReq dfr (s.get F.BAL_CTRL.MAXON)
    let s := (s.put F.BAL_STAT.ON (cellMask r.1).toNat).setReg A.BAL_DEF (cellMask r.2)
    let s := if r.1.isEmpty then s else s.bump F.BAL_SLOTS.RUN 1
    { s with bal := { s.bal with tag := (cellMask r.1).setWidth 24 } }

/-- SLOT_START: a slot boundary of R182.
(DESIGN CHOICE, log entry 7.) -/
def slotStart (t : Time) (s : State) : State :=
  if s.on 5 && ((t.toNat : Int) - s.base.toNat) % 1000000 == 0 && s.timeMay t then
    slotBegin t (slotFinish { s with ptr := { s.ptr with time := t } })
  else s

/-- A raw sample of cell `n` at trigger `t` carries BAL (R186). -/
def State.balTag (s : State) (n : Nat) (t : Time) : Bool :=
  (s.bal.tag.getLsbD n && Nat.ble s.bal.start.toNat t.toNat && Nat.blt t.toNat (s.bal.start.toNat + 1000000)) ||
  (s.imp.fb.closed && s.get F.IMP_FB_CTRL.CELL == n && !s.rbit A.BAL_FAULT n)

/-- SWITCH_OVERCURRENT: a closed switch opens and stays open until its bit is cleared (R180). -/
def switchTrip (n : Nat) (s : State) : State :=
  if s.blClosed n then ((s.putBit A.BAL_FAULT n true).raise F.BAL_EVT.SW_FAULT).putBit A.BAL_STAT n false else s

/-- A write of BAL_CTRL: MAXON 0 stores 1, 13 to 31 store 12; clearing EN stops the scheduler (R188). -/
def wrBalCtrl (v : Word) (s : State) : State :=
  let en := F.BAL_CTRL.EN.read v == 1
  let s1 := if s.bit F.BAL_CTRL.EN && !en then balStop s else s
  ((s1.put F.BAL_CTRL.MAXON (min 12 (max 1 (F.BAL_CTRL.MAXON.read v)))).put F.BAL_CTRL.COUNTED
    (F.BAL_CTRL.COUNTED.read v)).putB F.BAL_CTRL.EN en

/-- BAL_STAT as it reads. -/
def State.balStatView (s : State) : Word := F.BAL_STAT.ACTIVE.write (s.reg A.BAL_STAT) s.balActive.toNat

/-! ### Thermal sensors (R189, R190) -/

/-- A sensor's state, and its change. -/
def State.sensor (s : State) (i : Nat) : SensorSt := s.thm.sensors.getD i default
def State.onSensor (s : State) (i : Nat) (f : SensorSt → SensorSt) : State :=
  { s with thm := { s.thm with sensors := modAt s.thm.sensors i f } }

/-- The sensors: DS0 to DS3, and HK13 as 4. -/
def sensors : List Nat := List.range 5

/-- A sensor has failed (R190). -/
def State.sensorFailed (s : State) (i : Nat) : Bool := (s.get F.THM_FAIL.FAIL).testBit i

/-- A sensor contributes: HK13 only while channel 13 is in the mask and HK scans (R189). -/
def State.sensorHere (s : State) (i : Nat) : Bool :=
  i != 4 || (s.on 3 && s.bit F.MEAS_CTRL.HK_EN && s.rbit A.MEAS_HK_MASK 13)

/-- The latest reading of a sensor that is enabled, contributes and has not failed. -/
def State.sensorValue (s : State) (i : Nat) : Option Int :=
  if (s.get F.THM_CTRL.SRC).testBit i && s.sensorHere i && !s.sensorFailed i then (s.sensor i).latest else none

/-- A list of integers in rising order. -/
def sortInsert (x : Int) : List Int → List Int
  | [] => [x]
  | y :: ys => if x ≤ y then x :: y :: ys else y :: sortInsert x ys

/-- Twice the median: the mean of the middle two for an even number (R190). -/
def median2 (xs : List Int) : Int :=
  let ys := xs.foldr sortInsert []
  let n := ys.length
  if n % 2 == 1 then 2 * ys.getD (n / 2) 0 else ys.getD (n / 2 - 1) 0 + ys.getD (n / 2) 0

/-- LOST_HOLD begins (R196).
(DEDUCED, log entry 63.) -/
def lostHold (s : State) : State := (s.put F.THM_STAT.LOST_HOLD 1).raise F.THM_EVT.LOST_HOLD

/-- A sensor fails (R190, R196). -/
def sensorFail (i : Nat) (s : State) : State :=
  let lost := s.get F.THM_STAT.LEVEL != 0 || (s.sensor i).top
  let s := (s.putBit A.THM_FAIL i true).raise F.THM_EVT.SENSOR_FAIL
  if lost then lostHold s else s

/-- A reading lies within the bounds of R190, from −55.00 °C to +190.00 °C. -/
def inBounds (r : Int) : Bool := decide (-5500 ≤ r ∧ r ≤ 19000)

/-- A new reading of sensor `i` is judged (R190).
(DEDUCED, log entry 63.) -/
def sensorJudge (i : Nat) (s : State) : State :=
  match (s.sensor i).latest with
  | none => s
  | some r =>
    if s.sensorFailed i then s
    else
      let others := (sensors.filter (· != i)).filterMap s.sensorValue
      let out := !inBounds r
      let lim : Int := 100 * s.get F.THM_XCHK.XDIFF
      let d := 2 * r - median2 others
      let off := Nat.ble 2 others.length && decide (lim < d ∨ lim < -d)
      let s := s.onSensor i fun x =>
        { x with outRun := if out then x.outRun + 1 else 0, offRun := if off then x.offRun + 1 else 0 }
      let x := s.sensor i
      if Nat.ble 4 x.outRun || Nat.ble 1000 x.offRun then sensorFail i s else s

/-! ### Level (R191 to R193, R196) -/

/-- The enabled sensors that have a value, with it. -/
def State.sensorValues (s : State) : List (Nat × Int) :=
  sensors.filterMap fun i => (s.sensorValue i).map fun v => (i, v)

/-- The highest value and its sensor, the lower index first. -/
def hottest : List (Nat × Int) → Option (Nat × Int)
  | [] => none
  | x :: xs => match hottest xs with
    | none => some x
    | some y => if x.2 < y.2 then some y else some x

/-- Every enabled sensor has failed (R196). -/
def State.allFailed (s : State) : Bool :=
  sensors.all fun i => !(s.get F.THM_CTRL.SRC).testBit i || s.sensorFailed i

/-- The applied level (R193). After LOST_CLR it does not fall before the next evaluation (R196). -/
def State.level (s : State) : Nat :=
  max (max (max (s.get F.THM_STAT.CALC) (s.get F.THM_CTRL.FLOOR))
    (max (if s.bit F.THM_STAT.ROR_ACT then s.get F.THM_ROR.RORP else 0)
      (if s.bit F.THM_STAT.LOST_HOLD then s.get F.THM_LIM.LOSTP else 0)))
    (if s.thm.easing then s.get F.THM_STAT.LEVEL else 0)

/-- LEVEL follows; a change sets THM_EVT.LEVEL. -/
def levelUpdate (s : State) : State :=
  if s.level == s.get F.THM_STAT.LEVEL then s else (s.put F.THM_STAT.LEVEL s.level).raise F.THM_EVT.LEVEL

/-- CALC after an evaluation at Tmax, in 0.01 °C (R191). -/
def State.calcNext (s : State) (tmax : Int) : Nat :=
  let ton : Int := 50 * s.get F.THM_LIM.TON
  let step : Int := 50 * s.get F.THM_LIM.STEP
  let hys : Int := 50 * s.get F.THM_LIM.HYS
  let c := s.get F.THM_STAT.CALC
  if ton + c * step ≤ tmax then (min 7 ((tmax - ton) / step + 1)).toNat
  else if c != 0 && decide (tmax < ton + ((c : Int) - 1) * step - hys) then c - 1 else c

/-- CALC, TMAX and HOT are evaluated (R191, R196). -/
def calcStep (s : State) : State :=
  match hottest s.sensorValues with
  | some (i, t) =>
    ((s.put F.THM_STAT.CALC (s.calcNext t)).putS F.THM_STAT.TMAX t).put F.THM_STAT.HOT i
  | none => if s.allFailed then s.put F.THM_STAT.CALC (s.get F.THM_LIM.LOSTP) else s

/-- Whether each of the sensors `is`, which have just been read, gives Tmax at a reading within bounds is noted, as what
its failure may need (R196).
(DEDUCED, log entry 63.) -/
def topStep (is : List Nat) (s : State) : State :=
  let hot := (hottest s.sensorValues).map (·.1)
  s.each is fun i s =>
    if ((s.sensor i).latest.map inBounds).getD false then s.onSensor i fun x => { x with top := hot == some i } else s

/-- The rate of rise of a die sensor in 0.1 °C/s, where it has one: its reading against that of 100 ms before (R192). -/
def State.sensorRate (s : State) (i : Nat) : Option Int :=
  let x := s.sensor i
  if s.sensorFailed i then none
  else match x.latest, x.hist[100]? with
    | some r, some old => some (r - old)
    | _, _ => none

/-- The rates that enabled die sensors have. -/
def State.dieRates (s : State) : List Int :=
  (List.range 4).filterMap fun i => if (s.get F.THM_CTRL.SRC).testBit i then s.sensorRate i else none

/-- The rates are judged (R192): `counted` are those of the sensors valid up to this evaluation, for the release; a sensor
that fails at it stops counting from it on.
(DEDUCED, log entry 63.) -/
def rateStep (counted : List Int) (s : State) : State :=
  let th : Int := s.get F.THM_ROR.RORTH
  let s := if s.dieRates.any fun r => decide (th < r) then (s.put F.THM_STAT.ROR_ACT 1).raise F.THM_EVT.ROR else s
  { s with thm := { s.thm with quiet := if counted.any fun r => decide (th ≤ 2 * r) then 0 else s.thm.quiet + 1 } }

/-- A die sensor takes a reading. -/
def sensorRead (i : Nat) (v : Int) (s : State) : State :=
  let v := clamp (-32768) 32767 v
  s.onSensor i fun x => { x with latest := some v, hist := (v :: x.hist).take 101 }

/-- THM_EVALUATE: the die sensors are read and judged, the level follows (R189 to R193). -/
def thmEval (ds : List Int) (s : State) : State :=
  if !s.on 5 then s
  else
    let s := s.each (List.range 4) fun i s => sensorRead i (ds.getD i 0) s
    let counted := s.dieRates
    let s := s.each (List.range 4) sensorJudge
    let s := s.each (List.range 4) fun i s =>
      (s.putS (F.THM_DS.TEMP i) ((s.sensor i).latest.getD 0)).putS (F.THM_DS.ROR i)
        (clamp (-32768) 32767 ((s.sensorRate i).getD 0))
    let s := { s with thm := { s.thm with easing := false } }
    topStep (List.range 4) (levelUpdate (calcStep (rateStep counted s)))

/-- A result of HK channel 13 is a reading of sensor 4, judged on its own; its failure acts on the level (R189, R190,
R193).
(DEDUCED, log entry 63.) -/
def thmHk13 (v : Int) (s : State) : State :=
  topStep [4] (levelUpdate (sensorJudge 4 (s.onSensor 4 fun x => { x with latest := some v })))

/-- ROR_RELEASE: 1.000 s below half of the threshold (R192). -/
def rorOver (s : State) : State :=
  if Nat.ble 1000 s.thm.quiet then levelUpdate (s.put F.THM_STAT.ROR_ACT 0) else s

/-- LOST_CLR is written: the level follows at the next evaluation (R196). -/
def lostClear (s : State) : State :=
  if s.allFailed then s
  else { s.put F.THM_STAT.LOST_HOLD 0 with thm := { s.thm with easing := true } }

/-- D5 switches on: no sensor has a reading (R192). -/
def thmOn (s : State) : State :=
  { s with thm := { s.thm with sensors := List.replicate 5 default, quiet := 0 } }

/-! ### Register writes -/

/-- A write of THM_CTRL: refused with SRC 0; LOST_CLR (R196).
(DEDUCED, log entry 63.) -/
def wrThmCtrl (v : Word) (s : State) : State :=
  if F.THM_CTRL.SRC.read v == 0 then s.raise F.THM_EVT.CFG_REFUSED
  else
    let s := levelUpdate ((s.put F.THM_CTRL.SRC (F.THM_CTRL.SRC.read v)).put F.THM_CTRL.FLOOR
      (F.THM_CTRL.FLOOR.read v))
    if F.THM_CTRL.LOST_CLR.read v == 1 then lostClear s else s

/-- A write of THM_LIM: HYS and STEP 0 store 1, TON above 280 stores 280. -/
def wrThmLim (v : Word) (s : State) : State :=
  let s := (s.put F.THM_LIM.LOSTP (F.THM_LIM.LOSTP.read v)).put F.THM_LIM.HYS (max 1 (F.THM_LIM.HYS.read v))
  levelUpdate ((s.put F.THM_LIM.STEP (max 1 (F.THM_LIM.STEP.read v))).put F.THM_LIM.TON
    (min 280 (F.THM_LIM.TON.read v)))

/-- A write of THM_ROR: RORTH 0 stores 1. -/
def wrThmRor (v : Word) (s : State) : State :=
  levelUpdate ((s.put F.THM_ROR.RORP (F.THM_ROR.RORP.read v)).put F.THM_ROR.RORTH (max 1 (F.THM_ROR.RORTH.read v)))

/-- A write of THM_XCHK: XDIFF 0 stores 1. -/
def wrThmXchk (v : Word) (s : State) : State := s.put F.THM_XCHK.XDIFF (max 1 (F.THM_XCHK.XDIFF.read v))

/-- A write of THM_FAIL: a cleared bit readmits its sensor from its next reading (R190). -/
def wrThmFail (v : Word) (s : State) : State :=
  let back := sensors.filter fun i => s.sensorFailed i && v.getLsbD i
  (s.each back fun i s => s.onSensor i fun _ => default).plainWrite A.THM_FAIL v

/-! ### Temperature compensation (R198) -/

/-- A die sensor is valid. -/
def State.dieValid (s : State) : Bool := (List.range 4).any fun i => (s.sensorValue i).isSome

/-- A trim's next value: as the coefficients have it, at most `lim` codes from the present one, within `w` bits.
(DESIGN CHOICE, log entry 17.) -/
def trimNext (w lim cur : Nat) (free : Nat) : Nat := min (min (2 ^ w - 1) (cur + lim)) (max (cur - lim) free)

/-- The keeper RC trim in use (R198). It lies in D0, and is the OTP's until it is first updated.
(DESIGN CHOICE, log entry 17.) -/
def State.ktrim (s : State) : Nat := s.ptr.ktrim.getD (s.get F.THM_TC.KTRIM)

/-- THM_TC as it reads. -/
def State.thmTcView (s : State) : Word := F.THM_TC.KTRIM.write (s.reg A.THM_TC) s.ktrim

/-- No valid sensor remains for a trim (R198). With D5 off the event has no register.
(DESIGN CHOICE, log entry 17.) -/
def trimHeld (s : State) : State := s.raiseIf (s.on 5) F.THM_EVT.TC_HOLD

/-- y is reported in whole ppb (R247); which way a fraction goes is open.
(DESIGN CHOICE, log entry 19.) -/
def freqReport (s : State) : State :=
  let y := s.net.y
  s.setReg A.CHN_TIME_FREQ (BitVec.ofInt 32 (if y % 256 == 0 then y / 256 else y / 256 + (Config.freqUp y).toNat))

/-- The main RC's trim moves from one code to another: a member adds the step to y_i with the opposite sign, so that the
combined frequency does not step (R247).
(DESIGN CHOICE, log entry 17.) -/
def mainRcMove (old new : Nat) (s : State) : State :=
  let s := s.put F.THM_TC.RCTRIM new
  if s.net.headNow then s
  else
    let d := Config.rcShift ((new : Int) - old)
    freqReport { s with net := { s.net with yi := s.net.yi - d, y := s.net.y - d } }

/-- TC_TRIM: a trim is updated within its step limit, or held where no valid sensor remains. The keeper RC moves at most
one code, in every device state that has D0.
(DESIGN CHOICE, log entry 17.) -/
def tcUpdate (q : TcKind) (s : State) : State :=
  match q with
  | .keeper =>
    if !s.on 0 then s
    else
      let v := trimNext 8 1 s.ktrim (Config.tcTrim s.free 0 s.ktrim)
      { s with ptr := { s.ptr with ktrim := some v } }.draw
  | .mainRc =>
    if s.on 5 && s.dieValid then
      let cur := s.get F.THM_TC.RCTRIM
      (mainRcMove cur (trimNext 12 (Config.tcStep 1) cur (Config.tcTrim s.free 1 cur)) s).draw
    else trimHeld s
  | .reference =>
    if s.on 5 && ((s.sensorValue 4).isSome || s.dieValid) then
      let cur := s.get F.THM_TC.REFTRIM
      (s.put F.THM_TC.REFTRIM (trimNext 12 (Config.tcStep 2) cur (Config.tcTrim s.free 2 cur))).draw
    else trimHeld s

end Sys2Proof.Machine
end

