-- ==== Sys2Proof/Machine/Meas.lean ====
section
/-! DEFINITION. The measurement array (spec/02_measurement_array.md): trigger and conversions, reference, calibration, the
Traveller, the housekeeping converter, the open-wire test, the snapshot, and the writes of its registers. -/

namespace Sys2Proof.Machine

/-! ### Small accessors -/

/-- The array's state changed. -/
def State.onMeas (s : State) (f : MeasSt → MeasSt) : State := { s with meas := f s.meas }
def State.onTrv (s : State) (f : TrvSt → TrvSt) : State := { s with trv := f s.trv }
def State.onOw (s : State) (f : OwSt → OwSt) : State := { s with ow := f s.ow }

/-- A self-calibration has stopped live conversion (R52). -/
def State.calRuns (s : State) : Bool := s.meas.cal != .none && s.meas.cal != .held

/-- Both bank domains are on. -/
def State.banks (s : State) : Bool := s.on 2 && s.on 3

/-- The domain of cell `n`'s converter is on (R35). -/
def State.cellBank (s : State) (n : Nat) : Bool := if Nat.blt n 12 then s.on 2 else s.on 3

/-- The array converts: the trigger runs and no self-calibration holds it. -/
def State.converts (s : State) : Bool := s.bit F.MEAS_CTRL.ARRAY_EN && !s.calRuns

/-- TRV_STATE and TRV_CH follow the Traveller's step (R62, R67 to R70). -/
def trvStat (s : State) : State :=
  let st := match s.trv.step with
    | .idle => 0 | .takeover => 1 | .hold => 2 | .pinned => 2 | .handback => 3 | .secondCal => 4 | .secondHandback => 3
    | .offset => 5 | .parked => 6 | .release => 3 | .fault => 7
  let holds := match s.trv.step with
    | .hold => !s.trv.released
    | .pinned | .handback | .secondCal | .secondHandback | .parked | .release => true
    | _ => false
  (s.put F.MEAS_STAT.TRV_STATE st).put F.MEAS_STAT.TRV_CH (if holds then s.trv.k else 31)

/-- The Traveller's step changes. -/
def trvTo (st : TrvStep) (s : State) : State := trvStat (s.onTrv fun t => { t with step := st })

/-- The Traveller produces channel `n` (R62, R69). -/
def State.trvHolds (s : State) (n : Nat) : Bool := s.get F.MEAS_STAT.TRV_CH == n

/-- Cn takes part in an overlap, or its channel is its own (R48, R62). -/
def State.cellConverts (s : State) (n : Nat) : Bool :=
  s.converts && s.rbit A.MEAS_CH_EN n && s.cellBank n &&
  (!(s.trvHolds n || (s.trv.step == .hold && s.trv.k == n)) ||
    s.trv.step == .handback || s.trv.step == .secondHandback || s.trv.step == .release)

/-- CI converts (R48). -/
def State.ciConverts (s : State) : Bool := s.converts && s.bit F.MEAS_CH_EN.CI_EN && s.on 3

/-- CT samples the cell it is connected to (R40). A parked CT does so whatever the cell's enable bit and bank are, for as
long as the array converts and D2 is on (R58, R69); every other step ends before its bank or its enable is lost.
(DEDUCED, log entry 64.) -/
def State.trvConverts (s : State) : Bool :=
  s.converts && s.on 2 && (s.trvHolds s.trv.k || s.trv.step == .takeover)

/-! ### The Traveller's ends (R49, R50, R58) -/

/-- The rotation may run (R58). -/
def State.trvMay (s : State) : Bool :=
  s.works [.run, .recover] && s.bit F.MEAS_CTRL.ARRAY_EN && s.banks && !s.calRuns

/-- The step or pin is abandoned: the channel returns at once, and the factors of before the step are restored (R50, R52,
R58). In the offset check the channel has returned already, with its converter's new factors.
(DEDUCED, log entry 64.) -/
def trvAbandon (s : State) : State :=
  let s := if s.trv.step == .offset then s
    else (s.setReg (A.MEAS_GAIN s.trv.k) s.trv.savedGain).setReg (A.MEAS_OFF s.trv.k) s.trv.savedOff
  trvTo .idle (s.onTrv fun t => { t with released := false, next := none, pairs := 0, sum := 0 })

/-- The Traveller is parked, with its converter marked (R69, R70). -/
def trvPark (s : State) : State :=
  trvTo .parked (((s.putBit A.MEAS_CONV_FAIL s.trv.k true).raise F.MEAS_EVT.CONV_FAIL).onTrv fun t =>
    { t with releaseWaits := false, pairs := 0, sum := 0 })

/-- Whatever of the Traveller's conditions has ceased to hold takes effect; a stopped rotation begins again at FIRST (R50,
R58, R70). -/
def trvCheck (s : State) : State :=
  match s.trv.step with
  | .parked | .fault => s
  | .idle => if s.trvMay then s else s.onTrv fun t => { t with next := none }
  | .release => if s.banks && s.bit F.MEAS_CTRL.ARRAY_EN then s else trvPark s
  | _ => if s.trvMay then s else trvAbandon s

/-- The Traveller fault (R65, R67). -/
def trvFault (s : State) : State := trvTo .fault (s.raise F.MEAS_EVT.TRV_FAULT)

/-- A step ends: the rotation goes on with the next converter; after a pin or a park, or where MODE is now 0, it begins
at FIRST (R57, R60, R70). -/
def stepOver (s : State) : State :=
  let rot := F.MEAS_TRV_CTRL.MODE.read s.trv.ctrl == 1 && s.get F.MEAS_TRV_CTRL.MODE != 0
  trvTo .idle (s.onTrv fun t => { t with next := if rot then some (t.k + 1) else none, released := false })

/-! ### The trigger (R39 to R43) -/

/-- The base the next trigger uses (R39, R42). -/
def State.nextBase (s : State) : Time := if s.lock then s.base else s.meas.baseUse

/-- A TIME value is a trigger instant under MEAS_TRIG as written. -/
def State.isTrigger (s : State) (t : Time) : Bool :=
  let b : Int := if s.bit F.MEAS_TRIG.SRC then s.nextBase.toNat else 0
  ((t.toNat : Int) - b) % 100 == (s.get F.MEAS_TRIG.PHASE : Int)

/-- Alignment is lost or regained (R42). -/
def alignUpdate (s : State) : State :=
  let un := s.trigChain && !s.lock
  (s.raiseIf (un && !s.meas.unaligned) F.MEAS_EVT.UNSYNC).onMeas fun m => { m with unaligned := un }

/-- MEAS_TRIG and the base in use follow at a trigger; a moved grid restarts filters and windows (R42, R43, R89, R128). -/
def trigAdopt (s : State) : State :=
  let old := s.meas.trigUse
  let new := s.reg A.MEAS_TRIG
  let chain := F.MEAS_TRIG.SRC.read new == 1
  let moved := old != new || (chain && s.meas.baseUse != s.nextBase)
  let s1 := s.onMeas fun m => { m with trigUse := new, baseUse := s.nextBase }
  if moved then impGridChange (allRestart s1) else s1

/-- A test sink on either pin of cell `n` is active, or was within 1 ms (R80). -/
def State.openwTag (s : State) (n : Nat) : Bool := s.ow.tagged.getLsbD n || s.ow.tagged.getLsbD (n + 1)

/-- The tag of a sample of channel `ch` by converter `conv` at trigger `t` (R38). -/
def State.rawTag (s : State) (ch conv : Nat) (live : Bool) (t : Time) : RawTag :=
  { ch := ch, live := live, conv := conv, time := t, refcold := !s.bit F.MEAS_STAT.REF_OK,
    bal := Nat.blt ch 24 && s.balTag ch t, unsync := s.trigChain && !s.lock, openw := Nat.blt ch 24 && s.openwTag ch }

/-- The conversion that starts on converter `c` (0 to 23, 24 CI, 25 CT) at trigger `t`, where one does. -/
def State.convStart (s : State) (c : Nat) (t : Time) : Option RawTag :=
  if Nat.blt c 24 then if s.cellConverts c then some (s.rawTag c c (!s.trvHolds c) t) else none
  else if c == 24 then if s.ciConverts then some (s.rawTag 24 24 true t) else none
  else if s.trvConverts then some (s.rawTag s.trv.k 31 (s.trvHolds s.trv.k) t) else none

/-- MEAS_RAWn of a captured tag (R82); the code follows at the conversion's end. -/
def rawWord (tag : RawTag) (code : Nat) : Word :=
  Word.ofNat (2 ^ 31 + tag.openw.toNat * 2 ^ 27 + tag.unsync.toNat * 2 ^ 26 + tag.bal.toNat * 2 ^ 25 +
    tag.refcold.toNat * 2 ^ 24 + tag.conv * 2 ^ 16 + code % 4096)

/-- A snapshot is complete (R82). -/
def snapDone (s : State) : State := (s.raise F.MEAS_SNAP.DONE).raise F.MEAS_EVT.SNAP_DONE

/-- The tags of this trigger are captured where a snapshot is armed (R82). The register of a converter that took no sample
reads 0, but for CONV 31 in MEAS_RAWTRV.
(DESIGN CHOICE, log entry 76.) -/
def snapTrigger (t : Time) (s : State) : State :=
  if !s.meas.snapArmed then s
  else
    let tags := fun c => s.meas.conv.getD c none
    let s1 := s.each (List.range 26) fun c s => s.setReg (A.MEAS_RAW c) (match tags c with
      | some tag => rawWord tag 0
      | none => if c == 25 then 0x001F0000 else 0)
    let left := (bitsWord 26 fun c => (tags c).isSome).setWidth 26
    let s2 := (s1.setReg A.MEAS_RAWTIME ((timeWords t).headD 0)).onMeas fun m =>
      { m with snapArmed := false, snapLeft := left }
    if left == 0 then snapDone s2 else s2

/-- A calibration of HK runs: on its own, or in a self-calibration, where it is taken to last as long as its two phases
(R52, R54).
(DESIGN CHOICE, log entry 76.) -/
def State.hkCalRuns (s : State) : Bool := s.meas.hkCal == .run || s.meas.cal == .offset || s.meas.cal == .gain

/-- A pending injected request starts at a trigger and abandons the entry in progress (R75). It waits through an HK
calibration (R54), that of a self-calibration included, which is taken to last as long as its two phases, and while D3 is
off.
(DESIGN CHOICE, log entry 76.) -/
def injTrigger (s : State) : State :=
  match s.meas.injWait with
  | none => s
  | some ch =>
    if s.hkCalRuns || !s.on 3 then s
    else (s.put F.MEAS_STAT.HK_ENTRY ch).onMeas fun m => { m with injWait := none, injRun := some ch, hkWarm := 0 }

/-- The channel CT produces from this trigger on, where it changes (R99); entries older than any span are dropped. -/
def heldNote (t : Time) (ch : Nat) (held : List (Time × Nat)) : List (Time × Nat) :=
  if ((held.head?.map (·.2)).getD 31) == ch then held
  else
    let keep := held.takeWhile fun x => Nat.ble t.toNat (x.1.toNat + 0x400000)
    (t, ch) :: keep ++ (held.drop keep.length).take 1

/-- SAMPLE_TRIGGER: the common sample trigger fires at `t` (R39, R40). Where TIME has been set back behind the last
trigger (R246), that trigger bars none, and the samples before it are no run with those after it.
(DESIGN CHOICE, log entry 7; DEDUCED, log entry 64.) -/
def trigger (t : Time) (s : State) : State :=
  let back := match s.meas.lastTrig with | some l => Nat.blt s.ptr.time.toNat l.toNat | none => false
  let late := match s.meas.lastTrig with | some l => !back && Nat.ble t.toNat l.toNat | none => false
  if !s.bit F.MEAS_CTRL.ARRAY_EN || !s.isTrigger t || late || !s.timeMay t then s
  else
    let missed := match s.meas.lastTrig with | some l => back || Nat.ble (l.toNat + 200) t.toNat | none => false
    let s := trigAdopt { s with ptr := { s.ptr with time := t } }
    let s := alignUpdate s
    let s := if missed then impGridChange (allRestart s) else s
    let s := if s.trv.step == .takeover && s.trv.released then stepOver s else s
    let s := (s.onOw fun o => { o with refLive := false, testLive := false }).onMeas fun m =>
      { m with lastTrig := some t, hist := m.hist.map fun h => (none :: if missed then [] else h).take 16,
               hkWarm := if s.bit F.MEAS_STAT.REF_OK then min 16 (m.hkWarm + 1) else 0 }
    let s := s.onTrv fun x => { x with vct := none, vck := none }
    let starts := (List.range 26).map fun c => s.convStart c t
    let trv := ((starts.getD 25 none).filter (·.live)).elim 31 (·.ch)
    let s := s.onMeas fun m => { m with conv := starts, held := heldNote t trv m.held }
    let fed := fun n => starts.any fun x => match x with | some tag => tag.live && tag.ch == n | none => false
    let s := s.each ((List.range 25).filter fun n => !fed n) fun n s => impGap n (chanRestart n s)
    impTrigger t (injTrigger (snapTrigger t s))

/-! ### Conversions (R40, R62 to R64, R84) -/

/-- The converter slot of a converter index of the tags: 31 is the Traveller. -/
def convSlot (conv : Nat) : Nat := if conv == 31 then 25 else conv

/-- A pair of an overlap is complete: its difference is added; the overlap's samples are those of its first 64 triggers
from 2 µs on (R62, R64).
(DEDUCED, log entry 64.) -/
def trvPair (t : Time) (conv : Nat) (v : Int) (s : State) : State :=
  let overlap := s.trv.step == .takeover || s.trv.step == .handback || s.trv.step == .secondHandback || s.trv.step == .release
  if !(overlap && Nat.ble (s.trv.start.toNat + 200) t.toNat && Nat.blt s.trv.pairs 64) then s
  else s.onTrv fun x =>
    let x := if conv == 31 then { x with vct := some v } else { x with vck := some v }
    match x.vct, x.vck with
    | some a, some b => { x with vct := none, vck := none, pairs := x.pairs + 1, sum := x.sum + (a - b) }
    | _, _ => x

/-- The newest of a cell's history takes the code. -/
def histCode (code : Nat) : List (Option Nat) → List (Option Nat)
  | [] => []
  | _ :: xs => some code :: xs

/-- The code of a cell's raw sample enters the histories of the open-wire test (R78). -/
def histSample (n code : Nat) (s : State) : State :=
  let s := s.onMeas fun m => { m with hist := modAt m.hist n (histCode code) }
  s.onOw fun o => { o with
    ref := if o.refLive then modAt o.ref n (histCode code) else o.ref,
    test := if o.testLive then modAt o.test n (histCode code) else o.test }

/-- A raw sample of a cell (R34), of CI or of CT reaches SDP: corrected with the factors held as the conversion ends (R84),
filtered, and passed to IMP (R103, R114, R373). The time of a residue mismatch is taken as the trigger TIME of the sample in
work.
(DESIGN CHOICE, log entry 77.) -/
def deliver (tag : RawTag) (code : Nat) (residue : Residue) (s : State) : State :=
  let s := if Nat.blt tag.ch 24 && s.meas.lastTrig == some tag.time then histSample tag.ch code s else s
  if !s.sdpRuns then s
  else
    let x : Sample := { time := tag.time, val := toSixteenth (s.corrected (convSlot tag.conv) code), conv := tag.conv,
                        refcold := tag.refcold, bal := tag.bal, unsync := tag.unsync, openw := tag.openw, bad := false }
    let whole := fun (s : State) => impSample tag.ch x (chanSample tag.ch x s)
    let cleared := fun (s : State) => impSample tag.ch x (chanResidue tag.ch x s)
    match residue, s.chanOn tag.ch with
    | .correction, _ => impSample tag.ch x (impResidue tag.ch (chanResidue tag.ch x s))
    | .filter, true => cleared s
    | .upset, true => sramSees .path .uncorrectable cleared whole s
    | .healed, true => sramSees .path .corrected cleared whole s
    | _, _ => whole s

/-- CONVERSION_END: the conversion of a converter ends with a code (R40). -/
def conversion (conv code : Nat) (residue : Residue) (s : State) : State :=
  let c := convSlot conv
  match s.meas.conv.getD c none with
  | none => s
  | some tag =>
    let s := s.onMeas fun m => { m with conv := modAt m.conv c fun _ => none }
    let s := if s.meas.snapLeft.getLsbD c then
        let left := s.meas.snapLeft &&& ~~~((1 : BitVec 26) <<< c)
        let s := (s.setReg (A.MEAS_RAW c) (rawWord tag code)).onMeas fun m => { m with snapLeft := left }
        if left == 0 then snapDone s else s
      else s
    let s := if Nat.blt tag.ch 24 && tag.ch == s.trv.k then trvPair tag.time tag.conv (s.corrected c code) s else s
    if tag.live then deliver tag code residue s else s

/-! ### Reference (R44 to R47) -/

/-- MEAS_REF.EN set. -/
def refOn (s : State) : State :=
  if s.bit F.MEAS_REF.EN then s else (s.put F.MEAS_REF.EN 1).onMeas fun m => { m with settling := true }

/-- MEAS_REF.EN cleared. -/
def refOff (s : State) : State :=
  ((s.put F.MEAS_REF.EN 0).put F.MEAS_STAT.REF_OK 0).onMeas fun m => { m with settling := false }

/-- The settling timer expires. -/
def refReady (s : State) : State :=
  if s.meas.settling then
    ((s.put F.MEAS_STAT.REF_OK 1).raise F.MEAS_EVT.REF_OK).onMeas fun m => { m with settling := false }
  else s

/-- A write of MEAS_REF. -/
def wrMeasRef (v : Word) (s : State) : State := if F.MEAS_REF.EN.read v == 1 then refOn s else refOff s

/-! ### Self-calibration (R51 to R54) -/

/-- A self-calibration begins (R52): the Traveller lets go of a channel it holds, in the release of a park too; a parked
CT is not part of the rotation and stays (R58). An HK calibration that runs goes on beside it.
(DEDUCED, log entry 64; DESIGN CHOICE, log entry 76.) -/
def calBegin (s : State) : State :=
  let s := match s.trv.step with
    | .idle | .parked | .fault => s
    | .release => trvTo .idle s
    | _ => trvAbandon s
  let s := s.onMeas fun m =>
    { m with cal := if m.injWait.isSome || m.injRun.isSome then .hkWait else .offset, calCut := false }
  s.onTrv fun t => { t with next := none }

/-- A held request begins once its conditions hold. -/
def calTry (s : State) : State :=
  if s.meas.cal == .held && s.bit F.MEAS_STAT.REF_OK && s.banks then calBegin s else s

/-- MEAS_CAL.START is written (R51): refused in RUN and while a self-calibration runs; one that is already held stays
so. -/
def calRequest (s : State) : State :=
  if s.ptr.dev == .run || s.calRuns then s.raise F.MEAS_EVT.CAL_REFUSED
  else calTry ((s.put F.MEAS_STAT.CAL_BUSY 1).onMeas fun m => { m with cal := .held })

/-- The offset phase ends. -/
def calGain (s : State) : State := if s.meas.cal == .offset then s.onMeas fun m => { m with cal := .gain } else s

/-- A measured factor fits its register field. -/
def inRange16 (i : Int) : Bool := decide (-32768 ≤ i ∧ i ≤ 32767)

/-- Measured factors of converter `c` are written, each where it is in range; `bit` of MEAS_CAL_ERR tells of one that is
not (R52). CI has no offset factor (R37). -/
def factors (c : Nat) (gain off : Int) (s : State) : State :=
  let s1 := if inRange16 gain then s.putS (F.MEAS_GAIN.GAIN c) gain else s
  let s2 := if c != 24 && inRange16 off then s1.putS (F.MEAS_OFF.OFF c) off else s1
  if inRange16 gain && (c == 24 || inRange16 off) then s2 else s2.putBit A.MEAS_CAL_ERR c true

/-- The gain phase ends: factors are written and conversion resumes (R52). -/
def calEnd (gains offs : List Int) (s : State) : State :=
  if s.meas.cal == .gain then
    let s := s.each (List.range 27) fun c s => factors c (gains.getD c 0) (offs.getD c 0) s
    ((s.put F.MEAS_STAT.CAL_BUSY 0).raise F.MEAS_EVT.CAL_DONE).onMeas fun m => { m with cal := .none }
  else s

/-- D2 or D3 is switched off: a running self-calibration ends without factors, and the scan waits for both domains (R51);
with D3 an HK calibration ends, without factors and without its event.
(DESIGN CHOICE, log entry 76.) -/
def calAbort (d : Nat) (s : State) : State :=
  let s := if s.calRuns then
      ((s.put F.MEAS_STAT.CAL_BUSY 0).raise F.MEAS_EVT.CAL_REFUSED).onMeas fun m =>
        { m with cal := .none, calCut := m.round.isSome, hkWarm := 0 }
    else s
  if d == 3 then (s.put F.MEAS_STAT.HK_CAL_BUSY 0).onMeas fun m => { m with hkCal := .none } else s

/-- The array is under scan: TEST with the scan of the D5 logic selected (R54, R438). -/
def State.underScan (s : State) : Bool := s.ptr.dev == .test && s.get F.TRU_TEST_SEL.SEL == 1

/-- HK calibration starts, or waits for the injected conversion (R54). A request is ignored while an HK calibration or a
self-calibration runs, which calibrates HK itself, with the array under scan, and while D3 is off.
(DESIGN CHOICE, log entry 76.) -/
def hkCalStart (s : State) : State :=
  if s.meas.hkCal != .none || s.calRuns || s.underScan || !s.on 3 then s
  else if s.meas.injWait.isSome || s.meas.injRun.isSome then s.onMeas fun m => { m with hkCal := .wait }
  else (s.put F.MEAS_STAT.HK_CAL_BUSY 1).onMeas fun m => { m with hkCal := .run }

/-- HK calibration ends (R54): its factors are written and the scan resumes from scratch. -/
def hkCalEnd (gain off : Int) (s : State) : State :=
  if s.meas.hkCal == .run then
    ((factors 26 gain off (s.put F.MEAS_STAT.HK_CAL_BUSY 0)).raise F.MEAS_EVT.HK_CAL_DONE).onMeas fun m =>
      { m with hkCal := .none, hkWarm := 0 }
  else s

/-- A write of MEAS_CAL. -/
def wrMeasCal (v : Word) (s : State) : State :=
  let s := if F.MEAS_CAL.START.read v == 1 then calRequest s else s
  if F.MEAS_CAL.HK.read v == 1 then hkCalStart s else s

/-! ### Enables (R43, R48, R49) -/

/-- The Traveller lets go of channel `n`, whose enable bit was cleared (R49): a takeover ends at the next trigger, a
calibration goes on to its end, an overlap that would hand the channel back, of a park's release too, is left out.
(DEDUCED, log entry 64.) -/
def trvRelease (n : Nat) (s : State) : State :=
  if s.trv.k != n then s
  else match s.trv.step with
    | .takeover => s.onTrv fun t => { t with released := true }
    | .hold => trvStat (s.onTrv fun t => { t with released := true })
    | .secondCal => trvTo .hold (s.onTrv fun t => { t with released := true })
    | .handback | .secondHandback | .release => trvTo .offset (s.onTrv fun t => { t with released := false })
    | .pinned => trvTo .idle (s.onTrv fun t => { t with next := none })
    | _ => s

/-- A write of MEAS_CH_EN (R48, R49). -/
def wrChEn (v : Word) (s : State) : State :=
  let off := cells.filter fun n => s.rbit A.MEAS_CH_EN n && !v.getLsbD n
  (s.plainWrite A.MEAS_CH_EN v).each off trvRelease

/-- ARRAY_EN cleared (R43, R58, R70): from here on no trigger instant delivers a sample (R79). -/
def arrayOff (s : State) : State :=
  trvCheck ((s.put F.MEAS_CTRL.ARRAY_EN 0).onMeas fun m => { m with hist := List.replicate 24 [] })

/-- A write of MEAS_TRIG: PHASE 100 to 127 stores 99; it takes effect at the next trigger (R43). -/
def wrMeasTrig (v : Word) (s : State) : State :=
  (s.put F.MEAS_TRIG.PHASE (min 99 (F.MEAS_TRIG.PHASE.read v))).put F.MEAS_TRIG.SRC (F.MEAS_TRIG.SRC.read v)

/-! ### The Traveller's rotation (R57 to R70) -/

/-- A converter that may take a step. -/
def State.trvAble (s : State) (n : Nat) : Bool := s.rbit A.MEAS_CH_EN n && !s.rbit A.MEAS_CONV_FAIL n

/-- The next converter of the rotation from MEAS_TRV_CTRL (R57, R58). -/
def State.trvPick (s : State) : Option Nat :=
  let first := s.get F.MEAS_TRV_CTRL.FIRST
  let last := s.get F.MEAS_TRV_CTRL.LAST
  let from' := match s.trv.next with | some n => if Nat.ble first n && Nat.ble n last then n else first | none => first
  let ring := ((List.range 24).filter fun n => Nat.ble from' n && Nat.ble n last) ++
    (List.range 24).filter fun n => Nat.ble first n && Nat.blt n from'
  if Nat.blt last first then none else ring.find? s.trvAble

/-- The overlap with converter `k` starts (R62). -/
def overlap (st : TrvStep) (k : Nat) (s : State) : State :=
  let now := s.meas.lastTrig.getD s.ptr.time
  trvTo st (s.onTrv fun t => { t with k := k, start := now, pairs := 0, sum := 0, vct := none, vck := none })

/-- A step for converter `k` starts with its takeover overlap. -/
def stepStart (k : Nat) (s : State) : State :=
  overlap .takeover k (s.onTrv fun t => { t with
    ctrl := s.reg A.MEAS_TRV_CTRL, tol := s.get F.MEAS_TRV_TOL.TOL, savedGain := s.reg (A.MEAS_GAIN k), savedOff := s.reg (A.MEAS_OFF k),
    released := false })

/-- The pinned channel: PIN_CH clamped to the nearer bound (R30, R61); none where FIRST is above LAST (R58).
(DEDUCED, log entry 64.) -/
def State.trvPin (s : State) : Option Nat :=
  let first := s.get F.MEAS_TRV_CTRL.FIRST
  let last := s.get F.MEAS_TRV_CTRL.LAST
  if Nat.blt last first then none else some (max first (min last (s.get F.MEAS_TRV_CTRL.PIN_CH)))

/-- The mode is taken up while no step runs: the rotation's next converter, or the pinned channel; any mode but the
rotation forgets where the rotation stood (R57, R60). -/
def stepFrom (s : State) : State :=
  let forget := s.onTrv fun t => { t with next := none }
  if s.get F.MEAS_TRV_CTRL.MODE == 1 then match s.trvPick with | some k => stepStart k s | none => s
  else if s.get F.MEAS_TRV_CTRL.MODE == 2 then
    match s.trvPin with | some k => if s.trvAble k then stepStart k forget else forget | none => forget
  else forget

/-- A pin is held: MODE stays 2, PIN_CH is unchanged (R60), and the bounds do not exclude its channel (R30).
(DEDUCED, log entry 64.) -/
def State.pinHolds (s : State) : Bool :=
  s.get F.MEAS_TRV_CTRL.MODE == 2 && s.get F.MEAS_TRV_CTRL.PIN_CH == F.MEAS_TRV_CTRL.PIN_CH.read s.trv.ctrl &&
  s.trvPin == some s.trv.k

/-- TRV_STEP_BOUNDARY: a step, a takeover or a handback from a pin starts (R59, R60). -/
def stepBoundary (s : State) : State :=
  if !s.trvMay then s
  else match s.trv.step with
    | .idle => stepFrom s
    | .pinned => if s.pinHolds then s else overlap .handback s.trv.k s
    | _ => s

/-- D of the overlap in µV, reported and saturated; which way a fraction goes is open (R64). -/
def trvDiff (sum : Int) : Int :=
  let d := sum / (64 * 2 ^ 20) + (if sum % (64 * 2 ^ 20) != 0 && Config.corrRoundsUp sum then 1 else 0)
  clamp (-32767) 32767 d

/-- The agreement check passes, with the tolerance of the step's start (R19, R60, R64).
(DEDUCED, log entry 64.) -/
def State.agrees (s : State) : Bool :=
  let lim : Int := (s.trv.tol : Int) * 100 * 64 * 2 ^ 20
  decide (-lim ≤ s.trv.sum ∧ s.trv.sum ≤ lim)

/-- A check writes what it found. -/
def checkReport (s : State) : State :=
  (s.putS F.MEAS_TRV_STAT.LAST_DIFF (trvDiff s.trv.sum)).put F.MEAS_TRV_STAT.LAST_K s.trv.k

/-- TRV_TAKEOVER_CHECK (R62, R64, R66, R67).
(DEDUCED, log entry 64.) -/
def takeoverCheck (s : State) : State :=
  if !(s.trv.step == .takeover && !s.trv.released && s.trv.pairs == 64) then s
  else
    let s1 := checkReport s
    if s.agrees then
      trvTo .hold ((s1.put F.MEAS_TRV_STAT.CONSEC 0).bump F.MEAS_TRV_CNT.TAKEOVERS 1)
    else
      let s2 := ((s1.raise F.MEAS_EVT.TRV_MISMATCH).bump F.MEAS_TRV_CNT.MISMATCHES 1).bump F.MEAS_TRV_STAT.CONSEC 1
      let s3 := stepOver s2
      if s3.get F.MEAS_TRV_STAT.CONSEC == 3 then trvFault s3 else s3

/-- TRV_CAL_END: the relieved converter's calibration ends (R49, R57, R62, R65, R68). -/
def trvCalDone (gain off : Int) (s : State) : State :=
  let k := s.trv.k
  match s.trv.step with
  | .hold =>
    let s := factors k gain off s
    if s.trv.released then trvTo .offset (s.onTrv fun t => { t with released := false })
    else if F.MEAS_TRV_CTRL.MODE.read s.trv.ctrl == 2 then trvTo .pinned s
    else overlap .handback k s
  | .secondCal => overlap .secondHandback k (factors k gain off s)
  | _ => s

/-- TRV_HANDBACK_CHECK (R64, R68 to R70).
(DEDUCED, log entry 64.) -/
def handbackCheck (s : State) : State :=
  let st := s.trv.step
  if !((st == .handback || st == .secondHandback || st == .release) && s.trv.pairs == 64) then s
  else
    let s1 := checkReport s
    if s.agrees then trvTo .offset s1
    else
      let s2 := s1.bump F.MEAS_TRV_CNT.MISMATCHES 1
      if st == .handback then trvTo .secondCal s2
      else if st == .secondHandback then
        trvPark ((s2.setReg (A.MEAS_GAIN s.trv.k) s.trv.savedGain).setReg (A.MEAS_OFF s.trv.k) s.trv.savedOff)
      else trvPark s2

/-- TRV_OFFSET_CHECK_END (R62, R65). -/
def offsetCheck (off : Int) (s : State) : State :=
  if s.trv.step != .offset then s
  else if inRange16 off then stepOver (s.putS (F.MEAS_OFF.OFF 25) off)
  else trvFault (s.putBit A.MEAS_CAL_ERR 25 true)

/-- A write of MEAS_TRV_CTRL (R57, R60, R67): MODE 3 leaves MODE, channels above 23 store 23; MODE 0 ends the fault. What
the rotation does with it is settled at the next boundary. -/
def wrTrvCtrl (v : Word) (s : State) : State :=
  let was := s.get F.MEAS_TRV_CTRL.MODE
  let mode := if F.MEAS_TRV_CTRL.MODE.read v == 3 then was else F.MEAS_TRV_CTRL.MODE.read v
  let c := fun f => min 23 (Fld.read f v)
  let s := ((s.put F.MEAS_TRV_CTRL.PIN_CH (c F.MEAS_TRV_CTRL.PIN_CH)).put F.MEAS_TRV_CTRL.LAST
    (c F.MEAS_TRV_CTRL.LAST)).put F.MEAS_TRV_CTRL.FIRST (c F.MEAS_TRV_CTRL.FIRST)
  let s := s.put F.MEAS_TRV_CTRL.MODE mode
  if mode == 0 && s.trv.step == .fault then
    trvTo .idle ((s.put F.MEAS_TRV_STAT.CONSEC 0).onTrv fun t => { t with next := none })
  else s

/-- A write of MEAS_TRV_TOL: 0 to 4 stores 5. -/
def wrTrvTol (v : Word) (s : State) : State := s.put F.MEAS_TRV_TOL.TOL (max 5 (F.MEAS_TRV_TOL.TOL.read v))

/-- A write of MEAS_CONV_FAIL (R70): clearing the parked converter's bit asks for its release. -/
def wrConvFail (v : Word) (s : State) : State :=
  let mine := s.trv.step == .parked && v.getLsbD s.trv.k && s.rbit A.MEAS_CONV_FAIL s.trv.k
  let s := s.plainWrite A.MEAS_CONV_FAIL v
  if mine then s.onTrv fun t => { t with releaseWaits := true } else s

/-- PARK_RELEASE_START (R70): the handback overlap starts; a converter whose enable bit is 0 takes part in none, and the
channel is released without it (R49).
(DEDUCED, log entry 64.) -/
def parkRelease (s : State) : State :=
  if s.trv.step == .parked && s.trv.releaseWaits && s.converts && s.banks then
    let s := s.onTrv fun t => { t with releaseWaits := false, ctrl := 0, tol := s.get F.MEAS_TRV_TOL.TOL }
    if s.rbit A.MEAS_CH_EN s.trv.k then overlap .release s.trv.k s else trvTo .offset s
  else s

/-! ### Housekeeping (R71 to R76) -/

/-- The channels of a round, in ascending order. -/
def State.hkRound (s : State) : List Nat := (List.range 16).filter fun n => s.rbit A.MEAS_HK_MASK n

/-- A round starts; an empty one ends at once (R73). -/
def roundBegin (s : State) : State :=
  let s := s.put F.MEAS_STAT.HK_ABORT 0
  if s.hkRound.isEmpty then s.raise F.MEAS_EVT.ROUND_DONE
  else s.onMeas fun m => { m with round := some s.hkRound, roundDue := false, roundEnds := false, hkWarm := 0 }

/-- HK_ROUND_START (R73). -/
def roundStart (s : State) : State :=
  if !(s.bit F.MEAS_CTRL.HK_EN && s.on 3) then s
  else if s.meas.round.isSome then s.onMeas fun m => { m with roundDue := true }
  else roundBegin s

/-- A round ends; one that is due starts late (R73, R76). -/
def roundOver (aborted : Bool) (s : State) : State :=
  let due := s.meas.roundDue && s.bit F.MEAS_CTRL.HK_EN
  let s := (s.raise F.MEAS_EVT.ROUND_DONE).onMeas fun m => 
    { m with round := none, roundDue := false, roundEnds := false, calCut := false }
  let s := if aborted then s.put F.MEAS_STAT.HK_ABORT 1 else s
  if due then roundBegin (s.raise F.MEAS_EVT.HK_LATE) else s

/-- The scan is held by an injected conversion or a calibration, or waits for the domains after one (R51, R54, R75). -/
def State.hkHeld (s : State) : Bool :=
  s.meas.injRun.isSome || s.meas.hkCal == .run || s.calRuns || (s.meas.calCut && !s.banks)

/-- The word of an HK result (R45, R75). -/
def State.hkWord (s : State) (ch value : Nat) (inj : Bool) : Word :=
  let cold := Nat.blt s.meas.hkWarm 16 || !s.bit F.MEAS_STAT.REF_OK
  Word.ofNat (2 ^ 31 + cold.toNat * 2 ^ 30 + inj.toNat * 2 ^ 29 + ch * 2 ^ 16 + value % 65536)

/-- A result is written to MEAS_HKn; that of channel 13 goes to THM as well (R72, R189). That of channel 8, in 4 mV, shows
VSTK, which PHC_STAT.VIN_OK compares with 30.0 V (R71, R178).
(DEDUCED, log entry 62.) -/
def hkWrite (ch value : Nat) (inj : Bool) (s : State) : State :=
  let s := s.setReg (A.MEAS_HK ch) (s.hkWord ch value inj)
  if ch == 13 then thmHk13 (signed 16 (value % 65536)) s
  else if ch == 8 then s.putB F.PHC_STAT.VIN_OK (Nat.blt 30000 (4 * (value % 65536)))
  else s

/-- What waited for an injected conversion begins (R52, R54). Where a self-calibration does, a waiting request for HK alone
is dropped, and so it is with D3 off.
(DESIGN CHOICE, log entry 76.) -/
def injOver (s : State) : State :=
  let s := s.onMeas fun m => { m with cal := if m.cal == .hkWait then .offset else m.cal, hkWarm := 0 }
  if s.meas.hkCal != .wait then s
  else if s.calRuns || !s.on 3 then s.onMeas fun m => { m with hkCal := .none }
  else (s.put F.MEAS_STAT.HK_CAL_BUSY 1).onMeas fun m => { m with hkCal := .run }

/-- HK_ENTRY_END: the entry in progress ends with a value (R72, R73, R75, R76). With D3 off only an entry begun before the
switch-off still ends (R32). The scan runs whatever ARRAY_EN is; only triggers that fired count for REFCOLD.
(DESIGN CHOICE, log entry 76.) -/
def entryEnd (value : Nat) (s : State) : State :=
  if !(s.on 3 || s.meas.injRun.isSome || s.meas.roundEnds) then s
  else match s.meas.injRun with
    | some ch =>
      let w := s.hkWord ch value true
      let s := ((hkWrite ch value true s).setReg A.MEAS_HK_INJR w).raise F.MEAS_EVT.INJ_DONE
      injOver ((s.put F.MEAS_STAT.INJ_PEND 0).onMeas fun m => { m with injRun := none })
    | none =>
      if s.hkHeld then s
      else match s.meas.round with
        | some (ch :: rest) =>
          let s := (hkWrite ch value false s).put F.MEAS_STAT.HK_ENTRY ch
          let ends := s.meas.roundEnds
          let s := s.onMeas fun m => { m with round := some rest, hkWarm := 0 }
          if ends || rest.isEmpty then roundOver ends s else s
        | _ => s

/-- A write of MEAS_HK_INJ (R74). A refused request leaves CH as it was.
(DESIGN CHOICE, log entry 76.) -/
def wrHkInj (v : Word) (s : State) : State :=
  let go := F.MEAS_HK_INJ.GO.read v == 1
  let ch := F.MEAS_HK_INJ.CH.read v
  if go && (s.meas.injWait.isSome || s.meas.injRun.isSome) then s.raise F.MEAS_EVT.INJ_BUSY
  else
    let s := s.put F.MEAS_HK_INJ.CH ch
    if go then (s.put F.MEAS_STAT.INJ_PEND 1).onMeas fun m => { m with injWait := some ch } else s

/-- A round is cut short: the entry in conversion completes and the rest is discarded (R32, R76); where no entry is in
conversion, since the scan is held, the round ends at once with its abort tag.
(DESIGN CHOICE, log entry 76.) -/
def roundCut (held : Bool) (s : State) : State :=
  if s.meas.round.isNone then s
  else
    let s := s.onMeas fun m => { m with roundEnds := true, roundDue := false }
    if held then roundOver true s else s

/-- HK_EN cleared (R76). -/
def hkOff (s : State) : State := roundCut s.hkHeld (s.put F.MEAS_CTRL.HK_EN 0)

/-- D3 is about to switch off: the scan is disabled under R32, HK_EN keeps its value (R409); a round interrupted by a
self-calibration waits for the domains (R51). -/
def hkDomainOff (s : State) : State :=
  if s.calRuns || s.meas.calCut then calAbort 3 s else calAbort 3 (roundCut s.hkHeld s)

/-- D2 or D3 has switched on: with both on, the scan goes on (R51). -/
def banksBack (s : State) : State := if s.banks then s.onMeas fun m => { m with calCut := false } else s

/-- A write of MEAS_CTRL. -/
def wrMeasCtrl (v : Word) (s : State) : State :=
  let s := if F.MEAS_CTRL.ARRAY_EN.read v == 1 then s.put F.MEAS_CTRL.ARRAY_EN 1 else arrayOff s
  if F.MEAS_CTRL.HK_EN.read v == 1 then s.put F.MEAS_CTRL.HK_EN 1
  else if s.bit F.MEAS_CTRL.HK_EN then hkOff s else s

/-! ### Open-wire test (R77 to R80) -/

/-- The even-numbered, or the odd-numbered, pins of a selection. -/
def pinsOf (sel : BitVec 25) (odd : Bool) : BitVec 25 := sel &&& (if odd then 0x0AAAAAA else 0x1555555)

/-- The test ends (R79). -/
def owFinish (s : State) : State :=
  let o := s.ow
  let s := ((s.setReg A.MEAS_OW_RES (o.opens.setWidth 32)).raise F.MEAS_EVT.OW_DONE).put F.MEAS_STAT.OW_BUSY 0
  let s := (s.raiseIf (o.opens != 0) F.MEAS_EVT.OW_OPEN).raiseIf (o.unjudged != 0) F.MEAS_EVT.OW_PARTIAL
  s.onOw fun o => { o with step := .none }

/-- A pass begins: balancing is withheld (R78, R135, R187). -/
def owPass (odd : Bool) (s : State) : State :=
  balHold (fbWithhold (s.onOw fun o => { o with step := .before, odd := odd, pins := pinsOf o.sel odd }))

/-- The first pass with a selected pin begins, or the test ends (R77). -/
def owGo (s : State) : State :=
  if pinsOf s.ow.sel false != 0 then owPass false s
  else if pinsOf s.ow.sel true != 0 then owPass true s
  else owFinish s

/-- A write of MEAS_OW_CTRL (R77). A refused start leaves PINS as it was.
(DEDUCED, log entry 64; DESIGN CHOICE, log entry 76.) -/
def wrOwCtrl (v : Word) (s : State) : State :=
  if F.MEAS_OW_CTRL.GO.read v == 1 && (s.owRuns || !s.bit F.MEAS_CTRL.ARRAY_EN) then s.raise F.MEAS_EVT.OW_DONE
  else
    let s := s.put F.MEAS_OW_CTRL.PINS (F.MEAS_OW_CTRL.PINS.read v)
    if F.MEAS_OW_CTRL.GO.read v == 1 then
      let sel := BitVec.ofNat 25 (F.MEAS_OW_CTRL.PINS.read v)
      owGo ((s.put F.MEAS_STAT.OW_BUSY 1).onOw fun o => 
        { o with sel := sel, opens := 0, unjudged := 0, thr := s.get F.MEAS_OW_CFG.THR })
    else s

/-- A write of MEAS_OW_CFG: THR 0 stores 1. -/
def wrOwCfg (v : Word) (s : State) : State :=
  (s.put F.MEAS_OW_CFG.DUR (F.MEAS_OW_CFG.DUR.read v)).put F.MEAS_OW_CFG.THR (max 1 (F.MEAS_OW_CFG.THR.read v))

/-- OW_SINKS_ON (R78, R80). -/
def sinksOn (s : State) : State :=
  if s.ow.step == .before then
    s.onOw fun o => { o with step := .sinks, ref := s.meas.hist, refLive := true, tagged := o.pins }
  else s

/-- OW_SINKS_OFF (R78). -/
def sinksOff (s : State) : State :=
  if s.ow.step == .sinks then s.onOw fun o => { o with step := .after, test := s.meas.hist, testLive := true } else s

/-- The sum of sixteen codes, where a sample came at every trigger. -/
def sum16 (xs : List (Option Nat)) : Option Int :=
  if xs.length == 16 && xs.all (·.isSome) then some ((xs.map fun x => (x.getD 0 : Int)).sum) else none

/-- By how much a judged cell fell, in 0.1 mV (R79): 16 codes of 1.6 mV have a mean of 0.1 mV for each unit of their sum. -/
def State.cellFall (s : State) (n : Nat) : Option Int :=
  match sum16 (s.ow.ref.getD n []), sum16 (s.ow.test.getD n []) with
  | some a, some b => some (a - b)
  | _, _ => none

/-- The judged neighbours of a pin: cell n − 1 with its fall, cell n with its rise (R79). -/
def State.pinMoves (s : State) (n : Nat) : List Int :=
  (if n == 0 then [] else (s.cellFall (n - 1)).toList) ++
  (if n == 24 then [] else (s.cellFall n).toList.map fun x => -x)

/-- OW_PASS_END: the pass's pins are judged; the next pass begins or the test ends (R78, R79, R80). THR is that of the
test's start (R19).
(DEDUCED, log entry 76.) -/
def owPassOver (s : State) : State :=
  if s.ow.step != .after then s
  else
    let thr : Int := 20 * s.ow.thr
    let mine := (List.range 25).filter fun n => s.ow.pins.getLsbD n
    let opens := (bitsWord 25 fun n => mine.contains n && (s.pinMoves n).any fun d => decide (thr < d)).setWidth 25
    let blind := (bitsWord 25 fun n => mine.contains n && (s.pinMoves n).isEmpty).setWidth 25
    let s := s.onOw fun o => { o with opens := o.opens ||| opens, unjudged := o.unjudged ||| blind, tagged := 0 }
    let s := if !s.ow.odd && pinsOf s.ow.sel true != 0 then owPass true s else owFinish s
    if s.owRuns then s else balHold (if s.bit F.BAL_STAT.PAUSE then s else fbRelease s)

/-! ### Snapshot and factors -/

/-- A write of MEAS_SNAP (R82). GO between a captured trigger and the end of its conversions gives up the first capture.
(DESIGN CHOICE, log entry 76.) -/
def wrSnap (v : Word) (s : State) : State :=
  if F.MEAS_SNAP.GO.read v == 1 && !s.meas.snapArmed then
    (s.put F.MEAS_SNAP.DONE 0).onMeas fun m => { m with snapArmed := true, snapLeft := 0 }
  else s

/-- Channel of the HK entry in progress, or of the last one (R83). -/
def State.hkEntry (s : State) : Nat :=
  match s.meas.injRun, s.meas.round with
  | some ch, _ => ch
  | none, some (ch :: _) => if s.hkHeld then s.get F.MEAS_STAT.HK_ENTRY else ch
  | none, _ => s.get F.MEAS_STAT.HK_ENTRY

/-- MEAS_STAT as it reads: banks, SYNC, the HK entry and HK's calibration follow (R42, R83). MEAS_HKn.CH and
MEAS_RAWTRV.CONV read their reset value 0 until the first result or capture.
(DESIGN CHOICE, log entry 76.) -/
def State.measStatView (s : State) : Word :=
  F.MEAS_STAT.HK_CAL_BUSY.write (F.MEAS_STAT.HK_ENTRY.write (F.MEAS_STAT.BANKA_ON.write (F.MEAS_STAT.BANKB_ON.write
    (F.MEAS_STAT.SYNC.write (s.reg A.MEAS_STAT) s.sync.toNat) (s.on 3).toNat) (s.on 2).toNat) s.hkEntry)
    s.hkCalRuns.toNat

end Sys2Proof.Machine
end

