-- ==== Sys2Proof/Machine/Net.lean ====
section
/-! DEFINITION. The network layer below the endpoint requests (spec/07_chain_link.md, R210 to R228;
spec/08_chain_network.md, R231 to R250): reception of frames, link states, link loss, topology, the head's search, and
chain time. The commands stand in Machine/Ports.lean and Machine/Network.lean. -/

namespace Sys2Proof.Machine

/-! ### Identity -/

/-- A word of the OTP shadow (R431). -/
def State.otpWord (s : State) (a : Nat) : Word := Sparse.get (fun _ => 0) s.tru.shadow a

/-- The device's factory number: words 1 and 2 of region 0, bits 63:32 in word 1 (R426). -/
def State.factoryH (s : State) : Word := s.otpWord 1
def State.factoryL (s : State) : Word := s.otpWord 2

/-- The eight bytes of a factory number, byte 0 in bits 63:56 (R237). -/
def fnumBytes (h l : Word) : List Nat := ((wordBytes h).reverse ++ (wordBytes l).reverse).map BitVec.toNat

/-- The two words eight bytes of a factory number spell. -/
def fnumWords (bs : List Nat) : Word × Word :=
  let w := fun (xs : List Nat) => Word.ofNat (xs.foldl (fun n b => n * 256 + b) 0)
  (w (padTo 0 4 bs), w (padTo 0 4 (bs.drop 4)))

/-- The device's factory number as its bytes. -/
def State.factory (s : State) : List Nat := fnumBytes s.factoryH s.factoryL

/-- Slot `n`'s bit of a pair of slot registers (R265). -/
def slotReg (l h n : Nat) : Nat := if Nat.blt n 32 then l else h
def State.slotBit (s : State) (l h n : Nat) : Bool := s.rbit (slotReg l h n) (n % 32)
def putSlot (l h n : Nat) (b : Bool) (s : State) : State := s.putBit (slotReg l h n) (n % 32) b

/-- Slot `n` is assigned; it is lost (R236, R241). -/
def State.assigned (s : State) (n : Nat) : Bool := s.slotBit A.CHN_ASGL A.CHN_ASGH n
def State.lost (s : State) (n : Nat) : Bool := s.slotBit A.CHN_LOSTL A.CHN_LOSTH n

/-! ### Reception (R219 to R226) -/

/-- A frame's own fields make it a format case of R221: LEN, SRC or DST, a TYP reserved for its class, or a payload that
is not LEN bytes long. -/
def frameMalformed (f : Frame) : Bool :=
  let slotOk := fun n => Nat.blt n 64 || n == 0x7F
  !f.formOk || Nat.blt 256 f.len || !slotOk f.src || !slotOk f.dst || f.payload.length != (f.len + 3) / 4 ||
  match f.cls with
  | 0 =>
    if f.typ == 0 then f.len != 4 else if f.typ == 1 then f.len != 16
    else if f.typ == 2 then Nat.blt 32 f.len
    else Nat.blt f.typ 8 || (Nat.blt 11 f.typ && f.typ != 0x10)
  | 1 => Nat.blt 5 (f.typ % 32)
  | _ => false

/-- The part discards a frame, or meets a code violation outside one, and counts it (R221); FMT_ERR tells of a frame
alone (R230). -/
def frameDiscard (p : Port) (why : DiscardWhy) (s : State) : State :=
  let run := fun (s : State) => s.onPort p fun q => { q with discards := q.discards + 1 }
  match why with
  | .crc => run ((s.bump (F.CHN_P_ERR.CRC p.idx) 1).raise (F.CHN_P_EVT.CRC_ERR p.idx))
  | .fmt => run ((s.bump (F.CHN_P_ERR.FMT p.idx) 1).raise (F.CHN_P_EVT.FMT_ERR p.idx))
  | .violation => s.bump (F.CHN_P_ERR.FMT p.idx) 1

/-- The counter field of a class (R230). -/
def countField (p : Port) : Nat → Fld
  | 0 => F.CHN_P_CNT.C0 p.idx
  | 1 => F.CHN_P_CNT.C1 p.idx
  | 2 => F.CHN_P_CNT.C2 p.idx
  | _ => F.CHN_P_CNT.C3 p.idx

/-- A good frame returns counters: (CRDk − last CRDk) mod 16 per class (R222). -/
def takeCredits (p : Port) (f : Frame) (s : State) : State :=
  let last := (s.port p).lastCrd
  let s := s.each [0, 1, 2, 3] fun k s => s.bump (countField p k) ((f.crd.getD k 0 % 16 + 16 - last.getD k 0) % 16)
  s.onPort p fun q => { q with lastCrd := [0, 1, 2, 3].map fun k => f.crd.getD k 0 % 16 }

/-- ACK value `a` covers a frame sent with SEQ `n`: it is not ahead of `a` (R224). -/
def covered (a n : BitVec 8) : Bool := Nat.blt (a - n).toNat 128

/-- A good frame's ACK frees the reliable frames it covers; an advance restarts the count of expiries (R225). -/
def takeAck (p : Port) (a : Nat) (s : State) : State :=
  s.onPort p fun q =>
    let gone := fun (t : TxFrame) => isReliable t.frame && t.stage != .new &&
      covered (BitVec.ofNat 8 a) (BitVec.ofNat 8 t.frame.seq)
    if q.tx.any gone then { q with tx := (q.tx.filter fun t => !gone t).map fun t => { t with expiries := 0 } } else q

/-- A frame that passes R221 is counted, and its GST noted. -/
def frameCount (p : Port) (f : Frame) (s : State) : State :=
  (s.bump (F.CHN_P_FRX.COUNT p.idx) 1).put (F.CHN_P_STAT.NGST p.idx) f.gst

/-- What every frame that passes R221 does on its port in UP. -/
def goodFrame (p : Port) (f : Frame) (s : State) : State :=
  let s := frameCount p f s
  takeAck p f.ack (takeCredits p f (s.onPort p fun q => { q with discards := 0 }))

/-- STREAM (class 2) or BULK (class 3) frames are missing: counted, released and flagged (R226). -/
def frameGap (p : Port) (k n : Nat) (s : State) : State :=
  if n == 0 then s
  else
    let fld := if k == 2 then F.CHN_P_GAP.STREAM p.idx else F.CHN_P_GAP.BULK p.idx
    ((s.bump fld n).raise (F.CHN_P_EVT.GAP p.idx)).onPort p fun q => q.releaseN k n

/-- The class's expected SEQ advances to `n`, and the frames passed over are missing (R226). -/
def seqAdvance (p : Port) (k : Nat) (n : BitVec 8) (s : State) : State :=
  let q := s.port p
  let old := if k == 2 then q.rxStream else q.rxBulk
  let s := frameGap p k (n - old).toNat s
  s.onPort p fun q => if k == 2 then { q with rxStream := n } else { q with rxBulk := n }

/-- A buffer of a frame's class is released in a port's receive room. -/
def freeBuffer (p : Port) (f : Frame) (s : State) : State := s.onPort p fun q => q.release f.cls

/-- A frame stays in its receive room until it has been copied into a transmit room, or as a request for this device been
answered (R22, R222). -/
def keepFrame (p : Port) (f : Frame) (dest : Option Port) (s : State) : State :=
  s.onPort p fun q => { q with rx := q.rx ++ [⟨f, dest⟩] }

/-- The port a waiting frame leaves by now: a unicast frame takes its route as it is (R234), any other its port while that
is UP. -/
def State.leaves (s : State) (p : Port) (x : RxFrame) (dest : Port) : Option Port :=
  if x.frame.dst != 0x7F then s.route x.frame.dst (some p) else if s.portUp dest then some dest else none

/-- One waiting frame of a receive room: it is copied, and its buffer counted as released, once the transmit room has a
buffer; with no port left to leave by it is discarded (R222, R234). -/
def rxMove (p : Port) (x : RxFrame) (s : State) : State :=
  match x.dest with
  | none => keepFrame p x.frame none s
  | some dest =>
    match s.leaves p x dest with
    | none => freeBuffer p x.frame (if x.frame.dst != 0x7F then noRoute s else s)
    | some q => if (s.port q).hasRoom x.frame then freeBuffer p x.frame (enqueue q x.frame s) else keepFrame p x.frame x.dest s

/-- Accepted frames of a receive room move into transmit rooms while these have buffers (R222). -/
def pumpRx (p : Port) (s : State) : State :=
  (s.onPort p fun q => { q with rx := [] }).each (s.port p).rx (rxMove p)

/-- An accepted frame waits to be copied into a transmit room, and is copied once that has a buffer. -/
def passOn (p : Port) (f : Frame) (dest : Port) (s : State) : State := pumpRx p (keepFrame p f (some dest) s)

/-- A frame is for this device: it holds the slot DST names (R217). -/
def State.mine (s : State) (f : Frame) : Bool := s.bit F.CHN_NET_STAT.SLOTV && f.dst == s.get F.CHN_NET_STAT.SLOT

/-- A frame is judged under R221 in ALIGN and UP; one that passes is counted (R230), and in UP goes on to `body`. -/
def judgeFrame (p : Port) (f : Frame) (body : State → State) (s : State) : State :=
  if Nat.blt (s.linkState p) 3 then s
  else if !f.crcOk then frameDiscard p .crc s
  else if frameMalformed f then frameDiscard p .fmt s
  else if s.portUp p then body s
  else frameCount p f s

/-- A routed frame received in UP: it is discarded under R221; or counted, and discarded out of order under R224; or
accepted. For this device or for every device it is delivered, and `deliver` sees to its buffer; for another it takes its
route (R234). An uncorrectable error in its buffer discards it there (R373). -/
def receive (p : Port) (f : Frame) (deliver : State → State) (s : State) : State :=
  judgeFrame p f (fun s =>
    let s := goodFrame p f s
    let accepted := fun (s : State) =>
      sramSees .rooms f.ecc.room (freeBuffer p f) (fun s =>
      if f.dst == 0x7F || s.mine f then deliver s
      else match s.route f.dst (some p) with
        | some q => passOn p f q s
        | none => freeBuffer p f (noRoute s)) s
    if Nat.blt f.cls 2 then
      if BitVec.ofNat 8 f.seq == (s.port p).rxSeq then
        accepted (s.onPort p fun q => { q with rxSeq := q.rxSeq + 1, ackWaits := true })
      else s.bump (F.CHN_P_DISC.DUP p.idx) 1
    else
      let s := seqAdvance p f.cls (BitVec.ofNat 8 f.seq) s
      accepted (s.onPort p fun q =>
        if f.cls == 2 then { q with rxStream := q.rxStream + 1 } else { q with rxBulk := q.rxBulk + 1 })) s

/-- A broadcast that is not this device's own goes on out of the opposite port where that is UP (R235); its buffer is
released once the copy has been made. -/
def passBroadcast (p : Port) (f : Frame) (own : Bool) (s : State) : State :=
  if own || !s.portUp p.opp then freeBuffer p f s else passOn p f p.opp s

/-! ### Time port and lock (R244 to R248) -/

/-- The time port: the port this device routes slot 0 through, none in the head (R244). -/
def State.timePort (s : State) : Option Port := if s.net.headNow then none else s.route 0 none

/-- LOCK of a member changes: its event is set, and the trigger's alignment follows (R248, R42). -/
def setLock (b : Bool) (s : State) : State :=
  if s.net.headNow || s.bit F.CHN_TIME_STAT.LOCK == b then s
  else alignUpdate ((s.putB F.CHN_TIME_STAT.LOCK b).raise (if b then F.CHN_NET_EVT.LOCK else F.CHN_NET_EVT.UNLOCK))

/-- LOCK of a member clears, and the runs that lead to its changes start anew. -/
def dropLock (s : State) : State :=
  let s := setLock false s
  { s with net := { s.net with lockRun := 0, unlockRun := 0 } }

/-- An LNK_RTT request leaves the time port (R245).
(DESIGN CHOICE, log entry 18.) -/
def rttSend (p : Port) (s : State) : State :=
  let frac := Config.txFrac s.free % 256
  let s := s.draw
  let now := s.timeNow
  let f := s.newFrame 0 2 0x7F 0 8 [Word.ofNat frac, now.extractLsb' 32 32]
  sendLine p f { s with net := { s.net with rttSent := some (p, now.toNat * 256 + frac) } }

/-- TPORT's code of a time port. -/
def tportCode : Option Port → Nat
  | none => 0
  | some .north => 1
  | some .south => 2

/-- The time port follows the routes: a change clears LOCK and starts an exchange on the new port (R244, R245, R248). -/
def timePortCheck (s : State) : State :=
  let tp := s.timePort
  if s.net.headNow || s.get F.CHN_TIME_STAT.TPORT == tportCode tp then s
  else
    let s := dropLock (s.put F.CHN_TIME_STAT.TPORT (tportCode tp))
    match tp with
    | some p => rttSend p s
    | none => s

/-! ### Routes in use -/

/-- A topology generation comes into use (R236, R238). -/
def setGen (n : Nat) (s : State) : State :=
  if s.get F.CHN_NET_STAT.GEN == n % 16 then s else (s.put F.CHN_NET_STAT.GEN n).raise F.CHN_NET_EVT.TOPO

/-- The byte of a NET_ROUTE table at an index: byte i in word i / 4 (R237). -/
def tableByte (ws : List Word) (i : Nat) : Byte := (ws.getD (i / 4) 0).extractLsb' (8 * (i % 4)) 8

/-- The 64 bytes of a table as its sixteen words. -/
def tableWords (bs : List Byte) : List Word := bytesWords (padTo 0xFF 64 bs)

/-- D, BRK, BRKV and the positions come into use at once (R238). -/
def setRoutes (d : Nat) (brkv : Bool) (brk : Nat) (table : List Word) (s : State) : State :=
  let s := ((s.put F.CHN_NET_STAT.D d).putB F.CHN_NET_STAT.BRKV brkv).put F.CHN_NET_STAT.BRK brk
  let s := s.each (List.range 16) fun k s => s.setReg (A.CHN_POS k) (table.getD k 0xFFFFFFFF)
  if s.bit F.CHN_NET_STAT.SLOTV then
    let q := s.pos (s.get F.CHN_NET_STAT.SLOT)
    if q == 0xFF then s else s.put F.CHN_NET_STAT.POS q
  else s

/-- A broken link is known at position `b` (R236). -/
def recordBreak (b : Nat) (s : State) : State := (s.put F.CHN_NET_STAT.BRK b).raise F.CHN_NET_STAT.BRKV

/-- The link that position `q`'s port belongs to: South b = q, North b = q − 1 mod D (R233). -/
def State.linkAt (s : State) (q : Nat) (south : Bool) : Nat :=
  let d := s.get F.CHN_NET_STAT.D
  if south then q else if d == 0 then 0 else (q + d - 1) % d

/-! ### The head (R236 to R243) -/

/-- The payload of NET_ROUTE from this head's registers: KIND, D, BRKV, BRK, B, NB, ACT, and a table (R237). -/
def State.routePayload (s : State) (kind : Nat) (table : List Word) : List Word :=
  let w0 := Word.ofNat (kind * 0x800000 + s.get F.CHN_NET_STAT.D * 0x10000 +
    s.get F.CHN_NET_STAT.BRKV * 0x8000 + s.get F.CHN_NET_STAT.BRK * 0x100)
  w0 :: [s.reg A.CHN_EPOCH_BH, s.reg A.CHN_EPOCH_BL, s.reg A.CHN_EPOCH_NBH, s.reg A.CHN_EPOCH_NBL,
    s.reg A.CHN_EPOCH_ACTH, s.reg A.CHN_EPOCH_ACTL] ++ table

/-- A network frame leaves the head by every port in UP; its copies are awaited (R238). -/
def headSend (step : HeadStep) (typ len : Nat) (payload : List Word) (s : State) : State :=
  let ports := [Port.north, .south].filter s.portUp
  let f := s.newFrame 0 typ 0x7F 0 len payload
  let s := s.each ports fun p s => offer p f s
  { s with net := { s.net with search := { s.net.search with
      step := step, copies := ports.length, sentGen := s.get F.CHN_NET_STAT.GEN, pres := BitVec.allOnes 256, tableS := none, tableN := none } } }

/-- The prefix of a NET_SEARCH as its two words. -/
def prefixWords (pre : List Nat) : Word × Word := fnumWords (padTo 0 8 pre)

/-- A step of the search: NET_SEARCH with a prefix (R240). -/
def sendSearch (pre : List Nat) (s : State) : State :=
  let w := prefixWords pre
  let ones : List Word := List.replicate 8 0xFFFFFFFF
  let s := { s with net := { s.net with search := { s.net.search with prefixNow := pre } } }
  headSend .search 0x08 44 (Word.ofNat (pre.length * 0x10000) :: w.1 :: w.2 :: ones) s

/-- NET_ASSIGN of a slot to a factory number (R241). -/
def sendAssign (slot : Nat) (fnum : List Nat) (s : State) : State :=
  let w := fnumWords fnum
  headSend .assign 0x09 12 [Word.ofNat (slot * 0x10000), w.1, w.2] s

/-- The survey (R238): every byte of the table 0xFF. -/
def sendSurvey (s : State) : State :=
  headSend .survey 0x0A 92 (s.routePayload 0 (List.replicate 16 0xFFFFFFFF)) s

/-- The set (R238): the positions this head holds, and its base schedule. -/
def sendSet (s : State) : State :=
  let s := { s with net := { s.net with search := { s.net.search with again := false } } }
  headSend .route 0x0A 92 (s.routePayload 1 ((List.range 16).map fun k => s.reg (A.CHN_POS k))) s

/-- The slot a found factory number gets (R241). -/
def State.slotFor (s : State) (fnum : List Nat) : Option Nat :=
  let w := fnumWords fnum
  let bound := fun n => s.reg (A.CHN_BIND_H n) == w.1 && s.reg (A.CHN_BIND_L n) == w.2
  let held := fun n => s.reg (A.CHN_SLOTF_H n) == w.1 && s.reg (A.CHN_SLOTF_L n) == w.2
  let empty := fun n => s.reg (A.CHN_BIND_H n) == 0 && s.reg (A.CHN_BIND_L n) == 0 &&
    s.reg (A.CHN_SLOTF_H n) == 0 && s.reg (A.CHN_SLOTF_L n) == 0 && !s.assigned n
  let slots := (List.range 64).drop 1
  match slots.find? bound with
  | some n => some n
  | none => match slots.find? held with
    | some n => some n
    | none => slots.find? empty

/-- The smaller of two factory numbers, by bytes. -/
def fnumLess : List Nat → List Nat → Bool
  | a :: as, b :: bs => Nat.blt a b || (a == b && fnumLess as bs)
  | _, _ => false

/-- The smallest factory number of a list, with the others. -/
def popSmallest : List (List Nat) → Option (List Nat × List (List Nat))
  | [] => none
  | x :: xs => match popSmallest xs with
    | none => some (x, [])
    | some (y, ys) => if fnumLess x y then some (x, y :: ys) else some (y, x :: ys)

/-- A slot becomes reachable or unreachable, as the positions in use show (R236). -/
def markLost (s : State) : State :=
  s.each ((List.range 64).drop 1) fun n s =>
    if s.assigned n && s.pos n == 0xFF && !s.lost n then
      (putSlot A.CHN_LOSTL A.CHN_LOSTH n true s).raise F.CHN_NET_EVT.LOST
    else if s.pos n != 0xFF && s.lost n then
      (putSlot A.CHN_LOSTL A.CHN_LOSTH n false s).raise F.CHN_NET_EVT.FOUND
    else s

/-- The positions a survey gives: index h of the South copy is position h + 1, of the North copy D − (h + 1); the South
copy decides (R238). -/
def surveyTable (d : Nat) (south north : List Byte) : List Byte :=
  let place := fun (t : List Byte) (x : Byte × Nat) =>
    if Nat.blt x.1.toNat 64 then t.set x.1.toNat (BitVec.ofNat 8 x.2) else t
  let t := (List.replicate 64 (0xFF : Byte)).set 0 0
  let t := (north.zipIdx.map fun x => (x.1, d - (x.2 + 1))).foldl place t
  (south.zipIdx.map fun x => (x.1, x.2 + 1)).foldl place t

/-- What a survey found comes into use in the head: in a ring the South copy has passed every device; in an open chain
the break follows the last device of the South side (R233, R238). -/
def surveyApply (s : State) : State :=
  let side := fun (o : Option (List Byte × Nat)) => match o with | some (t, h) => t.take h | none => []
  let x := s.net.search
  let ss := side x.tableS
  let nn := side x.tableN
  let d := if x.ring then ss.length + 1 else ss.length + nn.length + 1
  let s := setRoutes d (!x.ring) (if x.ring then 0 else ss.length) (tableWords (surveyTable d ss nn)) s
  timePortCheck (markLost s)

/-- The prefixes and factory numbers a completed search step adds (R240): the bytes whose PRES bit is 0. -/
def searchPush (x : SearchSt) : SearchSt :=
  let next := ((List.range 256).filter fun v => !x.pres.getLsbD v).map fun v => x.prefixNow ++ [v]
  if x.prefixNow.length == 7 then { x with found := next ++ x.found } else { x with stack := next ++ x.stack }

/-- The search state changed. -/
def State.onSearch (s : State) (f : SearchSt → SearchSt) : State :=
  { s with net := { s.net with search := f s.net.search } }

/-- The head's next step (R240): the smallest found number gets its slot; else the next prefix is searched; else the
survey follows. -/
def headNext (s : State) : State :=
  match popSmallest s.net.search.found with
  | some (f, fs) =>
    let s := s.onSearch fun x => { x with found := fs }
    match s.slotFor f with
    | some n => sendAssign n f s
    | none => (s.onSearch fun x => { x with step := .assign, copies := 0 }).raise F.CHN_NET_EVT.NOSLOT
  | none =>
    match s.net.search.stack with
    | p :: ps => sendSearch p (s.onSearch fun x => { x with stack := ps })
    | [] => sendSurvey s

/-- Search, survey and set have ended (R240). -/
def headOver (s : State) : State :=
  let full := s.net.search.full
  let s := s.onSearch fun x => { x with step := .idle, full := false, past := [] }
  if full then (s.put F.CHN_NET_STAT.SRCH_BUSY 0).raise F.CHN_NET_EVT.SRCH_DONE else s

/-- A step of the head is complete (R238, R240). -/
def stepOver1 (s : State) : State :=
  match s.net.search.step with
  | .idle => s
  | .search => headNext (s.onSearch searchPush)
  | .assign => headNext s
  | .survey => sendSet (surveyApply s)
  | .route => if s.net.search.again then sendSet s else headOver s

/-- Steps complete one after the other while no copy is awaited.
(DEDUCED, log entry 49.) -/
def headRun : Nat → State → State
  | 0, s => s
  | fuel + 1, s =>
    if s.net.search.step != .idle && s.net.search.copies == 0 then headRun fuel (stepOver1 s) else s

/-- More steps than can complete one after the other without a copy being awaited. -/
def headFuel : Nat := 600

/-- The head's work begins: a search from the empty prefix, or a survey and a set alone (R240, R236). -/
def headBegin (full : Bool) (s : State) : State :=
  let x := s.net.search
  let left := x.step == .search && x.copies != 0
  let past := if left then ((x.sentGen, x.prefixNow, x.copies) :: x.past).take 16 else x.past
  let s := s.onSearch fun _ => { (default : SearchSt) with full := full, past := past }
  let s := if full then sendSearch [] (s.raise F.CHN_NET_STAT.SRCH_BUSY) else sendSurvey s
  headRun headFuel s

/-- A search that is under way restarts (R243); a survey or set that is under way starts anew. -/
def headRestart (full : Bool) (s : State) : State :=
  let was := s.net.search.full
  headBegin (was || full) (s.raiseIf was F.CHN_NET_EVT.SRCH_RESTART)

/-- The head learns of a broken link (R236). A second break between positions leaves those beyond the two without a way:
their positions become 0xFF (R233). BRK holds the new one. -/
def headBreak (b : Nat) (s : State) : State :=
  if s.bit F.CHN_NET_STAT.BRKV && s.get F.CHN_NET_STAT.BRK != b then
    let lo := min b (s.get F.CHN_NET_STAT.BRK)
    let hi := max b (s.get F.CHN_NET_STAT.BRK)
    let cut := fun (n : Nat) => let q := s.pos n; if Nat.blt lo q && Nat.ble q hi then 0xFF else q
    let table := tableWords ((List.range 64).map fun n => BitVec.ofNat 8 (cut n))
    markLost (setRoutes (s.get F.CHN_NET_STAT.D) true b table s)
  else recordBreak b s

/-- A topology change at the head (R236, R243): GEN advances; a search restarts; otherwise a loss is followed by a set,
and a link that came up by a search where AUTO is 1, a survey and a set. -/
def headChange (up : Bool) (s : State) : State :=
  let s := setGen (s.get F.CHN_NET_STAT.GEN + 1) s
  let auto := up && s.bit F.CHN_NET_CTRL.AUTO
  if s.net.search.step != .idle then headRestart auto s
  else if up then headBegin auto s
  else headRun headFuel (sendSet s)

/-! ### Link states (R210 to R213, R227, R228, R236) -/

/-- The NET_LINK broadcast of a port that entered or left UP (R236). -/
def sendNetLink (p : Port) (up : Bool) (s : State) : State :=
  let w0 := Word.ofNat (up.toNat * 2 ^ 31 + p.idx * 2 ^ 30 + s.get (F.CHN_P_STAT.LCAUSE p.idx) * 2 ^ 16)
  broadcast (s.newFrame 0 0x0B 0x7F 0 12 [w0, s.factoryH, s.factoryL]) s

/-- A port of this device entered or left UP: NET_LINK is broadcast, an own break is known at once, the head acts, and
the time port follows (R236, R243, R244). -/
def linkChanged (p : Port) (up : Bool) (s : State) : State :=
  let s := sendNetLink p up s
  let known := s.bit F.CHN_NET_STAT.SLOTV && s.pos (s.get F.CHN_NET_STAT.SLOT) != 0xFF
  let b := s.linkAt (s.get F.CHN_NET_STAT.POS) (p == .south)
  let s := if up || !known then s else if s.net.headNow then headBreak b s else recordBreak b s
  timePortCheck (if s.net.headNow then headChange up s else s)

/-- A port enters a state. -/
def linkTo (p : Port) (st : Nat) (s : State) : State := s.put (F.CHN_P_STAT.STATE p.idx) st

/-- A port in SILENT with EN = 1, TONE = 1 and the silence time over sends its wake tone (R211). -/
def linkLeave (p : Port) (s : State) : State :=
  if s.on (portDomain p) && s.linkState p == 0 && s.bit (F.CHN_P_CTRL.EN p.idx) &&
      s.bit (F.CHN_P_CTRL.TONE p.idx) && !(s.port p).quiet then linkTo p 1 s
  else s

/-- A port enters TRAIN (R211): the blocks of R212 count afresh; a receiver still RX_OK stays so.
(DESIGN CHOICE, log entry 48.) -/
def linkTrain (p : Port) (s : State) : State := (linkTo p 2 s).onPort p fun q => { q with goodBlocks := 0 }

/-- A port falls silent (R211, R228). The receiver stays RX_OK until it loses lock (R212). Whether a signal is on the line
shows from LOCK_LOSS and the training blocks alone.
(DESIGN CHOICE, log entry 48.) -/
def linkSilent (p : Port) (quiet : Bool) (s : State) : State :=
  (linkTo p 0 s).onPort p fun q => { q with
    quiet := quiet, goodBlocks := 0, heard := false, peerHeard := false, sentHeard := false, line := none }

/-- Training or alignment has failed (R211). -/
def trainFail (p : Port) (s : State) : State := (linkSilent p true s).raise (F.CHN_P_EVT.TRAIN_FAIL p.idx)

/-- A port enters UP (R213, R222, R223, R236, R245). -/
def linkUp (p : Port) (s : State) : State :=
  let s := ((linkTo p 4 s).raise (F.CHN_P_EVT.UP p.idx)).setReg (A.CHN_P_CNT p.idx) 0
  let was := s.get F.CHN_TIME_STAT.TPORT
  let s := linkChanged p true (s.onPort p PortSt.enterUp)
  if s.timePort == some p && was == tportCode (some p) then rttSend p s else s

/-- Frames handed to the network layer move from the transmit room of a port that is not UP into the other's while that
has buffers (R228). -/
def pumpHanded (p : Port) (s : State) : State :=
  let step := fun (acc : PortSt × PortSt) (t : TxFrame) =>
    if acc.2.hasRoom t.frame then (acc.1, { acc.2 with tx := acc.2.tx ++ [t] })
    else ({ acc.1 with tx := acc.1.tx ++ [t] }, acc.2)
  if s.portUp p || !s.portUp p.opp then s
  else
    let q := s.port p
    let r := q.tx.foldl step ({ q with tx := [] }, s.port p.opp)
    (s.setPort p r.1).setPort p.opp r.2

/-- Steps 2 to 5 of R228: reliable frames go to the other port where that is UP, and stand in the lost port's room until
they have a buffer there; the others are dropped and counted, the counters fall to 0, and the loss is counted and, of a
port that was UP, reported to the chain. -/
def linkDown (p : Port) (cause : Nat) (s : State) : State :=
  let q := s.port p
  let up := s.portUp p
  let other := p.opp
  let goes := s.portUp other
  let keep : List TxFrame :=
    if goes then (q.tx.filter fun t => isReliable t.frame).map fun t => ⟨{ t.frame with seq := 0 }, .new, 0⟩ else []
  let drops := (q.tx.filter fun t => !isReliable t.frame).length
  let s := s.setPort p { q with tx := keep }
  let s := if goes then s else s.onPort other fun q => { q with tx := [] }
  let waits := s.net.outbox.filter fun x => x.port == p
  let s := { s with net := { s.net with outbox := s.net.outbox.filter fun x => x.port != p } }
  let s := (s.bump (F.CHN_P_DISC.TXDROP p.idx) drops).setReg (A.CHN_P_CNT p.idx) 0
  let s := (s.bump (F.CHN_P_RTX.LOSSES p.idx) 1).raise (F.CHN_P_EVT.LOST p.idx)
  let s := pumpHanded p ((linkTo p 0 s).put (F.CHN_P_STAT.LCAUSE p.idx) cause)
  let s := if goes then s.each waits fun x s => offerFrom x.host other x.frame s else s
  if up then linkChanged p false s else s

/-- Link loss (R227, R228): the line goes silent at once, and the port retrains after the silence time. -/
def linkLoss (p : Port) (cause : Nat) (s : State) : State := linkSilent p true (linkDown p cause s)

/-- A port is disabled (R211, R228): in any state but SILENT it acts as at a loss, with cause 6, and stays silent. -/
def linkStop (p : Port) (s : State) : State :=
  linkSilent p false (if s.linkState p == 0 then s else linkDown p 6 s)

/-- The program clears EN (R228). -/
def linkDisable (p : Port) (s : State) : State := linkStop p (s.put (F.CHN_P_CTRL.EN p.idx) 0)

/-- A write to CHN_Px_CTRL (R211, R228): a cleared EN disables the port; a set EN starts it with no silence time. -/
def wrPortCtrl (p : Port) (v : Word) (s : State) : State :=
  let was := s.bit (F.CHN_P_CTRL.EN p.idx)
  let en := (F.CHN_P_CTRL.EN p.idx).read v == 1
  let s := s.put (F.CHN_P_CTRL.TONE p.idx) ((F.CHN_P_CTRL.TONE p.idx).read v)
  if was && !en then linkDisable p s
  else
    let s := s.putB (F.CHN_P_CTRL.EN p.idx) en
    linkLeave p (if en && !was then s.onPort p fun q => { q with quiet := false } else s)

/-- APPLIED held within its bounds, or pinned (R30, R216). -/
def eqBound (p : Port) (s : State) : State :=
  let g := fun (f : Nat → Fld) => s.get (f p.idx)
  let want := if g F.CHN_P_EQ.PIN == 1 then g F.CHN_P_EQ.PINVAL else g F.CHN_P_EQ.APPLIED
  s.put (F.CHN_P_EQ.APPLIED p.idx) (max (g F.CHN_P_EQ.LO) (min (g F.CHN_P_EQ.HI) want))

/-- One step of the equaliser towards a boost code, within bounds or pin (R30, R216): in UP one code at most.
(DESIGN CHOICE, log entry 48.) -/
def eqStep (p : Port) (target : Nat) (s : State) : State :=
  let g := fun (f : Nat → Fld) => s.get (f p.idx)
  let want := if g F.CHN_P_EQ.PIN == 1 then g F.CHN_P_EQ.PINVAL else target
  let goal := max (g F.CHN_P_EQ.LO) (min (g F.CHN_P_EQ.HI) want)
  let now := g F.CHN_P_EQ.APPLIED
  let next := if s.portUp p then (if Nat.blt now goal then now + 1 else if Nat.blt goal now then now - 1 else now)
    else goal
  s.put (F.CHN_P_EQ.APPLIED p.idx) next

/-- A write to CHN_Px_EQ: one with LO above HI is refused (R216). -/
def wrPortEq (p : Port) (v : Word) (s : State) : State :=
  if Nat.blt ((F.CHN_P_EQ.HI p.idx).read v) ((F.CHN_P_EQ.LO p.idx).read v) then
    s.raise (F.CHN_P_EVT.CFG_REFUSED p.idx)
  else s.plainWrite (A.CHN_P_EQ p.idx) v

/-- A port's domain switches off (R14, R32): the port is disabled; frames accepted or handed over stay in their rooms. -/
def portGone (p : Port) (s : State) : State :=
  let s := (linkStop p s).put (F.CHN_P_STAT.SIGDET p.idx) 0
  s.setPort p { PortSt.fresh with tx := (s.port p).tx, rx := (s.port p).rx }

/-- A port's domain switches off with every other work, without a word to the network layer (R33). -/
def portCut (p : Port) (s : State) : State :=
  ((linkSilent p false s).setReg (A.CHN_P_CNT p.idx) 0).setPort p PortSt.fresh

end Sys2Proof.Machine
end

