-- ==== Sys2Proof/Machine/Guard.lean ====
section
/-! DEFINITION. The Guard (spec/12_guard.md): fault latching and clearing, dual-channel inputs, the start-up test, the
fault loop, the windowed watchdog, the safety parameter block and its commit, the STANDBY checks, and the GRD_NOTE of a
status change. The commands stand in Machine/Safe.lean. -/

namespace Sys2Proof.Machine

/-- The Guard's hidden state changed. -/
def State.onGrd (s : State) (f : GrdSt → GrdSt) : State := { s with grd := f s.grd }

/-- TIME as the Guard stamps it (R365): with D4 off it is the count on KCLK. -/
def State.grdTime (s : State) : Time := if s.on 4 then s.timeNow else s.ptr.time

/-! ### Faults (R346, R364, R365) -/

/-- The event-log entry of a Guard fault, with the time of the last one that latched (R365, R388). -/
def grdLog (s : State) : State :=
  logEntryAt (s.reg A.GRD_FLT_TSH ++ s.reg A.GRD_FLT_TSL) 2
    [s.reg A.GRD_FLT, s.reg A.GRD_FSRC, s.reg A.GRD_OVC, s.reg A.GRD_UVC] s

/-- An event waits in the Guard's queue while D5 is off; with eight waiting it joins the newest (R17, R365).
(DEDUCED, log entry 59.) -/
def grdEvent (w : Word) (g : GrdSt) : GrdSt :=
  if Nat.blt g.events.length 8 then { g with events := g.events ++ [w] }
  else { g with events := g.events.dropLast ++ [g.events.getLastD 0 ||| w] }

/-- D5 has come on: every event that waits requests its entry.
(DEDUCED, log entry 59.) -/
def grdDrain (s : State) : State := (s.onGrd fun g => { g with events := [] }).each s.grd.events fun _ s => grdLog s

/-- A GRD_FLT bit latches and its source is recorded; a bit or a source that was not there before sets FAULT, stamps TIME
and requests an event-log entry (R365, R388).
(DEDUCED, log entries 58 and 59.) -/
def grdLatch (bit : Nat) (record : State → State) (s : State) : State :=
  if !s.on 6 then s
  else
    let s1 := record (s.putBit A.GRD_FLT bit true)
    if s1.regs == s.regs then s
    else
      let t := s.grdTime
      let s2 := ((s1.raise F.GRD_EVT.FAULT).setReg A.GRD_FLT_TSL (t.extractLsb' 0 32)).setReg A.GRD_FLT_TSH
        (t.extractLsb' 32 32)
      if s2.on 5 then grdLog s2 else s2.onGrd (grdEvent (BitVec.ofNat 32 (2 ^ bit)))

/-- The conditions a setting lets the Guard judge (R346). -/
def State.grdJudges (s : State) : GuardCond → Bool
  | .ov n => (s.grdWord 2).getLsbD n && Nat.blt n 24
  | .uv n => (s.grdWord 2).getLsbD n && Nat.blt n 24
  | .th k => (s.grdWord 4).getLsbD k && Nat.blt k 4
  | .oc _ => (s.grdWord 7).getLsbD 24
  | .die => true

/-- A condition latches its fault with its source (R346). -/
def grdCond (c : GuardCond) (s : State) : State :=
  match c with
  | .ov n => grdLatch 0 (fun s => s.putBit A.GRD_OVC n true) s
  | .uv n => grdLatch 1 (fun s => s.putBit A.GRD_UVC n true) s
  | .th k => grdLatch 2 (fun s => s.putBit A.GRD_FSRC (8 + k) true) s
  | .oc pos => grdLatch 3 (fun s => s.putBit A.GRD_FSRC (if pos then 0 else 1) true) s
  | .die => grdLatch 4 id s

/-- The comparators run in START, RUN, RECOVER and HALT, the die comparator in TEST also (R347, R400). -/
def State.grdWatches (s : State) (c : GuardCond) : Bool :=
  s.grdJudging || (c == .die && s.on 6 && s.ptr.dev == .test)

/-- The codes by which a condition must come back inside its threshold before it has ended (R346). -/
def condBack : GuardCond → Int
  | .oc _ => 4
  | _ => 2

/-- A field of the block in use. -/
def State.grdCode (s : State) (k lo w : Nat) : Int := ((s.grdWord k).extractLsb' lo w).toNat

/-- A sample shows its condition, with the threshold `back` codes inside (R346). The rising threshold of the die
comparator is one free constant. (DESIGN CHOICE, log entry 83.) -/
def State.grdShows (s : State) (back : Int) (m : GuardSample) : Bool :=
  match m.c with
  | .ov _ => decide (4000000 * (s.grdCode 3 0 8 - back) < 255 * (m.x - 1000000))
  | .uv _ => decide (255 * (m.x - 1000000) < 4000000 * (s.grdCode 3 8 8 + back))
  | .th k =>
    let w := 5 + k / 2
    let lo := 16 * (k % 2)
    decide (256 * m.x < (s.grdCode w lo 8 + back) * m.y) || decide ((s.grdCode w (lo + 8) 8 - back) * m.y < 256 * m.x)
  | .oc true => decide (400 * (s.grdCode 7 0 8 - back) < m.x)
  | .oc false => decide (m.x < -(400 * (s.grdCode 7 8 8 - back)))
  | .die => if back == 0 then decide (15000 + ((Config.dieTrip % 801 : Nat) : Int) ≤ m.x) else decide (13500 ≤ m.x)

/-- N of a condition's filter: its time in 10 µs (R345, R346).
(DESIGN CHOICE, log entry 83.) -/
def State.filtNeeds (s : State) : GuardCond → Nat
  | .ov _ => 25 * (((s.grdWord 3).extractLsb' 16 6).toNat + 1)
  | .uv _ => 25 * (((s.grdWord 3).extractLsb' 16 6).toNat + 1)
  | .th _ => 25 * (((s.grdWord 4).extractLsb' 8 6).toNat + 1)
  | .oc _ => ((s.grdWord 7).extractLsb' 16 6).toNat + 1
  | .die => 100

/-- The filter of a condition. -/
def State.filtOf (s : State) (c : GuardCond) : Option GuardFilt := s.grd.filt.find? fun f => f.last.c == c

/-- The count of a condition's filter. -/
def State.filtCount (s : State) (c : GuardCond) : Nat := ((s.filtOf c).map (·.n)).getD 0

/-- A filter after one sample more (R345): one up where the sample shows the condition, to N at most, and else one down.
(DESIGN CHOICE, log entry 83.) -/
def State.filtNext (s : State) (m : GuardSample) : Nat :=
  if !s.grdJudges m.c then 0
  else if s.grdShows 0 m then min (s.filtNeeds m.c) (s.filtCount m.c + 1)
  else s.filtCount m.c - 1

/-- The sample makes its filter trip (R345). -/
def State.filtTrips (s : State) (m : GuardSample) : Bool :=
  s.grdWatches m.c && s.filtNext m == s.filtNeeds m.c && s.filtCount m.c != s.filtNeeds m.c

/-- One sample of a comparator (R345 to R347): its filter counts, and latches the fault where it trips.
(DESIGN CHOICE, log entry 83.) -/
def guardSample (m : GuardSample) (s : State) : State :=
  if !s.grdWatches m.c then s
  else
    let t := s.onGrd fun g => { g with filt := (g.filt.filter fun f => f.last.c != m.c) ++ [⟨m, s.filtNext m⟩] }
    if s.filtTrips m then grdCond m.c t else t

/-- The last sample of a condition's comparator has come back inside (R346, R364); a comparator that has not been sampled
since it began to run says nothing.
(DEDUCED, log entry 83.) -/
def State.grdBack (s : State) (c : GuardCond) : Bool :=
  match s.filtOf c with
  | some f => !s.grdShows (condBack c) f.last
  | none => false

/-- A check of GCLK against KCLK (R346): the cycles counted over 250 ms, 1,000,000 without deviation; four good ones in a
row are 1 s (R364). -/
def gclkJudge (count : Nat) (s : State) : State :=
  if !s.on 6 then s
  else if Nat.blt count 875000 || Nat.blt 1125000 count then grdLatch 12 id (s.onGrd fun g => { g with gclkGood := 0 })
  else s.onGrd fun g => { g with gclkGood := min 4 (g.gclkGood + 1) }

/-- Both channels of pair `k` are open. -/
def State.pairOpen (s : State) (k : Nat) : Bool := s.siOpen k false && s.siOpen k true

/-- The sources of a fault bit as they are recorded, and whether the cause of each has ended (R364). -/
def State.grdEnded (s : State) (b : Nat) : Bool :=
  let each := fun (a lo n : Nat) (p : Nat → Bool) => (List.range n).all fun k => !s.rbit a (lo + k) || p k
  match b with
  | 0 => each A.GRD_OVC 0 24 fun n => s.grdBack (.ov n)
  | 1 => each A.GRD_UVC 0 24 fun n => s.grdBack (.uv n)
  | 2 => each A.GRD_FSRC 8 4 fun k => s.grdBack (.th k)
  | 3 => each A.GRD_FSRC 0 2 fun k => s.grdBack (.oc (k == 0))
  | 4 => s.grdBack .die
  | 5 => each A.GRD_FSRC 24 4 fun k => Nat.ble 21 (s.grd.bothOpen.getD k 0)
  | 6 => each A.GRD_FSRC 16 4 fun k => !s.demanding k
  | 10 => !s.soaPin
  | 11 => !s.sobPin
  | 12 => s.grd.gclkGood == 4
  | _ => true

/-- The recorded sources of a fault bit (R364), as masks over GRD_FSRC, GRD_OVC and GRD_UVC. -/
def grdSources : Nat → Word × Word × Word
  | 0 => (0, 0xFFFFFFFF, 0)
  | 1 => (0, 0, 0xFFFFFFFF)
  | 2 => (0x00000F00, 0, 0)
  | 3 => (0x00000003, 0, 0)
  | 5 => (0x0F000000, 0, 0)
  | 6 => (0x000F0000, 0, 0)
  | _ => (0, 0, 0)

/-- A fault bit is cleared with its sources, or the clear is refused (R364). -/
def grdClearBit (b : Nat) (s : State) : State :=
  if !s.rbit A.GRD_FLT b then s
  else if s.grdEnded b then
    let m := grdSources b
    let s1 := ((s.setReg A.GRD_FSRC (s.reg A.GRD_FSRC &&& ~~~m.1)).setReg A.GRD_OVC
      (s.reg A.GRD_OVC &&& ~~~m.2.1)).setReg A.GRD_UVC (s.reg A.GRD_UVC &&& ~~~m.2.2)
    (s1.putBit A.GRD_FLT b false).raise F.GRD_EVT.CLEARED
  else s.raise F.GRD_EVT.CLR_REFUSED

/-- A W1C write to GRD_FLT (R364). -/
def wrGrdFlt (v : Word) (s : State) : State :=
  s.each ((List.range 13).filter fun b => v.getLsbD b) fun b s => grdClearBit b s

/-! ### Dual-channel inputs and the start-up test (R348 to R352) -/

/-- A channel takes the state of an input level (R348): with TYPE = 0 a low input is open, with TYPE = 1 a high SIBk is. -/
def siPut (k : Nat) (chB level : Bool) (s : State) : State :=
  let inverted := chB && (s.grdWord (8 + k)).getLsbD 28
  s.putBit A.GRD_SI (2 * k + chB.toNat) (level != inverted)

/-- The debounce time of pair `k` in GCLK cycles (R348): (SFILT + 1) × 25 samples of 38 cycles.
(DEDUCED, log entry 83.) -/
def State.siNeeds (s : State) (k : Nat) : Nat := 950 * (((s.grdWord (8 + k)).extractLsb' 0 6).toNat + 1)

/-- A safety input is seen at a level (R347, R348): a level that has held for the debounce time is the channel's state.
(DESIGN CHOICE, log entry 83.) -/
def siChange (k : Nat) (chB : Bool) (o : SiObs) (s : State) : State :=
  if !Nat.blt k 4 then s
  else
    let i := 2 * k + chB.toNat
    let n := if s.grd.si.getLsbD i == o.level then s.grd.held.getD i 0 + o.cycles else o.cycles
    let bit := BitVec.ofNat 8 (2 ^ i)
    let t := s.onGrd fun g => { g with si := if o.level then g.si ||| bit else g.si &&& ~~~bit, held := g.held.set i n }
    if s.grdJudging && s.pairEn k && Nat.ble (s.siNeeds k) n then siPut k chB o.level t else t

/-- The debounce starts afresh from the inputs' levels (R347).
(DESIGN CHOICE, log entry 83.) -/
def siFresh (s : State) : State :=
  if !s.grdJudging then s
  else
    let s := s.each ([0, 1, 2, 3].filter s.pairEn) fun k s =>
      siPut k true (s.grd.si.getLsbD (2 * k + 1)) (siPut k false (s.grd.si.getLsbD (2 * k)) s)
    s.onGrd fun g => { g with held := List.replicate 8 0 }

/-- A demand that began: its event, and the latched fault of a pair with ROLE and LATCH (R350). -/
def demandBegan (k : Nat) (s : State) : State :=
  let s := s.raise F.GRD_EVT.DEMAND
  if s.pairRole k && s.pairLatch k then grdLatch 6 (fun s => s.putBit A.GRD_FSRC (16 + k) true) s else s

/-- K of pair `k`: DISC × 5 ms in ticks (R351). -/
def State.discLimit (s : State) (k : Nat) : Nat := 5 * ((s.grdWord (8 + k)).extractLsb' 16 7).toNat

/-- A discrepancy counter that has reached K latches DISC with its pair (R351).
(DEDUCED, log entry 58.) -/
def discLatch (k : Nat) (s : State) : State :=
  if s.grdJudging && s.pairEn k && Nat.blt k 4 && Nat.ble (s.discLimit k) (s.grd.disc.getD k 0) then
    grdLatch 5 (fun s => s.putBit A.GRD_FSRC (24 + k) true)
      (s.onGrd fun g => { g with bothOpen := g.bothOpen.set k 0 })
  else s

/-- The start-up test has seen its 21 ticks (R352).
(DEDUCED, log entry 58.) -/
def sutDone (s : State) : State :=
  if s.grdJudging && s.grd.sutRun == 21 && !s.bit F.GRD_STAT.SUT_DONE then
    (s.raise F.GRD_STAT.SUT_DONE).raise F.GRD_EVT.SUT_PASS
  else s

/-- The discrepancy counters, the both-open runs and the start-up test's run after one tick more (R349 to R352, R364).
(DEDUCED, log entry 58.) -/
def tickCounts (s : State) : State :=
  let disc := [0, 1, 2, 3].map fun k => if s.disagreeing k then s.grd.disc.getD k 0 + 1 else 0
  let both := [0, 1, 2, 3].map fun k =>
    let n := s.grd.bothOpen.getD k 0
    if Nat.ble 21 n then 21 else if s.pairEn k && s.pairOpen k then n + 1 else 0
  let sut := if s.pairEn 0 && s.pairOpen 0 then min 21 (s.grd.sutRun + 1) else 0
  s.onGrd fun g => { g with disc := disc, bothOpen := both, sutRun := sut }

/-- One tick of 1 ms of Guard time (R339, R349 to R352): what it counts, and what latches or passes with it. -/
def grdTick (s : State) : State :=
  if !s.on 6 then s
  else
    let s := s.onGrd fun g => { g with cycles := 4000 * (g.cycles / 4000 + 1) }
    if !s.grdJudging then s else sutDone ((tickCounts s).each [0, 1, 2, 3] discLatch)

/-! ### Output readback and the fault loop (R342, R354) -/

/-- A pin read for 100 µs against what is expected (R342). -/
def readbackBad (pin : SafePin) (level : Bool) (s : State) : State :=
  let want := match pin with | .soa => s.soaExpected | .sob => s.grdOk
  if !s.on 6 || level == want then s
  else
    let s := s.onGrd fun g => match pin with
      | .soa => { g with soaRead := some level } | .sob => { g with sobRead := some level }
    if level then grdLatch (match pin with | .soa => 10 | .sob => 11) id s
    else (s.raise (match pin with | .soa => F.GRD_STAT.SOA_DEAD | .sob => F.GRD_STAT.SOB_DEAD)).raise
      F.GRD_EVT.OUT_DEAD

/-- A pin agrees with what is expected again (R342). -/
def readbackGood (pin : SafePin) (s : State) : State :=
  if !s.on 6 then s
  else match pin with
    | .soa => (s.onGrd fun g => { g with soaRead := none }).put F.GRD_STAT.SOA_DEAD 0
    | .sob => (s.onGrd fun g => { g with sobRead := none }).put F.GRD_STAT.SOB_DEAD 0

/-- FLI has shown no edge for 16 µs (R354). -/
def loopFall (s : State) : State :=
  if s.on 6 && s.bit F.GRD_STAT.FLI_OK then
    ((s.put F.GRD_STAT.FLI_OK 0).raise F.GRD_EVT.LOOP_LOST).bump F.GRD_LOOP.LOSSES 1
  else s

/-- FLI has shown its heartbeat for 1.0 ms (R354). -/
def loopRise (s : State) : State :=
  if s.on 6 && !s.bit F.GRD_STAT.FLI_OK then (s.raise F.GRD_STAT.FLI_OK).raise F.GRD_EVT.LOOP_OK else s

/-! ### Windowed watchdog (R356, R357, R314) -/

/-- The watchdog runs: after the block load, in START, RUN and RECOVER (R356). -/
def State.wdRuns (s : State) : Bool := s.on 6 && s.inDev [.start, .run, .recover] && s.grd.wdOn

/-- One step of the challenge register (R357). -/
def lfsrStep (x : BitVec 16) : BitVec 16 := if x.getLsbD 15 then (x <<< 1) ^^^ 0x6801 else x <<< 1

/-- GCLK cycles of the challenge register. -/
def lfsrSteps : Nat → BitVec 16 → BitVec 16
  | 0, x => x
  | n + 1, x => lfsrSteps n (lfsrStep x)

/-- The correct response to a challenge (R314). -/
def wdAnswer (c : BitVec 16) : BitVec 16 := (c * 0x9E37) ^^^ ((c <<< 5) ||| (c >>> 11))

/-- The watchdog's register state: 0 disarmed, 1 closed, 2 open. -/
def State.wdState (s : State) : Nat := s.get F.GRD_WD.STATE

/-- The watchdog stops: disarmed, no window (R356). -/
def wdDisarm (s : State) : State :=
  ((s.put F.GRD_WD.STATE 0).put F.GRD_STAT.WD_ARMED 0).onGrd fun g => { g with window := false }

/-- A watchdog fault: latched, counted, and the watchdog disarms (R356, R371). -/
def wdFault (bit : Nat) (s : State) : State := grdLatch bit id (wdDisarm (s.bumpSat F.GRD_WD.FAILS 1))

/-- A window opens with a new challenge, which goes to INK_WDC (R314, R356). A disarmed window that ended unanswered
counts as missed. The closed phase ends with it.
(DESIGN CHOICE, log entry 40.) -/
def wdOpen (advance : Nat) (s : State) : State :=
  if !s.wdRuns || s.wdState == 2 then s
  else
    let c := lfsrSteps advance s.grd.lfsr
    let missed := s.wdState == 0 && s.grd.window && s.bit F.INK_WDC.FRESH
    let s := if missed then s.bumpSat F.GRD_WD.FAILS 1 else s
    let s := if s.wdState == 1 then s.put F.GRD_WD.STATE 2 else s
    let s := s.onGrd fun g => { g with lfsr := c, chal := c, window := true }
    (s.put F.INK_WDC.CHAL c.toNat).raise F.INK_WDC.FRESH

/-- The watchdog starts at the end of the block load with its first window (R356, R357), with what its challenge register has
come to.
(DESIGN CHOICE, log entry 40.) -/
def wdStart (s : State) : State :=
  wdOpen (Config.bootCycles s.free) (s.onGrd fun g => { g with wdOn := true }).draw

/-- An open window ended without a correct response (R356). -/
def wdExpire (s : State) : State := if s.wdRuns && s.wdState == 2 then wdFault 8 s else s

/-- The oldest response under way arrives and is judged (R356). -/
def wdJudge (s : State) : State :=
  match s.grd.resp with
  | [] => s
  | r :: rs =>
    let s := s.onGrd fun g => { g with resp := rs }
    let right := s.grd.window && r == wdAnswer s.grd.chal
    let accept := fun (s : State) => (((s.bump F.GRD_WD.OKS 1).put F.GRD_WD.STATE 1).raise
      F.GRD_STAT.WD_ARMED).onGrd fun g => { g with window := false }
    if !s.wdRuns then s
    else if s.wdState == 1 then wdFault 7 s
    else if right then accept s
    else if s.wdState == 2 then wdFault 9 s
    else s.bumpSat F.GRD_WD.FAILS 1

/-! ### The safety parameter block and its commit (R359 to R362) -/

/-- The bits a word of the block may have set (R359). -/
def blockBits : Nat → Word
  | 0 => 0xFFFFFFFF
  | 1 => 0xFFFFFFFF
  | 2 => 0x00FFFFFF
  | 3 => 0x003FFFFF
  | 4 => 0x00003F0F
  | 5 => 0xFFFFFFFF
  | 6 => 0xFFFFFFFF
  | 7 => 0x013FFFFF
  | 8 => 0xF07F003F
  | 9 => 0xF07F003F
  | 10 => 0xF07F003F
  | 11 => 0xF07F003F
  | 12 => 0x00003F3F
  | 13 => 0x00000001
  | 14 => 0xFFFFFFFF
  | _ => 0

/-- PART and REV of the vendor OTP (R2, R426): bits 23:0 of word 0. -/
def State.partRev (s : State) : BitVec 24 := (s.otpWord 0).extractLsb' 0 24

/-- The block is valid (R360). -/
def State.blockValid (s : State) (ws : List Word) : Bool :=
  let w := fun k => ws.getD k 0
  let byte := fun (v : Word) (lo : Nat) => (v.extractLsb' lo 8).toNat
  let th := fun (k : Nat) => (byte (w (5 + k / 2)) (16 * (k % 2)), byte (w (5 + k / 2)) (16 * (k % 2) + 8))
  let disc := fun (k : Nat) => ((w (8 + k)).extractLsb' 16 7).toNat
  w 0 == 0x31445247 && w 1 == 0x01240642 && s.partRev == 0x240642 &&
  ((List.range 64).all fun k => (w k &&& ~~~blockBits k) == 0) &&
  Nat.blt (byte (w 3) 8) (byte (w 3) 0) &&
  ([0, 1, 2, 3].all fun k => !(w 4).getLsbD k || Nat.blt (th k).1 (th k).2) &&
  ([0, 1, 2, 3].all fun k => !(w (8 + k)).getLsbD 31 || (Nat.ble 1 (disc k) && Nat.ble (disc k) 100)) &&
  (w 8).getLsbD 31

/-- The commit held in the Ledger: word 1 of the newest 0x21 record, none where there is no record (R361). -/
def State.ledgerCommit (s : State) : Option Word :=
  (ledNewest s.led.flash 0x21).map fun p => (ledPos s.led.flash p).getD 1 0

/-- The Guard receives the block of the image, none where SAFE_LEN is 0 (R330, R360, R361); the pairs that it makes the Guard
judge start from their inputs' levels.
(DEDUCED, log entry 83.) -/
def grdLoad (block : Option (List Word)) (s : State) : State :=
  let ws := block.getD []
  let s := s.each (List.range 64) fun k s => s.setReg (A.GRD_P k) (ws.getD k 0)
  let s := s.put F.GRD_STAT.BLK (match block with | none => 0 | some ws => if s.blockValid ws then 1 else 2)
  let crc := match block with | none => 0 | some ws => CrcKind.of .crc32 (wordsBytes (padTo 0 64 ws))
  let s := s.setReg A.GRD_PCRC crc
  let s := siFresh s
  match s.ledgerCommit with
  | none => (s.put F.GRD_STAT.COMMIT 0).setReg A.GRD_COMMIT 0
  | some c => (s.put F.GRD_STAT.COMMIT (if c == crc then 1 else 2)).setReg A.GRD_COMMIT c

/-- Guard time passes up to a write that reaches the Guard (R339), somewhere in the present millisecond.
(DESIGN CHOICE, log entry 69.) -/
def guardTime (s : State) : State :=
  (s.onGrd fun g =>
    { g with cycles := 4000 * (g.cycles / 4000) + max (g.cycles % 4000) (Config.tickPart s.free % 4000) }).draw

/-- A write to GRD_UNLK (R362). -/
def wrGrdUnlk (v : Word) (s : State) : State :=
  let s := guardTime s
  if F.GRD_UNLK.KEY.read v == 0xC011 then s.onGrd fun g => { g with unlockedAt := some g.cycles } else s

/-- The 10 ms of Guard time after an unlock have not passed (R362). -/
def State.unlocked (s : State) : Bool :=
  match s.grd.unlockedAt with
  | some t => Nat.ble s.grd.cycles (t + 40000)
  | none => false

/-- A commit request (R362): accepted within 10 ms of the unlock, on a valid block, in COMMIT state 0 or 2, with the
value of GRD_PCRC. -/
def wrGrdCommit (v : Word) (s : State) : State :=
  let s := guardTime s
  let c := s.get F.GRD_STAT.COMMIT
  if s.unlocked && s.get F.GRD_STAT.BLK == 1 && (c == 0 || c == 2) && v == s.reg A.GRD_PCRC then
    let s := (s.put F.GRD_STAT.COMMIT 3).onGrd fun g => { g with commitPrev := c }
    { s with led := { s.led with q21 := some (padTo 0 62 (v :: timeWords s.timeNow ++ [s.grdWord 14])) } }
  else s.raise F.GRD_EVT.COMMIT_ERR

/-- The commit record has been written (R362). -/
def commitDone (v : Word) (s : State) : State :=
  ((s.put F.GRD_STAT.COMMIT 1).setReg A.GRD_COMMIT v).raise F.GRD_EVT.COMMIT_DONE

/-- The commit write was abandoned or aborted (R362). -/
def commitLost (s : State) : State :=
  if s.get F.GRD_STAT.COMMIT == 3 then (s.put F.GRD_STAT.COMMIT s.grd.commitPrev).raise F.GRD_EVT.COMMIT_ERR else s

/-! ### STANDBY checks (R370) -/

/-- The Guard powers its comparators for a check. -/
def checkStart (s : State) : State :=
  if s.on 6 && s.ptr.dev == .standby then s.onGrd fun g => { g with checking := true } else s

/-- A check ends: what this and the last check both found latches, and a wake is requested (R370).
(DEDUCED, log entry 59.) -/
def checkEnd (ms : List GuardSample) (s : State) : State :=
  if !s.grd.checking then s
  else
    let seen := (ms.filter fun m => s.grdShows 0 m && s.grdJudges m.c && (match m.c with | .oc _ => false | _ => true)).map
      (·.c)
    let twice := seen.filter fun c => s.grd.found.contains c
    let s := s.onGrd fun g => { g with checking := false, found := seen, wakeReq := g.wakeReq || !twice.isEmpty }
    let s := s.each twice fun c s => grdCond c s
    s.raiseIf (!twice.isEmpty) F.GRD_EVT.STBY_FAULT

/-! ### D6 and the device state (R347, R352, R357) -/

/-- D6 has switched on: every GRD register at reset, a fresh seed (R352, R357), FLO at another level (R353).
(DESIGN CHOICE, log entries 20 and 82.) -/
def grdPowerOn (s : State) : State :=
  let seed := Config.grdSeed s.free
  let s := s.draw
  let s := { s with regs := Sparse.keep (fun a => !(Nat.ble 0x0F00 a && Nat.blt a 0x1000)) s.regs }
  { s with grd := { GrdSt.fresh with
    lfsr := if seed == 0 then 1 else seed, si := s.grd.si, floStops := s.grd.floStops + 1 } }

/-- The device state has changed (R347, R356, R370); `was` says that the pairs were judged before. Where they are judged
again, their debounce starts afresh; the watchdog stops outside the states in which it runs. -/
def grdState (was : Bool) (s : State) : State :=
  let s := if s.inDev [.start, .run, .recover] then s else (wdDisarm s).onGrd fun g => { g with wdOn := false }
  let s := if s.inDev [.start, .run, .recover, .halt] then (if was then s else siFresh s)
    else s.onGrd fun g => { g with
      disc := [0, 0, 0, 0], sutRun := 0, filt := g.filt.filter fun f => f.last.c == .die && s.ptr.dev == .test }
  if s.ptr.dev == .standby then s else s.onGrd fun g => { g with checking := false, found := [], wakeReq := false }

/-! ### Status changes (R340, R350, R366, R367) -/

/-- A GRD_NOTE with the time of the status change is offered to the ports, where their transmit rooms take it; else it waits
and carries the status then current (R367).
(DEDUCED, log entry 52.) -/
def grdNoteOffer (s : State) : State :=
  if !s.grd.noteWaits || !s.on 5 then s
  else
    let t := s.grd.noteAt
    let f := s.newFrame 0 0x10 0x7F 0 16
      [(s.gst.zeroExtend 32), s.reg A.GRD_FLT, t.extractLsb' 0 32, t.extractLsb' 32 32]
    if s.bcastPorts.all fun p => (s.port p).hasRoom f then
      broadcast f (s.onGrd fun g => { g with noteWaits := false })
    else s

/-- FLO begins to toggle, or stops (R353).
(DESIGN CHOICE, log entry 82.) -/
def floSettle (s : State) : State :=
  if s.grd.floWas == s.floToggles then s
  else s.onGrd fun g => { g with floWas := s.floToggles, floStops := g.floStops + (!s.floToggles).toNat }

/-- What follows from a change of the Guard's permits since they were last acted on. -/
def grdSettle (s : State) : State :=
  let s := floSettle s
  let s := if s.grd.okWas != s.grdOk then
      (s.raiseIf (s.on 6) F.GRD_EVT.OK_CHANGE).onGrd fun g => { g with okWas := s.grdOk }
    else s
  let s := if s.grd.gstWas != s.gst then
      s.onGrd fun g => { g with gstWas := s.gst, noteWaits := s.on 5, noteAt := s.grdTime }
    else s
  grdNoteOffer s

/-- GRD_STAT as it reads (R371). -/
def State.grdStatView (s : State) : Word :=
  let b := fun (f : Nat → Bool) => (bitsWord 4 f).toNat
  let w := s.reg A.GRD_STAT
  let w := F.GRD_STAT.GRD_OK.write w s.grdOk.toNat
  let w := F.GRD_STAT.LP.write w s.lp.toNat
  let w := F.GRD_STAT.SOB_PIN.write w s.sobPin.toNat
  let w := F.GRD_STAT.SOA_PIN.write w s.soaPin.toNat
  let w := F.GRD_STAT.DEMAND.write w (b s.demanding)
  let w := F.GRD_STAT.DISAG.write w (b s.disagreeing)
  let w := F.GRD_STAT.LROLE.write w s.originator.toNat
  F.GRD_STAT.GST.write w s.gst.toNat

/-- GRD_LOOP as it reads. -/
def State.grdLoopView (s : State) : Word := F.GRD_LOOP.FLO_ON.write (s.reg A.GRD_LOOP) s.floOn.toNat

end Sys2Proof.Machine
end

