-- ==== Sys2Proof/Machine/Ink.lean ====
section
/-! DEFINITION. The Innkeeper (spec/10_innkeeper.md, R289 to R314): registers, flags, checks and halts, data SRAM, start,
stop and restart, timers, completions. Its access to endpoints stands in Machine/Transact.lean. -/

namespace Sys2Proof.Machine

/-- The Innkeeper's hidden state changed. -/
def State.onInk (s : State) (f : InkSt → InkSt) : State := { s with ink := f s.ink }

/-! ### Registers and flags (R289, R298) -/

/-- A register's value; g0 reads zero (R289). -/
def State.g (s : State) (r : BitVec 4) : Word := if r == 0 then 0 else s.ink.g[r.toNat]

/-- A register takes a value; a write to g0 is discarded (R289). -/
def setG (r : BitVec 4) (v : Word) (s : State) : State :=
  if r == 0 then s else s.onInk fun k => { k with g := k.g.set r.toNat v }

/-- N and Z of a result (R298). -/
def flagsNZ (v : Word) (s : State) : State := s.onInk fun k => { k with n := v.getLsbD 31, z := v == 0 }

/-- V, or C and V, take values. -/
def flagV (v : Bool) (s : State) : State := s.onInk fun k => { k with v := v }
def flagsCV (c v : Bool) (s : State) : State := s.onInk fun k => { k with c := c, v := v }

/-- Carry out of bit 31 of a sum with a carry in (R298). -/
def carryOut (a b : Word) (cin : Bool) : Bool := Nat.ble (2 ^ 32) (a.toNat + b.toNat + cin.toNat)

/-- Signed overflow of a sum (R298): both operands have one sign and the sum the other. -/
def overflow (a b r : Word) : Bool := a.getLsbD 31 == b.getLsbD 31 && r.getLsbD 31 != a.getLsbD 31

/-- A sum with its four flags into a register. -/
def inkAdd (rd : BitVec 4) (a b : Word) (s : State) : State :=
  let r := a + b
  setG rd r (flagsCV (carryOut a b false) (overflow a b r) (flagsNZ r s))

/-- A difference, ra + NOT(operand) + 1, with its four flags into a register (R298); into g0 it is a comparison. -/
def inkSub (rd : BitVec 4) (a b : Word) (s : State) : State :=
  let r := a - b
  setG rd r (flagsCV (carryOut a (~~~b) true) (overflow a (~~~b) r) (flagsNZ r s))

/-- A result with N and Z into a register. -/
def inkNZ (rd : BitVec 4) (r : Word) (s : State) : State := setG rd r (flagsNZ r s)

/-- A quotient with N, Z and V into a register. -/
def inkQuot (rd : BitVec 4) (r : Word) (v : Bool) (s : State) : State := setG rd r (flagV v (flagsNZ r s))

/-- The amount of a shift: bits 4:0 (R297). -/
def shiftOf (b : Word) : Nat := (b.extractLsb' 0 5).toNat

/-- The high words of the products (R297). -/
def mulHigh (a b : Word) : Word := BitVec.ofInt 32 ((a.toInt * b.toInt) / 2 ^ 32)
def mulHighU (a b : Word) : Word := BitVec.ofNat 32 ((a.toNat * b.toNat) / 2 ^ 32)

/-- DIV's quotient and V (R297, R298). -/
def divSigned (a b : Word) : Word × Bool :=
  if b == 0 then (0, true)
  else if a == 0x80000000 && b == 0xFFFFFFFF then (0x80000000, true)
  else (BitVec.ofInt 32 (Int.tdiv a.toInt b.toInt), false)

/-- DIVU's quotient and V (R297, R298). -/
def divUnsigned (a b : Word) : Word × Bool := if b == 0 then (0, true) else (a / b, false)

/-- COND holds (R299); 15 is illegal and is judged before. -/
def condHolds (k : InkSt) : Nat → Bool
  | 0 => k.z
  | 1 => !k.z
  | 2 => k.c
  | 3 => !k.c
  | 4 => k.n
  | 5 => !k.n
  | 6 => k.v
  | 7 => !k.v
  | 8 => k.c && !k.z
  | 9 => !k.c || k.z
  | 10 => k.n == k.v
  | 11 => k.n != k.v
  | 12 => !k.z && k.n == k.v
  | 13 => k.z || k.n != k.v
  | 14 => true
  | _ => false

/-! ### Completions (R305 to R308) -/

/-- XIDs in use: transactions without a completion, and completions not yet removed (R305). -/
def State.xidsUsed (s : State) : List Nat := s.ink.out.map (·.xid) ++ s.ink.cpl.map (·.xid)

/-- A transaction ends with its completion (R307). -/
def inkComplete (xid status count : Nat) (s : State) : State :=
  match s.ink.out.find? (·.xid == xid) with
  | none => s
  | some x => s.onInk fun k => { k with
      out := k.out.filter (·.xid != xid), cpl := k.cpl ++ [⟨xid, x.op, status, count⟩] }

/-- Every transaction outstanding ends with STATUS 8 (R294, R302): its request is given up, and a response that still
comes is discarded (R308). -/
def inkDiscard (s : State) : State :=
  let mineOf := fun (r : Request) => match r.who with | .ink _ _ => true | _ => false
  let s := { s with net := { s.net with requests := s.net.requests.filter fun r => !mineOf r } }
  s.onInk fun k => { k with out := [], cpl := k.cpl ++ k.out.map fun x => ⟨x.xid, x.op, 8, 0⟩ }

/-- A completion as INK_XCPL reads it (R317). -/
def cplWord : Option Completion → Word
  | none => 0
  | some c => Word.ofNat (2 ^ 31 + c.xid % 16 * 2 ^ 24 + c.op % 4 * 2 ^ 20 + c.status % 16 * 2 ^ 16 + c.count % 64 * 2 ^ 8)

/-- INK_XCPL's oldest completion is removed (R308). -/
def cplPop (s : State) : State := s.onInk fun k => { k with cpl := k.cpl.tail }

/-- A broadcast transaction completes once its frame has left every port in UP (R307): no copy that has not been sent
yet waits in a transmit room.
(DEDUCED, log entry 46.) -/
def bcastSettle (s : State) : State :=
  let waits := fun (tag : Nat) => fun (f : Frame) =>
    f.cls == 1 && f.dst == 0x7F && f.src == s.slot && ((f.payload.headD 0).extractLsb' 24 8).toNat == tag
  let left := fun (tag : Nat) =>
    !((s.north.tx ++ s.south.tx).any fun t => t.stage == .new && waits tag t.frame) &&
    !(s.net.outbox.any fun x => waits tag x.frame)
  s.each (s.ink.out.filter fun x => match x.bcast with | some tag => left tag | none => false) fun x s =>
    inkComplete x.xid 0 x.cnt s

/-! ### Stopping, halting, starting (R292 to R295, R302) -/

/-- The Innkeeper stops (R294): a WFE is abandoned with PC on it; RUN and SOA clear; STATUS 8 completes what is out. -/
def inkStopNow (s : State) : State :=
  if !s.inkRuns then s
  else
    let s := s.onInk fun k => { k with state := .stopped, wfe := none }
    inkDiscard ((s.put F.INK_CTRL.RUN 0).put F.INK_SAFE.SOA 0)

/-- The Innkeeper halts on a fault (R302): INK_FLT with the PC and the count, its time, SOA off, STATUS 8, and an
event-log entry (R388). -/
def inkHalt (cause : Nat) (s : State) : State :=
  let t := s.timeNow
  let s := (s.put F.INK_FLT.PC s.ink.pc.toNat).put F.INK_FLT.CAUSE cause
  let s := s.bumpSat F.INK_FLT.COUNT 1
  let s := (s.setReg A.INK_FLT_TSL (t.extractLsb' 0 32)).setReg A.INK_FLT_TSH (t.extractLsb' 32 32)
  let s := s.onInk fun k => { k with state := .halted, wfe := none }
  logEntry 1 [s.reg A.INK_FLT] (inkDiscard ((s.put F.INK_CTRL.RUN 0).put F.INK_SAFE.SOA 0))

/-- The state of R292: PC at ENTRY, registers and flags zero, stack and completion queue empty, timers disabled,
INK_EVT zero; then STATE 1. -/
def inkBegin (s : State) : State :=
  let s := s.onInk fun k => { k with
    state := .running, g := Vector.replicate 16 0, n := false, z := false, c := false, v := false,
    pc := BitVec.ofNat 14 (s.get F.INK_ENTRY.ENTRY), stack := [], wfe := none, out := [], cpl := [] }
  let s := s.each [0, 1, 2, 3] fun n s => s.put (F.INK_TMR.EN n) 0
  (s.setReg A.INK_EVT 0).put F.INK_CTRL.RUN 1

/-- The device is in a state in which the Innkeeper runs (R292). -/
def State.inkMay (s : State) : Bool := s.on 5 && s.inDev [.start, .run, .recover]

/-- A write of 1 to RUN (R294): resumes from STATE 3 in START, RUN or RECOVER. -/
def inkResumeNow (s : State) : State :=
  if s.ink.state == .stopped && s.inkMay then
    (s.onInk fun k => { k with state := .running }).put F.INK_CTRL.RUN 1
  else s

/-- A write of 1 to RESTART (R295): from STATE 3 or 4, in a state in which the Innkeeper runs. -/
def inkRestartNow (s : State) : State :=
  if (s.ink.state == .stopped || s.ink.state == .halted) && s.inkMay then inkBegin s else s

/-- XLOCK bars the chain and the host port from INK_CTRL (R295). -/
def State.inkBarred (s : State) (p : Path) : Bool := s.bit F.INK_CTRL.XLOCK && p != .ink

/-- A write to INK_CTRL (R294, R295): RESTART and RUN act on the state the write finds; XLOCK sets. -/
def wrInkCtrl (p : Path) (v : Word) (s : State) : State :=
  if s.inkBarred p then s
  else
    let again := F.INK_CTRL.RESTART.read v == 1 && (s.ink.state == .stopped || s.ink.state == .halted)
    let s := s.raiseIf (F.INK_CTRL.XLOCK.read v == 1) F.INK_CTRL.XLOCK
    if again then inkRestartNow s
    else if F.INK_CTRL.RUN.read v == 1 then inkResumeNow s
    else inkStopNow s

/-! ### One instruction (R291, R296, R300, R301) -/

/-- An instruction runs: only in STATE 1; its fetch may be corrected, or halt with cause 2 (R291). -/
def inkFetch (e : InkEnv) (body : State → State) (s : State) : State :=
  if s.ink.state != .running then s
  else match e.fetch with
    | .uncorrectable => inkHalt 2 s
    | .corrected => body (s.bump F.INK_ECC.PCOR 1)
    | .clean => body s

/-- PC moves to the next word. -/
def pcNext (s : State) : State := s.onInk fun k => { k with pc := k.pc + 1 }

/-- An instruction whose next PC is the following address: at 0x3FFF it halts with cause 9 before any effect (R301).
(DEDUCED, log entry 53.) -/
def inkSeq (body : State → State) (s : State) : State := if s.ink.pc == 0x3FFF then inkHalt 9 s else body s

/-- A check of R300 found a mismatch: cause 1, nothing written. -/
def inkChecked (e : InkEnv) (body : State → State) (s : State) : State := if e.check then inkHalt 1 s else body s

/-- A computing instruction: fetched, checked, its effect, and the next PC.
(DEDUCED, log entry 53.) -/
def inkCompute (e : InkEnv) (effect : State → State) (s : State) : State :=
  inkFetch e (inkSeq (inkChecked e fun s => pcNext (effect s))) s

/-- A jump to a word address (R301): above 0x3FFF it halts with cause 9 before any effect; `effect` is what the jump
does besides. -/
def inkJump (e : InkEnv) (target : Int) (effect : State → State) (s : State) : State :=
  if decide (target < 0) || decide (0x3FFF < target) then inkHalt 9 s
  else inkChecked e (fun s => (effect s).onInk fun k => { k with pc := BitVec.ofInt 14 target }) s

/-- A call: the return address goes onto the stack; with sixteen entries it halts with cause 7 (R301).
(DEDUCED, log entry 53.) -/
def inkCallTo (e : InkEnv) (target : Int) (s : State) : State :=
  if Nat.ble 16 s.ink.stack.length then inkHalt 7 s
  else inkJump e target (fun s => s.onInk fun k => { k with stack := (k.pc + 1) :: k.stack }) s

/-- A return to the address on top of the stack; with none it halts with cause 8 (R301). -/
def inkReturn (s : State) : State :=
  match s.ink.stack with
  | [] => inkHalt 8 s
  | t :: ts => s.onInk fun k => { k with pc := t, stack := ts }

/-- A relative target: the instruction's own address and a signed offset (R296). -/
def State.inkRel (s : State) (off : Int) : Int := (s.ink.pc.toNat : Int) + off

/-! ### Data SRAM (R290, R291) -/

/-- The data word at a word index, and a word stored there; a store writes new check bits (R291). -/
def State.dataWord (s : State) (i : Nat) : Word := Mem.word 0 s.ink.data (4 * i)
def setData (i : Nat) (v : Word) (s : State) : State :=
  s.onInk fun k => { k with data := Mem.setWord 0 k.data (4 * i) v, bad := k.bad.filter (· != i) }

/-- Words stored from a word index upward. -/
def setDatas (i : Nat) : List Word → State → State
  | [], s => s
  | v :: vs, s => setDatas (i + 1) vs (setData i v s)

/-- Words read from a word index upward. -/
def State.dataWords (s : State) (i : Nat) : Nat → List Word
  | 0 => []
  | n + 1 => s.dataWord i :: s.dataWords (i + 1) n

/-- What a read of the data words `ws` meets (R291): a correction, which is counted; or an uncorrectable error, which stays
in the first of them until that is written whole. -/
def inkMeets (d : Ecc) (ws : List Nat) (s : State) : State :=
  match d, ws with
  | .corrected, _ :: _ => s.bump F.INK_ECC.DCOR 1
  | .uncorrectable, w :: _ => s.onInk fun k => { k with bad := if k.bad.contains w then k.bad else w :: k.bad }
  | _, _ => s

/-- An access of the Innkeeper that reads stored words: corrected and counted, or cause 3 (R291). -/
def inkReads (d : Ecc) (ws : List Nat) (body : State → State) (s : State) : State :=
  let bad := d == .uncorrectable || ws.any s.ink.bad.contains
  if bad then inkHalt 3 (inkMeets (if d == .corrected then .clean else d) ws s) else body (inkMeets d ws s)

/-- A word access at a byte address: a multiple of 4 up to 0xFFFF, else cause 5 (R301). -/
def inkWordAt (a : Word) (body : Nat → State → State) (s : State) : State :=
  if a.toNat % 4 == 0 && Nat.ble a.toNat 0xFFFF then body (a.toNat / 4) s else inkHalt 5 s

/-- A byte access: up to 0xFFFF, else cause 5. -/
def inkByteAt (a : Word) (body : Nat → State → State) (s : State) : State :=
  if Nat.ble a.toNat 0xFFFF then body a.toNat s else inkHalt 5 s

/-! ### Waiting (R310, R311) -/

/-- WFE: complete at once on an asserted masked line or a mask of 0, else wait with PC on the instruction (R311). -/
def inkWait (rd : BitVec 4) (m : Word) (s : State) : State :=
  let found := s.epend &&& m
  if m == 0 || found != 0 then pcNext (setG rd found s)
  else s.onInk fun k => { k with state := .waiting, wfe := some (rd, m) }

/-- A masked line has asserted: the waiting WFE completes (R311). -/
def inkWake (s : State) : State :=
  match s.ink.state, s.ink.wfe with
  | .waiting, some (rd, m) =>
    let found := s.epend &&& m
    if found != 0 then pcNext (setG rd found (s.onInk fun k => { k with state := .running, wfe := none })) else s
  | _, _ => s

/-- SEV: bits of INK_EVT.SW cleared, then set (R297). -/
def inkSev (clr set : BitVec 8) (s : State) : State :=
  s.put F.INK_EVT.SW (((BitVec.ofNat 8 (s.get F.INK_EVT.SW) &&& ~~~clr) ||| set).toNat)

/-- WDS: the value goes to the Guard, FRESH clears, SENT counts (R314). -/
def inkWds (v : BitVec 16) (s : State) : State :=
  let s := (s.put F.INK_WDC.FRESH 0).bump F.INK_WDC.SENT 1
  if s.on 6 then s.onGrd fun g => { g with resp := g.resp ++ [v] } else s

/-- A write to INK_SWSET (R312). -/
def wrSwset (v : Word) (s : State) : State :=
  s.put F.INK_EVT.SW (s.get F.INK_EVT.SW ||| F.INK_SWSET.SET.read v)

/-! ### Timers (R312) -/

/-- A write to INK_TMRn: a PERIOD of 0 stores 1; with EN = 1 the timer starts anew. -/
def wrTmr (n : Nat) (v : Word) (s : State) : State :=
  let s := s.plainWrite (A.INK_TMR n) v
  if (F.INK_TMR.PERIOD n).read v == 0 then s.put (F.INK_TMR.PERIOD n) 1 else s

/-- A timer expires (R312). -/
def tmrExpire (n : Nat) (s : State) : State :=
  if !s.bit (F.INK_TMR.EN n) || !Nat.blt n 4 then s
  else
    let s := if s.rbit A.INK_EVT n then s.putBit A.INK_EVT (16 + n) true else s.putBit A.INK_EVT n true
    if s.bit (F.INK_TMR.PERIODIC n) then s else s.put (F.INK_TMR.EN n) 0

/-! ### The safety event latch (R316) -/

/-- A GRD_NOTE sets its sender's bit and merges its GST. -/
def noteLatch (f : Frame) (s : State) : State :=
  let s := if f.src == 0x7F then s.raise F.INK_SLATG.UNSLOT else putSlot A.INK_SLATL A.INK_SLATH f.src true s
  s.put F.INK_SLATG.GST (s.get F.INK_SLATG.GST ||| (f.payload.headD 0).toNat % 16)

/-! ### Registers as they read (R317) -/

def State.inkStatView (s : State) : Word :=
  let k := s.ink
  Word.ofNat (k.pc.toNat * 0x10000 + k.stack.length * 0x100 + k.n.toNat * 0x80 + k.z.toNat * 0x40 + k.c.toNat * 0x20 +
    k.v.toNat * 0x10 + k.state.code)

def State.inkXstatView (s : State) : Word :=
  let w := F.INK_XSTAT.QUEUED.write (s.reg A.INK_XSTAT) s.ink.cpl.length
  F.INK_XSTAT.OUT.write w s.xidsUsed.length

def State.inkSafeView (s : State) : Word :=
  let w := F.INK_SAFE.GRD_OK.write (s.reg A.INK_SAFE) s.grdOk.toNat
  let w := F.INK_SAFE.SOB_PIN.write w s.sobPin.toNat
  F.INK_SAFE.SOA_PIN.write w s.soaPin.toNat

end Sys2Proof.Machine
end

