-- ==== Sys2Proof/Machine/Trust.lean ====
section
/-! DEFINITION. OTP, keys and self-test (spec/15_trust_and_test.md): the SECDED code, the margin read at START, regions,
keys, programming, the self-test items and their results. Entry to TEST and the commands stand in Machine/Porter.lean
and Machine/Trial.lean. -/

namespace Sys2Proof.Machine

/-- The hidden state of OTP, keys and test changed. -/
def State.onTru (s : State) (f : TruSt → TruSt) : State := { s with tru := f s.tru }

/-! ### The code (R423) -/

/-- The codeword positions of the data bits, b0 first. -/
def dataPositions : List Nat :=
  [3, 5, 6, 7, 9, 10, 11, 12, 13, 14, 15, 17, 18, 19, 20, 21, 22, 23, 24, 25, 26, 27, 28, 29, 30, 31, 33, 34, 35,
   36, 37, 38]

/-- The positions of c0 to c5. -/
def checkPositions : List Nat := [1, 2, 4, 8, 16, 32]

/-- The XOR of the positions that hold a 1 among 1 to 38. -/
def otpSyndrome (w : BitVec 39) : Nat :=
  (List.range 39).foldl (fun n i => if w.getLsbD i then Nat.xor n i else n) 0

/-- The XOR of all 39 bits. -/
def otpParity (w : BitVec 39) : Bool := (List.range 39).foldl (fun b i => xor b (w.getLsbD i)) false

/-- The data bits of a codeword. -/
def otpData (w : BitVec 39) : Word := bitsWord 32 fun i => w.getLsbD (dataPositions.getD i 0)

/-- The check bits, ci in bit i (R445). -/
def otpCheck (w : BitVec 39) : Word :=
  bitsWord 7 fun i => if i == 6 then w.getLsbD 0 else w.getLsbD (checkPositions.getD i 0)

/-- The codeword of a value. -/
def otpEncode (v : Word) : BitVec 39 :=
  let put := fun (w : BitVec 39) (p : Nat) (b : Bool) => if b then w ||| (BitVec.ofNat 39 (2 ^ p)) else w
  let d := (List.range 32).foldl (fun w i => put w (dataPositions.getD i 0) (v.getLsbD i)) (0 : BitVec 39)
  let syn := otpSyndrome d
  let c := (List.range 6).foldl (fun w i => put w (checkPositions.getD i 0) (syn.testBit i)) d
  put c 0 (otpParity c)

/-- What a reading gives: its value, whether a bit was corrected, whether it is uncorrectable (R423). -/
def otpJudge (w : BitVec 39) : Word × Bool × Bool :=
  let syn := otpSyndrome w
  if otpParity w then
    if Nat.blt 38 syn then (otpData w, false, true)
    else (otpData (w ^^^ BitVec.ofNat 39 (2 ^ syn)), true, false)
  else if syn == 0 then (otpData w, false, false)
  else (otpData w, false, true)

/-! ### The array -/

/-- The normal reading of a word, and its weak bits; the low reading shows a weak bit as 1.
(DESIGN CHOICE, log entry 27.) -/
def State.otpRaw (s : State) (a : Nat) : BitVec 39 := Sparse.get (fun _ => 0) s.tru.otp a
def State.otpWeak (s : State) (a : Nat) : BitVec 39 := Sparse.get (fun _ => 0) s.tru.weak a

/-- A word of the array takes a normal reading and weak bits. -/
def setOtp (a : Nat) (w weak : BitVec 39) (s : State) : State :=
  s.onTru fun t => { t with otp := Sparse.set (fun _ => 0) t.otp a w, weak := Sparse.set (fun _ => 0) t.weak a weak }

/-- An entry of source 0x04 (R440), and an event. -/
def truLog (ds : List Word) (s : State) : State := logEntry 4 ds s

/-- What START holds of a word: value, marks (corrected bit 31, weak 30, uncorrectable 29). -/
def setShadow (a : Nat) (v mark : Word) (s : State) : State :=
  s.onTru fun t => { t with
    shadow := Sparse.set (fun _ => 0) t.shadow a v, marks := Sparse.set (fun _ => 0) t.marks a mark }

/-- The marks of a word. -/
def State.otpMark (s : State) (a : Nat) : Word := Sparse.get (fun _ => 0) s.tru.marks a

/-- A word is used at its normal reading, corrected (R432, rows 1 and 4); `weak` is its weak mark. -/
def otpUse (a : Nat) (weak : Bool) (s : State) : State :=
  let j := otpJudge (s.otpRaw a)
  let mark := Word.ofNat (j.2.1.toNat * 2 ^ 31 + weak.toNat * 2 ^ 30 + j.2.2.toNat * 2 ^ 29)
  setShadow a j.1 mark (if j.2.1 then s.bumpSat F.TRU_WEAK.COR 1 else s)

/-- OTP_WEAK is logged for a word (R432). -/
def otpWeakLog (a : Nat) (s : State) : State :=
  let s := (s.raise F.TRU_STAT.OTP_WEAK).raise F.TRU_EVT.WEAK
  truLog [1, Word.ofNat a] ((s.put F.TRU_WEAK.WORD a).bumpSat F.TRU_WEAK.COUNT 1)

/-- The margin read of one word (R432, R433).
(DESIGN CHOICE, log entry 22.) -/
def otpReadWord (vpp : Bool) (a : Nat) (s : State) : State :=
  let weak := s.otpWeak a
  if weak == 0 then otpUse a false s
  else
    let low := s.otpRaw a ||| weak
    if vpp && otpSyndrome low == 0 && Nat.blt s.tru.reburns 8 then
      let left := Config.stillWeak s.free &&& weak
      let s := setOtp a (low &&& ~~~(left &&& Config.burnLeft s.free)) left (s.draw.onTru fun t => { t with reburns := t.reburns + 1 })
      if left == 0 then
        let s := (s.bumpSat F.TRU_WEAK.REBURNS 1).raise F.TRU_EVT.REBURN
        otpUse a false (truLog [2, Word.ofNat a] s)
      else otpUse a true (otpWeakLog a s)
    else otpUse a true (otpWeakLog a s)

/-- The addresses of the words that hold something or have a weak bit, in order. -/
def State.otpListed (s : State) : List Nat :=
  let ws := s.tru.otp.map (·.1)
  (List.range 1024).filter fun a => ws.contains a || (s.tru.weak.map (·.1)).contains a

/-! ### Regions (R424, R425) -/

/-- The words of a region as START found them, the integrity word last. -/
def State.regionWords (s : State) (r : Nat) : List Word := (List.range 64).map fun i => s.otpWord (64 * r + i)

/-- A region's state: 0 blank, 1 valid, 2 invalid; a blank vendor region counts as invalid.
(DEDUCED, log entry 60.) -/
def State.regionState (s : State) (r : Nat) : Nat :=
  let ws := s.regionWords r
  let bad := (List.range 64).any fun i => (s.otpMark (64 * r + i)).getLsbD 29
  let blank := !bad && ws.all (· == 0) && !s.tru.fuses.getLsbD r
  if blank then (if Nat.blt r 4 then 2 else 0)
  else if !bad && CrcKind.of .crc32 (wordsBytes (ws.take 63)) == ws.getD 63 0 then 1
  else 2

/-- TRU_RSTAT's two bits of a region. -/
def State.rstat (s : State) (r : Nat) : Nat := s.get ⟨A.TRU_RSTAT, 2 * r, 2⟩

/-- The key of a region (R437). -/
def State.keyOf (s : State) (r : Nat) : KeyReg :=
  let ws := s.regionWords r
  match s.regionState r with
  | 0 => .blank
  | 1 => if ((ws.drop 4).take 59).all (· == 0) then .key (wordsBytes (ws.take 4)) else .unusable
  | _ => .unusable

/-- A check with a key register: the first bytes of the CMAC; none without a usable key. -/
def KeyReg.tag : KeyReg → List Byte → Option (List Byte)
  | .key k, m => some (cmac k m)
  | _, _ => none

/-- The keys come into their registers (R437). -/
def keysLoad (s : State) : State :=
  let img := s.keyOf 4
  let host := s.keyOf 5
  let s := (s.putB F.TRU_STAT.IMGKEY (img != .blank)).putB F.TRU_STAT.HOSTKEY (host != .blank)
  let s := s.putB F.TRU_STAT.KEYBAD (img == .unusable || host == .unusable)
  (s.put F.TRU_STAT.KEYS_CLR 0).onTru fun t => { t with imgKey := img, hostKey := host }

/-- Both key registers are cleared (R438): from then on every image check fails, and so does a programmed host key's.
(DEDUCED, log entry 67.) -/
def keysClear (s : State) : State :=
  let gone := fun (k : KeyReg) => match k with | .blank => KeyReg.blank | _ => .unusable
  s.onTru fun t => { t with imgKey := .unusable, hostKey := gone t.hostKey }

/-- The vendor's trims and calibration come into use, when all four vendor regions are valid (R427).
(DESIGN CHOICE, log entry 23.) -/
def trimsLoad (s : State) : State :=
  let ok := [0, 1, 2, 3].all fun r => s.rstat r == 1
  let w := fun (i : Nat) => if ok then s.otpWord (192 + i) else 0
  let s := s.each (List.range 27) fun i s =>
    let s := s.put (F.MEAS_GAIN.GAIN i) ((w i).extractLsb' 16 16).toNat
    if i == 24 then s else s.put (F.MEAS_OFF.OFF i) ((w i).extractLsb' 0 16).toNat
  let w := if ok then Config.otpTrims (s.regionWords 1 ++ s.regionWords 2) else 0
  let s := s.setReg A.THM_TC w
  { s with ptr := { s.ptr with ktrim := some (s.ptr.ktrim.getD (F.THM_TC.KTRIM.read w)) } }

/-- The bindings of region 6 (R428). -/
def bindsLoad (s : State) : State :=
  if s.rstat 6 != 1 then s
  else s.each (List.range 20) fun i s =>
    let w := fun k => s.otpWord (386 + 3 * i + k)
    let slot := ((w 0).extractLsb' 0 6).toNat
    if slot == 0 || (w 1 == 0 && w 2 == 0) then s
    else (s.setReg (A.CHN_BIND_H slot) (w 1)).setReg (A.CHN_BIND_L slot) (w 2)

/-- Step 3 of R318: the margin read of the whole array, the regions, the keys, the trims, the bindings (R431 to R437). -/
def otpStart (vpp : Bool) (s : State) : State :=
  let s := s.onTru fun t => { t with shadow := [], marks := [], vpp := vpp, reburns := 0 }
  let s := s.each s.otpListed fun a s => otpReadWord vpp a s
  let st := (List.range 16).map s.regionState
  let bad := (List.range 16).filter fun r => st.getD r 0 == 2
  let bars := bad.filter fun r => Nat.blt r 4 || r == 7
  let gen := bad.any fun r => r == 6 || Nat.ble 8 r
  let s := s.each (List.range 16) fun r s => s.put ⟨A.TRU_RSTAT, 2 * r, 2⟩ (st.getD r 0)
  let s := (s.putB F.TRU_STAT.OTP_INCOMPLETE (!bars.isEmpty)).putB F.TRU_STAT.GEN_BAD gen
  let s := (s.raiseIf (!bad.isEmpty) F.TRU_EVT.REGION_BAD).put F.TRU_LOCKF.LF s.tru.fuses.toNat
  let s := s.each bad fun r s => truLog [3, Word.ofNat r] s
  let s := if bars.isEmpty then s else truLog [4, bitsWord 16 bars.contains] s
  let s := bindsLoad (trimsLoad (keysLoad s))
  let hide := fun (a : Nat) => !(Nat.ble 256 a && Nat.blt a 384)
  s.onTru fun t => { t with shadow := Sparse.keep hide t.shadow }

/-! ### Reading and programming (R429 to R435) -/

/-- TRU_OTP_ADDR of a path (R431). -/
def State.otpAddr (s : State) : Path → BitVec 10
  | .ink => s.tru.addrInk
  | .chain => s.tru.addrChain
  | .host => s.tru.addrHost

def setOtpAddr (p : Path) (a : BitVec 10) (s : State) : State :=
  s.onTru fun t => match p with
    | .ink => { t with addrInk := a } | .chain => { t with addrChain := a } | .host => { t with addrHost := a }

/-- A region is read-locked (R429). -/
def State.readLocked (s : State) (r : Nat) : Bool := (s.get F.OTP_LOCK.RL).testBit r

/-- A read of TRU_OTP_DATA (R431, R445): the word, TRU_OTP_CHK, and the path's next address.
(DEDUCED, log entry 54.) -/
def otpDataRead (p : Path) (s : State) : Word × State :=
  let a := (s.otpAddr p).toNat
  let locked := s.readLocked (a / 64)
  let v := if locked then 0 else s.otpWord a
  let chk : Word := if locked then 0x10000000 else s.otpMark a ||| otpCheck (s.otpRaw a)
  (v, setOtpAddr p (s.otpAddr p + 1) (s.setReg A.TRU_OTP_CHK chk))

/-- A programming or fuse request is refused with a code. -/
def prgRefuse (code : Nat) (s : State) : State := s.put F.TRU_PRG_STAT.RES code

/-- The refusals that name no word (R434): not in START, VPP absent, busy.
(DEDUCED, log entry 60.) -/
def State.prgBar (s : State) : Option Nat :=
  if s.ptr.dev != .start then some 1
  else if !s.tru.vpp then some 2
  else if s.bit F.TRU_PRG_STAT.BUSY then some 3
  else none

/-- A burn begins (R435). -/
def prgBegin (b : Burn) (s : State) : State :=
  ((s.raise F.TRU_PRG_STAT.BUSY).raise F.TRU_STAT.PRG_BUSY).onTru fun t => { t with burn := some b }

/-- GO with FUSE = 0 (R434).
(DEDUCED, log entry 60.) -/
def prgWord (p : Path) (s : State) : State :=
  let a := (s.otpAddr p).toNat
  let r := a / 64
  match s.prgBar with
  | some c => prgRefuse c s
  | none =>
    if Nat.blt r 4 then prgRefuse 5 s
    else if (s.get F.OTP_LOCK.PL).testBit r || s.tru.fuses.getLsbD r then prgRefuse 4 s
    else if s.otpRaw a != 0 || s.otpWeak a != 0 then prgRefuse 6 s
    else prgBegin (.word a (s.reg A.TRU_PRG_DATA)) s

/-- GO with FUSE = 1 (R435).
(DEDUCED, log entry 60.) -/
def prgFuse (s : State) : State :=
  match s.prgBar with
  | some c => prgRefuse c s
  | none =>
    let r := s.get F.TRU_PRG_CTRL.REGION
    if s.reg A.TRU_PRG_DATA != 0x0000F05E then prgRefuse 8 s
    else if s.tru.fuses.getLsbD r then prgRefuse 9 s
    else if (s.get F.OTP_LOCK.PL).testBit r then prgRefuse 4 s
    else prgBegin (.fuse r) s

/-- A write to TRU_PRG_CTRL: FUSE and REGION are stored, and GO = 1 starts (R434, R435). -/
def wrPrgCtrl (p : Path) (v : Word) (s : State) : State :=
  let s := s.plainWrite A.TRU_PRG_CTRL v
  if F.TRU_PRG_CTRL.GO.read v == 0 then s
  else if s.bit F.TRU_PRG_CTRL.FUSE then prgFuse s
  else prgWord p s

/-- VPP as the part last saw it. -/
def seeVpp (vpp : Bool) (s : State) : State := s.onTru fun t => { t with vpp := vpp }

/-- What a burn that failed its verify or was interrupted leaves (R434, R435).
(DESIGN CHOICE, log entry 22.) -/
def burnLeave (b : Burn) (s : State) : State :=
  let n := s.free
  match b with
  | .word a v =>
    let code := otpEncode v
    let got := Config.burnLeft n &&& code
    (setOtp a got (Config.burnWeak n &&& code) s).draw
  | .fuse r => (s.onTru fun t => { t with
      fuses := if (Config.burnLeft n).getLsbD 0 then t.fuses ||| BitVec.ofNat 16 (2 ^ r) else t.fuses }).draw

/-- A burn ends (R435). -/
def prgEnd (verifyOk : Bool) (s : State) : State :=
  match s.tru.burn with
  | none => s
  | some b =>
    let s := ((s.put F.TRU_PRG_STAT.BUSY 0).put F.TRU_STAT.PRG_BUSY 0).raise F.TRU_EVT.PRG_DONE
    let s := (s.put F.TRU_PRG_STAT.RES (if verifyOk then 0 else 7)).onTru fun t => { t with burn := none }
    if !verifyOk then burnLeave b s
    else match b with
      | .word a v =>
        let s := setOtp a (otpEncode v) 0 s
        let s := if Nat.ble 256 a && Nat.blt a 384 then s else setShadow a v 0 s
        truLog [8, Word.ofNat a] s
      | .fuse r =>
        let s := s.onTru fun t => { t with fuses := t.fuses ||| BitVec.ofNat 16 (2 ^ r) }
        truLog [7, Word.ofNat r] (s.put F.TRU_LOCKF.LF s.tru.fuses.toNat)

/-- NRST or a loss of power during a burn (R435). -/
def prgCut (s : State) : State :=
  match s.tru.burn with
  | none => s
  | some b => burnLeave b (s.onTru fun t => { t with burn := none })

/-- TRU_STAT as it reads. -/
def State.truStatView (s : State) : Word := F.TRU_STAT.VPP_OK.write (s.reg A.TRU_STAT) s.tru.vpp.toNat

/-! ### The test keys (R438) -/

/-- A write to TRU_TEST_SEL: 1 to 4, else refused. -/
def wrTestSel (v : Word) (s : State) : State :=
  let n := F.TRU_TEST_SEL.SEL.read v
  if Nat.ble 1 n && Nat.ble n 4 then s.put F.TRU_TEST_SEL.SEL n else s.raise F.TRU_EVT.TEST_REFUSED

/-- The sequence is cancelled. -/
def testCancel (s : State) : State := (s.put F.TRU_STAT.ARMED 0).raise F.TRU_EVT.TEST_REFUSED

/-- The first key: in START with TST high, a test selected and the sequence not begun, else out of order. -/
def testArm (s : State) : State :=
  if s.ptr.dev == .start && s.tru.tst && s.get F.TRU_TEST_SEL.SEL != 0 && !s.bit F.TRU_STAT.ARMED then
    s.raise F.TRU_STAT.ARMED
  else testCancel s

/-- TST as the part last saw it. -/
def seeTst (b : Bool) (s : State) : State := s.onTru fun t => { t with tst := b }

/-! ### Self-test and last orders (R441 to R443) -/

/-- The item after item `k`: the start-up form leaves out T5; 0 after the last (R441). -/
def nextItem (startUp : Bool) (k : Nat) : Nat :=
  if k == 0 then 0 else if startUp && k == 4 then 6 else if Nat.ble 6 k then 0 else k + 1

/-- The items begin. -/
def itemsBegin (s : State) : State :=
  s.onTru fun t => { t with item := 1, run := 0, fail := 0, detail := List.replicate 6 0 }

/-- The items are abandoned (R444). -/
def itemsStop (s : State) : State := s.onTru fun t => { t with item := 0 }

/-- Every item of the form was run and none failed (R442). -/
def State.itemsPass (s : State) (startUp : Bool) : Bool :=
  s.tru.run == (if startUp then 0x2F else 0x3F) && s.tru.fail == 0

/-- The detail word of the first failing item. -/
def State.firstDetail (s : State) : Word :=
  match (List.range 6).find? s.tru.fail.getLsbD with
  | some k => s.tru.detail.getD k 0
  | none => 0

/-- TRU_ST and TRU_ST_DET take a result. -/
def stWrite (pass src : Bool) (run fail : Nat) (det : Word) (s : State) : State :=
  (s.setReg A.TRU_ST (Word.ofNat (2 ^ 31 + pass.toNat * 2 ^ 30 + src.toNat * 2 ^ 29 + run % 64 * 256 + fail % 64))).setReg
    A.TRU_ST_DET det

/-- The result of the start-up self-test, or of test 4 (R439, R443). -/
def stReport (startUp : Bool) (s : State) : State :=
  let s := stWrite (s.itemsPass startUp) true s.tru.run.toNat s.tru.fail.toNat s.firstDetail s
  let s := s.raiseIf (s.tru.fail != 0) F.TRU_EVT.ST_FAIL
  if startUp then truLog [5, s.reg A.TRU_ST, s.reg A.TRU_ST_DET] (s.raise F.TRU_EVT.ST_DONE) else s

/-- T2 of last orders leaves all on-chip SRAM at zero (R372, R442): the Innkeeper memories, the rooms and staging, the STB
entries, the datapath and signal-path state. -/
def sramClear (s : State) : State :=
  let s := s.onInk fun k => { k with prog := [], data := [], bad := [] }
  let rooms := fun (q : PortSt) => { q with tx := [], rx := [] }
  let s := { s with
    north := rooms s.north
    south := rooms s.south
    net := { s.net with outbox := [], requests := [], bulkIn := [] }
    host := { s.host with results := [] }
    cel := { s.cel with staged := [], blocks := [] }
    sdp := { s.sdp with ch := List.replicate 25 default, streams := List.replicate 24 default, out := [] }
    imp := ImpSt.fresh }
  { s with regs := Sparse.keep (fun a => !(Nat.ble 0x1400 a && Nat.blt a 0x2000)) s.regs }

/-- The last-orders record is requested (R442). -/
def lastOrdersRecord (s : State) : State :=
  let w1 := Word.ofNat ((s.itemsPass false).toNat * 2 ^ 31 + s.tru.run.toNat * 256 + s.tru.fail.toNat)
  let t := s.timeNow
  let content := w1 :: timeWords t ++ padTo 0 6 s.tru.detail ++
    [s.tru.rstAtHalt, Word.ofNat ((s.reg (A.MEAS_HK 13)).toNat % 0x10000)]
  let s := { s with led := { s.led with q31 := some (padTo 0 62 content) } }
  (s.raiseIf (s.tru.fail != 0) F.TRU_EVT.ST_FAIL).onTru fun x => { x with recAt := t }

/-- The valid last-orders result, where there is one (R319): the words of its record. -/
def State.lastOrders (s : State) : Option (List Word) :=
  match s.boot.mark, ledNewest s.led.flash 0x31 with
  | some t, some p =>
    let ws := ledPos s.led.flash p
    if (ws.getD 1 0).getLsbD 31 && ws.getD 3 0 ++ ws.getD 2 0 == t then some ws else none
  | _, _ => none

/-- Step 4 of R318 (R443): the result is judged, and the mark cleared; a valid one fills TRU_ST, else the start-up
self-test runs. -/
def lastOrdersJudge (s : State) : State :=
  let r := s.lastOrders
  let s := { s with boot := { s.boot with mark := none } }
  match r with
  | some ws =>
    let w1 := ws.getD 1 0
    let s := stWrite (w1.getLsbD 31) false (w1.extractLsb' 8 6).toNat (w1.extractLsb' 0 6).toNat 0 s
    { s.raise F.STO_BOOT_STAT.LO_VALID with boot := { s.boot with step := .copyA } }
  | none =>
    let s := itemsBegin (s.raise F.STO_BOOT_STAT.SELFTEST)
    { s with boot := { s.boot with step := .selfTest } }

end Sys2Proof.Machine
end

