-- ==== Sys2Proof/Machine/Porter.lean ====
section
/-! DEFINITION. The Porter (spec/14_porter_and_power.md): device states, requests and RECOVER causes, power domains, the
shut-down sequence, wakes, resets, the thermal limits of R199 to R202, and what follows from one command in other blocks
(`settle`). The commands stand in Machine/Power.lean. -/

namespace Sys2Proof.Machine

/-- The Porter's hidden state changed. -/
def State.onPtr (s : State) (f : PtrSt → PtrSt) : State := { s with ptr := f s.ptr }

/-! ### State changes (R399, R400) -/

/-- The device enters a state; with D5 on, PTR_EVT.STATE is set. The Guard, the Traveller, the excitation and the
withholding of balancing follow (R58, R112, R187, R347, R356).
(DEDUCED, log entry 33.) -/
def setDev (d : DevState) (s : State) : State :=
  if s.ptr.dev == d then s
  else
    let was := s.grdJudging
    let sampled := [DevState.halt, .dormant, .standby].contains d
    let s := s.onPtr fun p => { p with dev := d, prev := p.dev, wakeHigh := if sampled then p.wakeHigh else 0 }
    balHold (excDrop (trvCheck (grdState was (s.raiseIf (s.on 5) F.PTR_EVT.STATE))))

/-- The event-log entry of the Porter (R418). -/
def ptrLog (s : State) : State :=
  logEntry 3 [s.reg A.PTR_RST, s.reg A.PTR_WAKE_CAUSE, Word.ofNat (16 * s.ptr.prev.code + s.ptr.dev.code), s.reg A.PTR_RCV] s

/-- Every function is disabled under R32 (R33, R405 step 1, R200 step 2). The phase controller comes first, so that of the
causes that end a window at once it is the lowest that is written (R129). -/
def disableAll (s : State) : State :=
  let s := sdpLeaveRun (impLeaveRun (balStop (phcStop s)))
  calAbort 2 (hkOff (arrayOff (satStop s)))

/-! ### Domains (R13 to R15, R408, R409) -/

/-- Domain `d` is switched on or off. -/
def setDom (d : Nat) (on : Bool) (s : State) : State :=
  s.onPtr fun p => { p with dom := if on then p.dom ||| BitVec.ofNat 10 (2 ^ d) else p.dom &&& ~~~(BitVec.ofNat 10 (2 ^ d)) }

/-- The prerequisites of a domain (R14). -/
def domNeeds : Nat → List Nat
  | 1 => [0]
  | 2 => [1, 4]
  | 3 => [1, 4]
  | 5 => [4]
  | 6 => [0]
  | 7 => [4, 5]
  | 8 => [4, 5]
  | 9 => [4, 5, 6]
  | _ => []

/-- The prerequisites of a domain are on. -/
def State.domReady (s : State) (d : Nat) : Bool := (domNeeds d).all s.on

/-- The domains that PTR_DOM controls. -/
def domSet : List Nat := [2, 3, 7, 8, 9]

/-- The present state marks a domain P (R13); loader mode keeps all of them off (R335). -/
def State.domMay (s : State) (d : Nat) : Bool :=
  match d with
  | 2 => s.inDev [.start, .run, .recover] && !s.bit F.STO_BOOT_STAT.LOADER
  | 3 => s.inDev [.start, .run, .recover] && !s.bit F.STO_BOOT_STAT.LOADER
  | 7 => s.inDev [.start, .run, .recover, .halt] && !s.bit F.STO_BOOT_STAT.LOADER
  | 8 => s.inDev [.start, .run, .recover, .halt] && !s.bit F.STO_BOOT_STAT.LOADER
  | 9 => s.inDev [.run, .recover]
  | _ => false

/-- A domain of PTR_DOM is to be on (R408); HALT holds D2 and D3 on (R13).
(DEDUCED, log entry 32.) -/
def State.domWant (s : State) (d : Nat) : Bool :=
  (s.domMay d && s.rbit A.PTR_DOM d) || (s.ptr.dev == .halt && (d == 2 || d == 3))

/-- A write to PTR_DOM: the request bits, and a dependency error for each newly requested domain that the state allows and
whose prerequisites are off (R15, R408).
(DEDUCED, log entry 33.) -/
def wrPtrDom (v : Word) (s : State) : State :=
  let bits := domSet.filter fun d => v.getLsbD d
  let bad := bits.any fun d => !s.rbit A.PTR_DOM d && s.domMay d && !s.domReady d
  let s := s.put F.PTR_DOM.REQ (bits.foldl (fun n d => n + 2 ^ d) 0)
  s.raiseIf bad F.PTR_EVT.DEP_ERR

/-- What switching on a domain brings about: the HK scan goes on (R51), a chain port may leave SILENT (R211), the phase
controller starts (R174). -/
def domTurnOn (d : Nat) (s : State) : State :=
  let s := setDom d true s
  match d with
  | 2 => banksBack s
  | 3 => banksBack s
  | 7 => linkLeave .north s
  | 8 => linkLeave .south s
  | 9 => if s.inDev [.run, .recover] && s.bit F.PHC_CTRL.EN then phcEnter s else s
  | _ => s

/-- What switching off a domain brings about first (R32, R50, R51, R76, R174). -/
def domTurnOff (d : Nat) (s : State) : State :=
  match d with
  | 2 => trvCheck (setDom 2 false (calAbort 2 s))
  | 3 => trvCheck (setDom 3 false (hkDomainOff s))
  | 7 => setDom 7 false (portGone .north s)
  | 8 => setDom 8 false (portGone .south s)
  | 9 => setDom 9 false (phcPowerOff s)
  | _ => setDom d false s

/-- A domain of PTR_DOM completes its switch-on: only where it is to be on and its prerequisites are.
(DEDUCED, log entry 32.) -/
def domOn (d : Nat) (s : State) : State :=
  if domSet.contains d && !s.on d && s.domWant d && s.domReady d then domTurnOn d s else s

/-- A domain of PTR_DOM completes its switch-off: only where it is not to be on; TEST keeps its domains (R492).
(DEDUCED, log entry 32.) -/
def domOff (d : Nat) (s : State) : State :=
  if domSet.contains d && s.on d && !s.domWant d && s.ptr.dev != .test then domTurnOff d s else s

/-! ### D5 and D6 switch on and off (R409, R422) -/

/-- The endpoint registers that lie in D0: those of R422 marked kept, and THM_SD (R202). -/
def keptRegs : List Nat :=
  [A.PTR_CFG, A.PTR_RST, A.PTR_WAKE_EN, A.PTR_WAKE_CAUSE, A.PTR_WCFG, A.PTR_ALARML, A.PTR_ALARMH, A.THM_SD]

/-- An address of a GRD register (R371).
(DEDUCED, log entry 8.) -/
def isGrd (a : Nat) : Bool := Nat.ble 0x0F00 a && Nat.blt a 0x1000

/-- Every D5 register but the kept ones returns to its reset value, and what the blocks of D5 hold is gone. Flash, OTP,
the mark of last orders and the pins stay.
(DEDUCED, log entry 34.) -/
def d5Lost (s : State) : State :=
  let s := { s with regs := Sparse.keep (fun a => keptRegs.contains a || isGrd a) s.regs }
  let s := s.put F.PTR_CFG.RCV_GRD 0
  { s with
    led := { (default : LedSt) with flash := s.led.flash, unsure := s.led.unsure }
    cel := default
    north := PortSt.fresh
    south := PortSt.fresh
    net := NetSt.fresh
    host := default
    ink := default
    boot := { s.boot with step := .none }
    tru := { (default : TruSt) with
      otp := s.tru.otp, weak := s.tru.weak, fuses := s.tru.fuses, tst := s.tru.tst, vpp := s.tru.vpp,
      detail := List.replicate 6 0 }
    meas := MeasSt.fresh
    trv := default
    ow := OwSt.fresh
    sdp := SdpSt.fresh
    imp := ImpSt.fresh
    phc := PhcSt.fresh
    bal := default
    thm := { ThmSt.fresh with closing := s.thm.closing, cooled := s.thm.cooled }
    sat := default }

/-- D6 is off: no GRD register and nothing of the Guard is held; the levels of the safety inputs come from outside. -/
def d6Lost (s : State) : State :=
  { s with regs := Sparse.keep (fun a => !isGrd a) s.regs, grd := { GrdSt.fresh with si := s.grd.si, floStops := s.grd.floStops } }

/-- TIME when D4 switches off: the D0 count goes on from its copy at the last KCLK edge (R420), which is less than 48,829
ticks old; before TVALID it has not been overwritten.
(DESIGN CHOICE, log entry 24.) -/
def d4Lost (s : State) : State :=
  if !s.on 4 || !s.bit F.PTR_STAT.TVALID then s
  else (s.onPtr fun p =>
    { p with time := BitVec.ofNat 64 (p.time.toNat - Config.sinceEdge s.free % 48829) }).draw

/-- The domains in `keep` alone stay on; what the others held is gone, and without D5 a start sequence is at an end (R322).
(DEDUCED, log entry 32.) -/
def domsOnly (keep : BitVec 10) (s : State) : State :=
  let s := d4Lost s
  let was := s.ptr.dom
  let s := s.onPtr fun p => { p with dom := p.dom &&& keep }
  let s := if keep.getLsbD 5 then s
    else if was.getLsbD 5 then d5Lost s else { s with boot := { s.boot with step := .none } }
  if keep.getLsbD 6 then s else d6Lost s

/-- D1, D5 and D6 switch on (R318 step 2): the Ledger is scanned and the entry to START is logged; D6 starts afresh where
it was off, and else gives up the events that waited (R17, R391, R418, R352). -/
def domsStart (s : State) : State :=
  let was6 := s.on 6
  let s := s.onPtr fun p => { p with dom := p.dom ||| 0x062 }
  let s := thmOn (if was6 then s else grdPowerOn s)
  grdDrain (ptrLog (ledgerScan (s.putB F.STO_LDR_STAT.FBUSY s.boot.flashOp.isSome)))

/-! ### Entry to START, DORMANT, STANDBY and OFF -/

/-- The device enters START; W is now (R318, R320). -/
def enterStart (s : State) : State :=
  let s := setDev .start s
  let s := { s with boot := { s.boot with step := .entry, wAt := s.ptr.time }, thm := { s.thm with cooled := false } }
  s.onPtr fun p => { p with wakeHeld := none, uvWake := false, hardHold := false, tones := 0, windowOut := false, haltStep := .none }

/-- All work ends at once, without tags (R33): the Ledger and a burn are cut (R393, R435), the domains but `keep` are off.
(DEDUCED, log entry 34.) -/
def cutAll (keep : BitVec 10) (s : State) : State :=
  let s := domsOnly keep (prgCut (ledgerCut s))
  let s := { s with thm := { s.thm with closing := false, cooled := false } }
  s.onPtr fun p => { p with wakeHeld := none, uvWake := false, tones := 0, windowOut := false, haltStep := .none }

/-- The device in DORMANT with all work ended. -/
def cutDormant (s : State) : State := setDev .dormant (cutAll 1 s)

/-- A device in which D0 has lost power (R400, R419): what flash and OTP hold, and the pins, are all that is left.
(DEDUCED, log entry 34.) -/
def coldState (s : State) : State :=
  { State.reset with
    led := { (default : LedSt) with flash := s.led.flash, unsure := s.led.unsure }
    grd := { GrdSt.fresh with si := s.grd.si, floStops := s.grd.floStops }
    boot := { (default : BootSt) with flash := s.boot.flash, flashOp := s.boot.flashOp }
    tru := { (default : TruSt) with
      otp := s.tru.otp, weak := s.tru.weak, fuses := s.tru.fuses, tst := s.tru.tst, vpp := s.tru.vpp,
      detail := List.replicate 6 0 }
    free := s.free
    pending := s.pending }

/-- Power rises (R400): START with PTR_RST.POR. -/
def powerUp (s : State) : State :=
  if s.ptr.dev != .off then s
  else
    let c := coldState s
    { c with boot := { c.boot with step := .entry },
             ptr := { c.ptr with dev := .start, prev := .off, dom := 1, vsup := s.ptr.vsup } }

/-- Power is lost (R400, R393): OFF, with no domain on. -/
def powerDown (s : State) : State :=
  if s.ptr.dev == .off then s
  else
    let was := s.ptr.dev
    let c := coldState (prgCut (ledgerCut s))
    { c with boot := { c.boot with step := .none },
             ptr := { c.ptr with dev := .off, prev := was, dom := 0 } }

/-! ### Requests and RECOVER causes (R401 to R404) -/

/-- A request or a clear is refused with a reason. -/
def reqRefuse (code : Nat) (s : State) : State := (s.put F.PTR_STAT.REFUSE code).raise F.PTR_EVT.REQ_REFUSED

/-- RECOVER begins: what ends with RUN ends (R102, R128), and the entry is logged (R418). -/
def enterRecover (s : State) : State := ptrLog (setDev .recover (sdpLeaveRun (impLeaveRun s)))

/-- A state change happens that others may meet in this cycle (R404).
(DESIGN CHOICE, log entry 29.) -/
def ranked (row : Nat) (s : State) : State := s.onPtr fun p => { p with won := some (row, p.time) }

/-- The row of R404 of the last state change of this cycle; above every row where there was none.
(DESIGN CHOICE, log entry 29.) -/
def State.winner (s : State) : Nat :=
  match s.ptr.won with
  | some (row, t) => if t == s.ptr.time then row else 10
  | none => 10

/-- An automatic RECOVER cause (R403): its bit sets in RUN and RECOVER, and RUN gives way to RECOVER. -/
def autoRecover (f : Fld) (s : State) : State :=
  match s.ptr.dev with
  | .run => ranked 8 (enterRecover ((s.raise f).raise F.PTR_EVT.RCV))
  | .recover => s.raise f
  | _ => s

/-- The causes that lost under R404 take effect when the device is in RUN again. -/
def owedTake (s : State) : State :=
  let ink := s.ptr.owedInk
  let grd := s.ptr.owedGrd
  let s := s.onPtr fun p => { p with owedInk := false, owedGrd := false }
  let s := if ink then autoRecover F.PTR_RCV.INK s else s
  if grd then autoRecover F.PTR_RCV.GRD s else s

/-- RUN begins (R403, R94, R98, R174), with the causes that waited for it (R404). -/
def enterRun (s : State) : State :=
  let fromStart := s.ptr.dev == .start
  let s := sdpEnterRun (setDev .run (s.setReg A.PTR_RCV 0))
  owedTake (if fromStart && s.on 9 && s.bit F.PHC_CTRL.EN then phcEnter s else s)

/-- HALT begins (R405 steps 1 to 3): functions are disabled, IMP windows with CAUSE 6, the Innkeeper stops, D2 and D3 are
on.
(DEDUCED, log entry 32.) -/
def enterHalt (standby lo : Bool) (s : State) : State :=
  let rst := s.reg A.PTR_RST
  let s := ranked 7 (ptrLog (setDev .halt (inkStopNow (disableAll (impLeaveRun s)))))
  let s := { s with boot := { s.boot with step := .none } }
  let s := (itemsStop s).onTru fun t => { t with rstAtHalt := rst }
  s.onPtr fun p => { p with haltTo := standby, haltLo := lo, haltStep := .drain, dom := p.dom ||| 0x00C }

/-- A request for RUN from START is refused (R402). -/
def State.runBar (s : State) : Option Nat :=
  if s.bit F.TRU_STAT.OTP_INCOMPLETE then some 1
  else if !s.inkRuns then some 2
  else if s.tru.tst then some 5
  else none

/-- A request loses under R404: to a Guard thermal shutdown that has begun, to TEST entry, or, being for RUN or RECOVER, to an
accepted HALT or an automatic cause of this cycle. A request for RUN meets that cause's bit instead (R402).
(DESIGN CHOICE, log entry 29.) -/
def State.reqLoses (s : State) (target : Nat) : Bool :=
  s.thm.closing || Nat.blt s.winner (match target with | 7 => 7 | 4 => 8 | _ => 9)

/-- A write to PTR_REQ (R401, R402, R404, R405).
(DESIGN CHOICE, log entry 29.) -/
def wrPtrReq (v : Word) (s : State) : State :=
  let target := F.PTR_REQ.TARGET.read v
  let standby := F.PTR_REQ.TO.read v == 1
  let lo := F.PTR_REQ.LO.read v == 1
  if F.PTR_REQ.KEY.read v != 0x5E then reqRefuse 4 s
  else if target != 4 && target != 5 && target != 7 then reqRefuse 4 s
  else if s.reqLoses target then reqRefuse 6 s
  else if target == s.ptr.dev.code then s
  else match s.ptr.dev, target with
    | .start, 4 => (match s.runBar with
      | some c => reqRefuse c s
      | none => enterRun s)
    | .recover, 4 => if s.bit F.PTR_RCV.INK || s.bit F.PTR_RCV.GRD then reqRefuse 3 s else enterRun s
    | .run, 5 => enterRecover (s.raise F.PTR_RCV.PROG)
    | .start, 7 => enterHalt standby lo s
    | .run, 7 => enterHalt standby lo s
    | .recover, 7 => enterHalt standby lo s
    | _, _ => reqRefuse 4 s

/-- A write of 1 to one bit of PTR_RCV (R403). -/
def rcvClearBit (f : Fld) (may : Bool) (v : Word) (s : State) : State :=
  if f.read v == 0 || !s.bit f then s else if may then s.put f 0 else reqRefuse 3 s

/-- A write to PTR_RCV (R403). -/
def wrPtrRcv (v : Word) (s : State) : State :=
  let grd := s.reg A.GRD_FLT == 0
  let ink := s.inkRuns
  rcvClearBit F.PTR_RCV.INK ink v (rcvClearBit F.PTR_RCV.GRD grd v (rcvClearBit F.PTR_RCV.PROG true v s))

/-- An automatic RECOVER cause loses (R404): its bit sets, and it waits for RUN.
(DESIGN CHOICE, log entry 29.) -/
def causeLost (f : Fld) (s : State) : State :=
  (s.raise f).onPtr fun p => if f == F.PTR_RCV.INK then { p with owedInk := true } else { p with owedGrd := true }

/-- An automatic cause that may lose under R404: in RUN or RECOVER to a Guard thermal shutdown that begins with it or is
under way, in the cycle of an accepted HALT to that.
(DESIGN CHOICE, log entry 29.) -/
def autoCause (lost : Bool) (f : Fld) (s : State) : State :=
  if lost && s.inDev [.run, .recover] then causeLost f s
  else if s.ptr.dev == .halt && s.winner == 7 && [DevState.run, .recover].contains s.ptr.prev then causeLost f s
  else autoRecover f s

/-- A write to PTR_WCFG: a WDEB of 0 stores 1 (R422). -/
def wrPtrWcfg (v : Word) (s : State) : State :=
  let s := s.plainWrite A.PTR_WCFG v
  if F.PTR_WCFG.WDEB.read v == 0 then s.put F.PTR_WCFG.WDEB 1 else s

/-! ### The shut-down sequence (R405, R407) -/

/-- Steps 6 and 7 of R405: the domains are off, the target state is entered, and a wake held meanwhile is accepted. -/
def haltOver (s : State) : State :=
  let held := s.ptr.wakeHeld.isSome
  let goal := if s.ptr.haltTo then DevState.standby else .dormant
  let s := setDev goal (domsOnly (if s.ptr.haltTo then 0x043 else 0x001) s)
  let s := s.onPtr fun p => { p with haltStep := .none, wakeHeld := none }
  if held then enterStart s else s

/-- The Ledger has nothing queued, written or erased, and no housekeeping is due (R405 step 4). -/
def State.ledIdle (s : State) : Bool :=
  ledQueued s == 0 && s.led.writing.isNone && s.led.erasing.isNone && s.led.retry.isEmpty &&
  !housekeepingDue s 0 && !housekeepingDue s 1

/-- Step 4 of R405 has ended: last orders follows, or the end of the sequence. -/
def haltDrained (s : State) : State :=
  if s.ptr.dev != .halt || s.ptr.haltStep != .drain || s.thm.closing || !s.ledIdle then s
  else if s.ptr.haltLo then itemsBegin (s.onPtr fun p => { p with haltStep := .lastOrders })
  else haltOver s

/-- Both chain ports are in SILENT: only then does T6 of last orders test them (R442). -/
def State.portsSilent (s : State) : Bool := s.linkState .north == 0 && s.linkState .south == 0

/-- A self-test item has ended (R441 to R443): it was run or not, it failed or not, with its detail word. T6 counts as run
only where no port was left out.
(DESIGN CHOICE, log entry 35.) -/
def itemOver (ran failed : Bool) (det : Word) (s : State) : State :=
  let k := s.tru.item
  if k == 0 then s
  else
    let startUp := s.boot.step == .selfTest
    let ran := ran && (k != 6 || startUp || s.portsSilent)
    let bad := ran && failed
    let bit := BitVec.ofNat 6 (2 ^ (k - 1))
    let s := s.onTru fun t => { t with
      item := nextItem startUp k,
      run := if ran then t.run ||| bit else t.run,
      fail := if bad then t.fail ||| bit else t.fail,
      detail := t.detail.set (k - 1) (if bad then det else 0) }
    let s := if k == 2 && !startUp then sramClear s else s
    if s.tru.item != 0 then s
    else if startUp then { stReport true s with boot := { s.boot with step := .copyA } }
    else if s.ptr.dev == .test then stReport false s
    else (lastOrdersRecord s).onPtr fun p => { p with haltStep := .record }

/-- The sequence ends once the Ledger has nothing more that it can write (R393, R405).
(DEDUCED, log entry 66.) -/
def haltEnd (s : State) : State :=
  if s.ptr.dev == .halt && s.ptr.haltStep == .final && !s.thm.closing && s.led.writing.isNone && s.led.erasing.isNone &&
      ledJob (ledTurn 1 (ledTurn 0 s)) == .none then haltOver s
  else s

/-- Last orders has its record, or has lost it: what is still queued is written before the sequence ends (R393, R405). -/
def haltFinal (s : State) : State :=
  if s.ptr.dev == .halt && s.ptr.haltStep == .record && !s.thm.closing then
    s.onPtr fun p => { p with haltStep := .final }
  else s

/-- The last-orders record is written: the mark is set, and the sequence comes to its end (R442, R405). -/
def markSet (s : State) : State := haltFinal { s with boot := { s.boot with mark := some s.tru.recAt } }

/-- The last-orders record was discarded (R391): no mark, and the sequence comes to its end. -/
def recordLost (s : State) : State := haltFinal s

/-! ### Wakes (R407, R412 to R415) -/

/-- TIME has reached the alarm (R413). -/
def State.alarmed (s : State) : Bool :=
  Nat.ble (s.reg A.PTR_ALARMH ++ s.reg A.PTR_ALARML : BitVec 64).toNat s.ptr.time.toNat

/-- The enabled sources asserted at a KCLK edge (R370, R413): WAKE after WDEB samples, the window, the wake tones, the alarm,
and in STANDBY the Guard's request.
(DESIGN CHOICE, log entry 31.) -/
def State.wakeSources (s : State) : BitVec 6 :=
  let outside := (if Nat.ble (s.get F.PTR_WCFG.WDEB) s.ptr.wakeHigh then (0x01 : BitVec 6) else 0) ||| (s.ptr.tones.zeroExtend 6 <<< 2) |||
    (if s.ptr.dev == .standby && s.grd.wakeReq then 0x20 else 0)
  let held := (if s.ptr.windowOut then (0x02 : BitVec 6) else 0) ||| (if s.alarmed then 0x10 else 0)
  (outside ||| held) &&& BitVec.ofNat 6 (s.get F.PTR_WAKE_EN.EN)

/-- After the Porter hard limit no wake is accepted until the sensor of D0 reads below 135 °C (R201, R415).
(DESIGN CHOICE, log entry 31.) -/
def hardEase (cool : Bool) (s : State) : State :=
  if cool then s.onPtr fun p => { p with hardHold := false } else s

/-- A sample of the WAKE pin is counted (R413).
(DESIGN CHOICE, log entry 31.) -/
def wakeSample (pin : Bool) (s : State) : State :=
  if s.inDev [.halt, .dormant, .standby] then s.onPtr fun p => { p with wakeHigh := if pin then p.wakeHigh + 1 else 0 } else s

/-- A KCLK edge: a wake is accepted, or held in HALT, the first one alone (R407, R413); not while NRST is low (R416).
(DESIGN CHOICE, log entry 31.) -/
def wakeTake (o : WakeObs) (s : State) : State :=
  let s := wakeSample o.pin (hardEase o.cool s)
  let src := s.wakeSources
  if !s.inDev [.halt, .dormant, .standby] || s.ptr.nrstLow || s.thm.closing || s.ptr.hardHold ||
      s.ptr.wakeHeld.isSome || src == 0 then s
  else
    let s := (s.put F.PTR_WAKE_CAUSE.CAUSE src.toNat).onPtr fun p => { p with tones := 0 }
    if s.ptr.dev == .halt then
      (s.raise F.PTR_EVT.WAKE_HELD).onPtr fun p => { p with wakeHeld := some src }
    else enterStart s

/-- The VSTK window check (R414); `vstk` in mV.
(DESIGN CHOICE, log entry 72.) -/
def windowCheck (vstk : Nat) (s : State) : State :=
  if s.inDev [.halt, .dormant, .standby] then
    let out := Nat.blt vstk (500 * s.get F.PTR_WCFG.VLO) || Nat.blt (500 * s.get F.PTR_WCFG.VHI) vstk
    s.onPtr fun p => { p with windowOut := out }
  else s

/-- VSTK has stayed above 10.0 V for 1.000 s after an undervoltage (R412).
(DESIGN CHOICE, log entry 31.) -/
def uvRecover (s : State) : State :=
  if s.ptr.dev == .dormant && s.ptr.uvWake && !s.ptr.nrstLow && !s.ptr.hardHold then
    enterStart (s.put F.PTR_WAKE_CAUSE.CAUSE s.wakeSources.toNat)
  else s

/-- STBY_MAX minutes have passed in STANDBY (R400): DORMANT. -/
def standbyOver (s : State) : State :=
  if s.ptr.dev == .standby && s.get F.PTR_CFG.STBY_MAX != 0 && !s.thm.closing then
    let s := setDev .dormant (domsOnly 1 s)
    { s with thm := { s.thm with cooled := false } }
  else s

/-! ### Abrupt ends and resets (R201, R410, R412, R416, R417) -/

/-- The start-up regulator has stayed at its limit for 1 ms (R410).
(DEDUCED, log entry 33.) -/
def supplyOver (s : State) : State :=
  if s.inDev [.off, .dormant] || s.ptr.vsup then s
  else ((cutDormant s).raise F.PTR_RST.SUP_LIM).raise F.PTR_EVT.SUP_LIM

/-- VSTK has stayed below 9.0 V for 100 µs (R412). -/
def underVoltage (s : State) : State :=
  if s.inDev [.off, .dormant] then s
  else ((cutDormant s).raise F.PTR_RST.VSTK_UV).onPtr fun p => { p with uvWake := true }

/-- The Porter hard limit (R201). -/
def hardLimit (s : State) : State :=
  if s.ptr.dev == .off then s
  else
    let aborted := s.led.writing.isSome
    let uv := s.ptr.uvWake
    let s := (cutDormant s).raise F.THM_SD.P165
    (s.raiseIf aborted F.THM_SD.LDG_ABORT).onPtr fun p => { p with hardHold := true, uvWake := uv }

/-- NRST has reset the device (R416 steps 1 to 3): of the registers only PTR_RST, PTR_WAKE_CAUSE and THM_SD keep their
value. The device stands at the entry to START until NRST rises.
(DEDUCED, log entry 30.) -/
def nrstReset (s : State) : State :=
  if s.ptr.dev == .off || s.ptr.nrstLow then s
  else
    let was := s.ptr.dev
    let s := (setDev .start (d5Lost (cutAll 1 s))).onPtr fun p => { p with prev := was }
    let s := { s with regs := Sparse.keep [A.PTR_RST, A.PTR_WAKE_CAUSE, A.THM_SD].contains s.regs }
    let s := (s.raise F.PTR_RST.NRST).bumpSat F.PTR_RST.COUNT 1
    s.onPtr fun p => { p with nrstLow := true, hardHold := false, owedInk := false, owedGrd := false, ktrim := none, holdInk := 0, holdChain := 0, holdHost := 0 }

/-- NRST rises (R416 step 5).
(DEDUCED, log entry 30.) -/
def nrstRise (s : State) : State :=
  if s.ptr.nrstLow then enterStart (s.onPtr fun p => { p with nrstLow := false }) else s

/-- NRST has stayed low for 8.000 s (R417). -/
def nrstHeld (s : State) : State := if s.ptr.nrstLow then s.raise F.PTR_RST.NRST_STUCK else s

/-! ### The Guard thermal shutdown (R199, R200) -/

/-- Steps 1 and 2 of R200; items of a self-test are abandoned (R444). -/
def thermalBegin (s : State) : State :=
  if s.inDev [.off, .dormant, .standby] || s.thm.closing then s
  else
    let s := itemsStop (inkStopNow (disableAll s))
    { s with thm := { s.thm with closing := true }, boot := { s.boot with step := .none } }

/-- Steps 3 and 4 of R200: the record being written completes, the rest of the Ledger's work is given up, and the device
is in STANDBY. -/
def thermalEnd (s : State) : State :=
  if !s.thm.closing then s
  else
    let writing := s.led.writing.map (·.item)
    let v := s.led.writing.map fun w => w.words.getD 1 0
    let at21 := writing == some (.record 0x21)
    let s := ledgerThermal s
    let s := if at21 then commitDone (v.getD 0) s else commitLost s
    let s := if writing == some (.record 0x31) then { s with boot := { s.boot with mark := some s.tru.recAt } } else s
    let s := prgCut s
    let s := (setDev .standby (domsOnly 0x043 s)).raise F.THM_SD.G150
    let s := s.onPtr fun p => { p with haltStep := .none, wakeHeld := none }
    { s with thm := { s.thm with closing := false, cooled := true } }

/-- Step 5 of R200. -/
def thermalCool (s : State) : State := if s.ptr.dev == .standby && s.thm.cooled then enterStart s else s

/-- The die comparator trips while its fault is latched from before: the shutdown begins again (R199).
(DEDUCED, log entry 58.) -/
def dieTrip (m : GuardSample) (s t : State) : State :=
  if m.c == .die && s.filtTrips m && s.rbit A.GRD_FLT 4 then thermalBegin t else t

/-- The Guard's comparators take samples, in order (R345, R346, R199). -/
def guardSees (ms : List GuardSample) (s : State) : State := s.each ms fun m s => dieTrip m s (guardSample m s)

/-! ### Entry to TEST (R438, R439, R492) -/

/-- The domains of TEST by the selected test (R492). -/
def testDoms : Nat → BitVec 10
  | 3 => 0x27F
  | 4 => 0x3FF
  | _ => 0x073

/-- Step 7 of R438: TEST and its domains; with test 4 the items begin (R439). -/
def enterTest (s : State) : State :=
  let sel := s.get F.TRU_TEST_SEL.SEL
  let keep := testDoms sel
  let s := disableAll s
  let s := ranked 6 (setDev .test { s with boot := { s.boot with step := .none } })
  let s := s.each domSet fun d s => if s.on d && !keep.getLsbD d then domTurnOff d s else s
  let s := s.onPtr fun p => { p with dom := p.dom ||| keep }
  if sel == 4 then itemsBegin s else itemsStop s

/-- Step 5 of R438: the key registers are cleared, and KEYS_CLR says so where they read back as zero. -/
def keysStep (zero : Bool) (s : State) : State :=
  let s := keysClear s
  if zero then s.raise F.TRU_STAT.KEYS_CLR else s

/-- Steps 4 to 7 of R438 in turn, cancelled where the readback is not zero or where TST falls first.
(DEDUCED, log entry 67.) -/
def testSteps (o : UnlockObs) (s : State) : State :=
  if Nat.blt o.done 4 then testCancel (seeTst false s)
  else
    let s := inkStopNow s
    if Nat.blt o.done 5 then testCancel (seeTst false s)
    else
      let s := keysStep o.zeroReadback s
      if !o.zeroReadback then testCancel s
      else if Nat.blt o.done 6 then testCancel (seeTst false s)
      else
        let s := truLog [6, s.reg A.TRU_TEST_SEL] s
        if Nat.blt o.done 7 then testCancel (seeTst false s) else enterTest (s.put F.TRU_STAT.ARMED 0)

/-- The second test key (R438): in order only after the first, with TST high, in START.
(DEDUCED, log entry 67.) -/
def testUnlock (o : UnlockObs) (s : State) : State :=
  if !s.bit F.TRU_STAT.ARMED || !s.tru.tst || s.ptr.dev != .start then testCancel s else testSteps o s

/-- A write to TRU_TEST_KEY (R438): any other value is out of order.
(DEDUCED, log entry 67.) -/
def wrTestKey (v : Word) (o : UnlockObs) (s : State) : State :=
  match F.TRU_TEST_KEY.KEY.read v with
  | 0x7E57 => testArm s
  | 0xA11C => testUnlock o s
  | _ => testCancel s

/-! ### What follows from a command in other blocks -/

/-- Pairs whose demand the command began (R350). -/
def settleDemands (s : State) (t : State) : State :=
  t.each ([0, 1, 2, 3].filter fun k => t.demanding k && !s.demanding k) demandBegan

/-- Automatic RECOVER causes (R403) and the Guard thermal shutdown (R200) that the command brought about.
(DESIGN CHOICE, log entry 29; DEDUCED, log entry 58.) -/
def settleCauses (s : State) (t : State) : State :=
  let new := t.reg A.GRD_FLT &&& ~~~(s.reg A.GRD_FLT)
  let lost := new.getLsbD 4 || t.thm.closing
  let t := if new != 0 && t.bit F.PTR_CFG.RCV_GRD then autoCause lost F.PTR_RCV.GRD t else t
  let t := if t.ink.state == .halted && s.ink.state != .halted then autoCause lost F.PTR_RCV.INK t else t
  if new.getLsbD 4 then thermalBegin t else t

/-- What follows at once from a command that took `s` to `t`: demands, RECOVER causes and the thermal shutdown,
completions of broadcasts (R307), and the Guard's status changes (R340, R366, R367). -/
def settle (s : State) (t : State) : State := grdSettle (bcastSettle (settleCauses s (settleDemands s t)))

/-- The outcome of a command: the next state, settled.
(DEDUCED, log entry 74.) -/
def done (s : State) (t : State) : Result := .next (settle s t)

end Sys2Proof.Machine
end

