-- ==== Sys2Proof/Machine/Endpoint.lean ====
section
/-! DEFINITION. Endpoint accesses (spec/18_endpoint_map.md, R6, R303, R304, R309, R484 to R491): the value each register
reads as, the side effects of reads, the effect of a write on every register, and a whole request on the local space. -/

namespace Sys2Proof.Machine

/-- The index of an address among `count` registers `stride` apart. -/
def regIdx (base stride count a : Nat) : Option Nat :=
  if Nat.ble base a && (a - base) % stride == 0 && Nat.blt ((a - base) / stride) count then some ((a - base) / stride)
  else none

/-! ### Values as they read -/

/-- PTR_STAT, PTR_DOM_STAT (R399, R408, R410). -/
def State.ptrStatView (s : State) : Word :=
  F.PTR_STAT.STATE.write (F.PTR_STAT.VSUP.write (s.reg A.PTR_STAT) s.ptr.vsup.toNat) s.ptr.dev.code

/-- The TIME value a path holds for PTR_TIMEH (R421). -/
def State.timeHold (s : State) : Path → Word
  | .ink => s.ptr.holdInk
  | .chain => s.ptr.holdChain
  | .host => s.ptr.holdHost

/-- CHN_HOST_STAT (R265): posted commands outstanding, and completed and not fetched.
(DEDUCED, log entry 42.) -/
def State.hostPosted (s : State) : Nat :=
  (s.net.requests.filter fun r => match r.who with | .host _ => true | _ => false).length
def State.hostStatView (s : State) : Word :=
  F.CHN_HOST_STAT.DONE.write (F.CHN_HOST_STAT.POSTED.write (s.reg A.CHN_HOST_STAT) s.hostPosted) s.host.results.length

/-- The value of a PTR, THM or TRU register. -/
def State.viewPtr (s : State) (p : Path) (a : Nat) : Word :=
  if a == A.PTR_STAT then s.ptrStatView
  else if a == A.PTR_DOM_STAT then s.ptr.dom.zeroExtend 32
  else if a == A.PTR_TIMEL then s.timeNow.extractLsb' 0 32
  else if a == A.PTR_TIMEH then (if s.bit F.PTR_STAT.TVALID then s.timeHold p else 0)
  else if a == A.THM_TC then s.thmTcView
  else if a == A.TRU_STAT then s.truStatView
  else if a == A.TRU_OTP_ADDR then (s.otpAddr p).zeroExtend 32
  else s.reg a

/-- The value of an SDP register (R93, R94). -/
def State.viewSdp (s : State) (a : Nat) : Word :=
  if a == A.SDP_STAT then s.sdpStatView
  else if a == A.SDP_SET_TSL || a == A.SDP_SET_TSH || a == A.SDP_SETFLG then s.setView a
  else match regIdx (A.SDP_RES 0) 1 25 a with
    | some n => s.resView n
    | none => s.reg a

/-- The value of an IMP register. -/
def State.viewImp (s : State) (a : Nat) : Word :=
  if a == A.IMP_STAT then s.impStatView
  else if a == A.IMP_FB_STAT then s.fbStatView
  else match regIdx (A.IMP_CTX_STAT 0) 4 160 a with
    | some c => s.ctxStatView c
    | none => s.reg a

/-- The value of a CHN register. -/
def State.viewChn (s : State) (a : Nat) : Word :=
  if a == A.CHN_NET_EVT then s.netEvt
  else if a == A.CHN_TIME_STAT then F.CHN_TIME_STAT.LOCK.write (s.reg A.CHN_TIME_STAT) s.lock.toNat
  else if a == A.CHN_HOST_STAT then s.hostStatView
  else s.reg a

/-- The value of an INK register (R308, R310, R317). -/
def State.viewInk (s : State) (a : Nat) : Word :=
  if a == A.INK_STAT then s.inkStatView
  else if a == A.INK_EPEND then s.epend
  else if a == A.INK_XCPL then cplWord s.ink.cpl.head?
  else if a == A.INK_XSTAT then s.inkXstatView
  else if a == A.INK_SAFE then s.inkSafeView
  else s.reg a

/-- The value of a STO register. -/
def State.viewSto (s : State) (a : Nat) : Word :=
  if a == A.STO_EVT then s.stoEvt
  else if a == A.STO_LDG_STAT then F.STO_LDG_STAT.QUEUED.write (s.reg A.STO_LDG_STAT) (ledQueued s)
  else if a == A.STO_LDG_RD then (ledgerRead s).1
  else s.reg a

/-- The value an endpoint reads as on a path, before any side effect. -/
def State.view (s : State) (p : Path) (a : Nat) : Word :=
  if isMailbox a then s.dataWord (a)
  else if Nat.blt a 0x0200 then s.viewPtr p a
  else if a == A.MEAS_STAT then s.measStatView
  else if Nat.blt a 0x0400 then s.reg a
  else if Nat.blt a 0x0800 then s.viewSdp a
  else if Nat.blt a 0x0C00 then s.viewImp a
  else if a == A.PHC_IOUT then s.phcIoutView
  else if a == A.BAL_STAT then s.balStatView
  else if a == A.GRD_STAT then s.grdStatView
  else if a == A.GRD_LOOP then s.grdLoopView
  else if Nat.blt a 0x1000 then s.reg a
  else if Nat.blt a 0x1400 then s.viewChn a
  else if Nat.blt a 0x2100 then s.reg a
  else if Nat.blt a 0x2200 then s.viewInk a
  else s.viewSto a

/-! ### Reads (R488) -/

/-- A path's PTR_TIMEH holding register takes TIME[63:32] (R421). -/
def timeTake (p : Path) (s : State) : State :=
  let h := s.timeNow.extractLsb' 32 32
  s.onPtr fun x => match p with
    | .ink => { x with holdInk := h } | .chain => { x with holdChain := h } | .host => { x with holdHost := h }

/-- A read of PTR_TIMEL (R421). -/
def timelRead (p : Path) (s : State) : Word × State := (s.timeNow.extractLsb' 0 32, timeTake p s)

/-- A read of an endpoint that is not reserved: its value, and the side effects of R488 (that of INK_XCPL belongs to LDE
alone). -/
def epRead (p : Path) (a : Nat) (s : State) : Word × State :=
  if a == A.PTR_TIMEL then timelRead p s
  else if a == A.TRU_OTP_DATA then otpDataRead p s
  else if a == A.STO_LDG_RD then ledgerRead s
  else match regIdx (A.SDP_RES 0) 1 25 a with
    | some n => (s.resView n, resMark n s)
    | none => (s.view p a, s)

/-! ### Writes (R6, R304) -/

/-- The head's base schedule (R250): refused less than 1.0 ms ahead; else NET_ROUTE carries it, at the end of the search
where one is under way.
(DEDUCED, log entry 49.) -/
def schedule (s : State) : State :=
  let act := (s.reg A.CHN_EPOCH_ACTH ++ s.reg A.CHN_EPOCH_ACTL : BitVec 64).toNat
  if !s.net.headNow then s
  else if Nat.blt act (s.timeNow.toNat + 100000) then s.raise F.CHN_NET_EVT.CFG_REFUSED
  else
    let s := { s with net := { s.net with basePending := true } }
    if s.net.search.step == .idle then headRun headFuel (sendSet s) else s.onSearch fun x => { x with again := true }

/-- A search asked for by the program (R240). -/
def searchWrite (s : State) : State :=
  if !s.net.headNow || s.bit F.CHN_NET_STAT.SRCH_BUSY then s else headBegin true s

/-- A write to CHN_NET_CTRL (R231, R240, R250). -/
def wrNetCtrl (v : Word) (s : State) : State :=
  let s := s.plainWrite A.CHN_NET_CTRL v
  let s := if F.CHN_NET_CTRL.SRCH.read v == 1 then searchWrite s else s
  if F.CHN_NET_CTRL.SCHED.read v == 1 then schedule s else s

/-- A plain write, and 1 stored in a field written 0 (R265). -/
def wrNonzero (a : Nat) (f : Fld) (v : Word) (s : State) : State :=
  let s := s.plainWrite a v
  if f.read v == 0 then s.put f 1 else s

/-- A write to STB_CFGe: LOST clears when EN is set (R265). -/
def wrStbCfg (e : Nat) (v : Word) (s : State) : State :=
  let was := s.bit (F.STB_CFG.EN e)
  let s := s.plainWrite (A.STB_CFG e) v
  if !was && s.bit (F.STB_CFG.EN e) then s.put (F.STB_STAT.LOST e) 0 else s

/-- A write to INK_ENTRY: locked while STATE is 1 or 2 (R317).
(DEDUCED, log entry 54.) -/
def wrInkEntry (v : Word) (s : State) : State := if s.inkRuns then s else s.plainWrite A.INK_ENTRY v

/-- A write of a mailbox word (R309): by the chain and the host port it sets MBX, ADDR and COUNT. -/
def wrMailbox (p : Path) (a : Nat) (v : Word) (s : State) : State :=
  let s := setData (a) v s
  if p == .ink then s
  else ((s.raise F.INK_EVT.MBX).put F.INK_MBXA.ADDR a).bump F.INK_MBXA.COUNT 1

/-- Writes of PTR, THM and TRU registers. -/
def wrPtrRange (p : Path) (a : Nat) (v : Word) (s : State) : State :=
  if a == A.PTR_REQ then wrPtrReq v s
  else if a == A.PTR_DOM then wrPtrDom v s
  else if a == A.PTR_RCV then wrPtrRcv v s
  else if a == A.PTR_WCFG then wrPtrWcfg v s
  else if a == A.THM_CTRL then wrThmCtrl v s
  else if a == A.THM_LIM then wrThmLim v s
  else if a == A.THM_ROR then wrThmRor v s
  else if a == A.THM_XCHK then wrThmXchk v s
  else if a == A.THM_FAIL then wrThmFail v s
  else if a == A.TRU_OTP_ADDR then setOtpAddr p (v.extractLsb' 0 10) s
  else if a == A.TRU_PRG_CTRL then wrPrgCtrl p v s
  else if a == A.TRU_TEST_SEL then wrTestSel v s
  else if a == A.TRU_TEST_KEY then wrTestKey v ⟨true, 7⟩ s
  else s.plainWrite a v

/-- Writes of MEAS registers. A PERIOD of 0 is stored as it is written, and acts as 1 (R73).
(DESIGN CHOICE, log entry 76.) -/
def wrMeasRange (a : Nat) (v : Word) (s : State) : State :=
  if a == A.MEAS_CTRL then wrMeasCtrl v s
  else if a == A.MEAS_CH_EN then wrChEn v s
  else if a == A.MEAS_REF then wrMeasRef v s
  else if a == A.MEAS_TRIG then wrMeasTrig v s
  else if a == A.MEAS_CAL then wrMeasCal v s
  else if a == A.MEAS_TRV_CTRL then wrTrvCtrl v s
  else if a == A.MEAS_TRV_TOL then wrTrvTol v s
  else if a == A.MEAS_CONV_FAIL then wrConvFail v s
  else if a == A.MEAS_HK_INJ then wrHkInj v s
  else if a == A.MEAS_OW_CTRL then wrOwCtrl v s
  else if a == A.MEAS_OW_CFG then wrOwCfg v s
  else if a == A.MEAS_SNAP then wrSnap v s
  else if a == A.MEAS_OFF 24 then s
  else s.plainWrite a v

/-- Writes of SDP registers. -/
def wrSdpRange (a : Nat) (v : Word) (s : State) : State :=
  if a == A.SDP_CFG then wrSdpCfg v s
  else if a == A.SDP_CH_EN then wrSdpChEn v s
  else if a == A.SDP_ACC_CTRL then wrAccCtrl v s
  else match regIdx (A.SDP_SCFG 0) 1 24 a, regIdx (A.SDP_SMASK 0) 1 24 a with
    | some n, _ => wrScfg n v s
    | none, some n => wrSmask n v s
    | none, none => s.plainWrite a v

/-- Writes of IMP registers. -/
def wrImpRange (a : Nat) (v : Word) (s : State) : State :=
  if a == A.IMP_CTRL then wrImpCtrl v s
  else if a == A.IMP_GRID then wrImpGrid v s
  else if a == A.IMP_RSHUNT then wrImpRshunt v s
  else if a == A.IMP_FB_CTRL then wrFbCtrl v s
  else if a == A.IMP_FB_TONE then wrFbTone v s
  else if a == A.IMP_FB_RBAL then wrFbRbal v s
  else match regIdx (A.IMP_TONE 0) 1 6 a, regIdx (A.IMP_TWIN 0) 1 6 a, regIdx (A.IMP_CTX_CFG 0) 4 160 a with
    | some t, _, _ => wrTone t v s
    | none, some t, _ => wrTwin t v s
    | none, none, some c => wrCtxCfg c v s
    | none, none, none => s.plainWrite a v

/-- Writes of PHC and BAL registers. -/
def wrPhcRange (a : Nat) (v : Word) (s : State) : State :=
  if a == A.PHC_CTRL then wrPhcCtrl v s
  else if a == A.PHC_VSET then wrPhcVset v s
  else if a == A.PHC_FSW then wrPhcFsw v s
  else if a == A.PHC_COMP then wrPhcComp v s
  else if a == A.PHC_SLOPE then wrPhcSlope v s
  else if a == A.PHC_RSENSE then wrPhcRsense v s
  else if a == A.PHC_SCLIM then wrPhcSclim v s
  else if a == A.PHC_OLIM then wrPhcOlim v s
  else if a == A.PHC_SS then wrPhcSs v s
  else if a == A.PHC_SHED then wrPhcShed v s
  else if a == A.PHC_TRIMCFG then wrPhcTrimcfg v s
  else if a == A.PHC_SHARE then wrPhcShare v s
  else if a == A.PHC_SHARE_CFG then wrPhcShareCfg v s
  else if a == A.BAL_CTRL then wrBalCtrl v s
  else match regIdx (A.PHC_TRIM 0) 1 6 a with
    | some x => wrPhcTrim x v s
    | none => s.plainWrite a v

/-- Writes of GRD registers. -/
def wrGrdRange (a : Nat) (v : Word) (s : State) : State :=
  if a == A.GRD_FLT then wrGrdFlt v s
  else if a == A.GRD_COMMIT then wrGrdCommit v s
  else if a == A.GRD_UNLK then wrGrdUnlk v s
  else s.plainWrite a v

/-- Writes of CHN registers: NB and ACT are written in the head alone (R265). -/
def wrChnRange (a : Nat) (v : Word) (s : State) : State :=
  if a == A.CHN_P_CTRL 0 then wrPortCtrl .north v s
  else if a == A.CHN_P_CTRL 1 then wrPortCtrl .south v s
  else if a == A.CHN_P_EQ 0 then wrPortEq .north v s
  else if a == A.CHN_P_EQ 1 then wrPortEq .south v s
  else if a == A.CHN_NET_CTRL then wrNetCtrl v s
  else if a == A.CHN_NET_CFG then wrNonzero a F.CHN_NET_CFG.TMO v s
  else if Nat.ble A.CHN_EPOCH_NBL a && Nat.ble a A.CHN_EPOCH_ACTH then (if s.net.headNow then s.plainWrite a v else s)
  else match regIdx (A.CHN_MIR_A 0) 2 16 a, regIdx (A.CHN_MIR_P 0) 2 16 a with
    | some n, _ => wrNonzero a (F.CHN_MIR_A.COUNT n) v s
    | none, some n => wrNonzero a (F.CHN_MIR_P.PERIOD n) v s
    | none, none => s.plainWrite a v

/-- Writes of STB, SAT and INK registers. -/
def wrInkRange (p : Path) (a : Nat) (v : Word) (s : State) : State :=
  if a == A.SAT_CTRL then wrSatCtrl v s
  else if a == A.SAT_CFG then wrSatCfg v s
  else if a == A.SAT_XCTL then wrXctl v s
  else if a == A.SAT_VALID then wrSatValid v s
  else if a == A.INK_CTRL then wrInkCtrl p v s
  else if a == A.INK_ENTRY then wrInkEntry v s
  else if a == A.INK_SWSET then wrSwset v s
  else match regIdx (A.INK_TMR 0) 1 4 a, regIdx (A.STB_CFG 0) 2 1536 a with
    | some n, _ => wrTmr n v s
    | none, some e => wrStbCfg e v s
    | none, none => s.plainWrite a v

/-- A write of a register of ring `n` (R380 to R382). -/
def wrRing (n : Nat) (a : Nat) (v : Word) (s : State) : State :=
  if a == A.STO_RING_CFG n then wrRingCfg n v s
  else if a == A.STO_RING_RD n then wrRingRd n v s
  else if a == A.STO_RING_BASE n || a == A.STO_RING_SIZE n then wrRingPlace n a v s
  else s

/-- A write of a register of check unit `u` (R397). -/
def wrCrc (u : Nat) (a : Nat) (v : Word) (s : State) : State :=
  if a == A.STO_CRC_CFG u then wrCrcCfg u v s
  else if a == A.STO_CRC_DATA u then crcTake u (wordBytes v) s
  else if a == A.STO_CRC_DATAB u then crcTake u [v.extractLsb' 0 8] s
  else if a == A.STO_CRC_STATE u then crcRestore u v s
  else s

/-- Writes of STO registers. -/
def wrStoRange (a : Nat) (v : Word) (s : State) : State :=
  if a == A.STO_CEL_CTRL then wrCelCtrl v s
  else if Nat.ble 0x2230 a && Nat.blt a 0x2250 then wrCrc ((a - 0x2230) / 8) a v s
  else if Nat.ble 0x2280 a && Nat.blt a 0x2300 then wrRing ((a - 0x2280) / 8) a v s
  else s.plainWrite a v

/-- A write of an endpoint that is not reserved, on a path.
(DEDUCED, log entry 64.) -/
def epWrite (p : Path) (a : Nat) (v : Word) (s : State) : State :=
  if isMailbox a then wrMailbox p a v s
  else if Nat.blt a 0x0200 then wrPtrRange p a v s
  else if Nat.blt a 0x0400 then wrMeasRange a v s
  else if Nat.blt a 0x0800 then wrSdpRange a v s
  else if Nat.blt a 0x0C00 then wrImpRange a v s
  else if Nat.blt a 0x0F00 then wrPhcRange a v s
  else if Nat.blt a 0x1000 then wrGrdRange a v s
  else if Nat.blt a 0x1400 then wrChnRange a v s
  else if Nat.blt a 0x2200 then wrInkRange p a v s
  else wrStoRange a v s

/-! ### Whole requests on the local space (R252, R253, R487) -/

/-- The local addresses of a request. -/
def addrs (a n : Nat) : List Nat := (List.range n).map (a + ·)

/-- Words read from `a` upward, in order, with their side effects. -/
def epReads (p : Path) : List Nat → State → List Word × State
  | [], s => ([], s)
  | a :: as, s =>
    let r := epRead p a s
    let rest := epReads p as r.2
    (r.1 :: rest.1, rest.2)

/-- Words written from `a` upward, in order. -/
def epWrites (p : Path) (a : Nat) : List Word → State → State
  | [], s => s
  | v :: vs, s => epWrites p (a + 1) vs (epWrite p a v s)

/-- A modification of one endpoint: its old value, and the new one written (R252).
(DEDUCED, log entry 55.) -/
def epModify (p : Path) (a : Nat) (mask v : Word) (s : State) : Word × State :=
  let r := epRead p a s
  (r.1, epWrite p a ((r.1 &&& ~~~mask) ||| (v &&& mask)) r.2)

/-- The request meets a locked field (R253, status 2): INK_ENTRY while locked, or on the chain a read of a read-locked OTP
region, which on the other paths reads 0 (R429).
(DEDUCED, log entry 54.) -/
def State.reqLocked (s : State) (p : Path) (typ : Nat) (as : List Nat) : Bool :=
  (typ != 0 && as.contains A.INK_ENTRY && s.inkRuns) ||
  (p == .chain && typ != 1 && as.contains A.TRU_OTP_DATA && s.readLocked ((s.otpAddr p).toNat / 64))

/-- The request must read a data SRAM word with an uncorrectable error (R291, R253).
(DEDUCED, log entry 56.) -/
def State.reqBad (s : State) (typ : Nat) (as : List Nat) : Bool :=
  typ != 1 && as.any fun a => isMailbox a && s.ink.bad.contains (a)

/-- The status of a READ (0), WRITE (1) or MODIFY (2) of `n` words at `a` (R253): reserved, locked, uncorrectable, done.
(DEDUCED, log entry 45.) -/
def State.reqStatus (s : State) (p : Path) (typ a n : Nat) : Nat :=
  let as := addrs a n
  if as.any isReserved then 1
  else if s.reqLocked p typ as then 2
  else if s.reqBad typ as then 9
  else 0

/-- An uncorrectable word was found through the mailbox (R291): it halts with cause 3 in STATE 1, 2 and 3, and is logged
in STATE 0 and 4.
(DEDUCED, log entry 56.) -/
def mailboxBad (s : State) : State :=
  if s.ink.state == .notStarted || s.ink.state == .halted then
    logEntry 1 [F.INK_FLT.PC.write (F.INK_FLT.CAUSE.write (s.reg A.INK_FLT) 3) 0] s
  else inkHalt 3 s

/-- A request that must read data SRAM meets what `d` says there, unless its status is 1 or 2 already (R291, R253). -/
def reqMeets (d : Ecc) (p : Path) (typ a n : Nat) (s : State) : State :=
  let as := addrs a n
  if typ == 1 || as.any isReserved || s.reqLocked p typ as then s else inkMeets d (as.filter isMailbox) s

/-- A request carried out on the local space: its status, the words it returns, and its effect. One with a status other
than 0 is not executed (R253). `d` is what SECDED finds in the data SRAM it reads. -/
def localRun (d : Ecc) (p : Path) (typ a n : Nat) (data : List Word) (s : State) : Nat × List Word × State :=
  let s := reqMeets d p typ a n s
  match s.reqStatus p typ a n with
  | 0 =>
    match typ with
    | 0 => let r := epReads p (addrs a n) s; (0, r.1, r.2)
    | 1 => (0, [], epWrites p a (padTo 0 n data) s)
    | _ => let r := epModify p a (data.getD 0 0) (data.getD 1 0) s; (0, [r.1], r.2)
  | 9 => (9, [], mailboxBad s)
  | st => (st, [], s)

end Sys2Proof.Machine
end

