-- ==== Sys2Proof/Machine/Boot.lean ====
section
/-! DEFINITION. The start sequence, the Kanos image and the loader's flash (spec/11_start_and_image.md). The loader
commands stand in Machine/Hostport.lean. -/

namespace Sys2Proof.Machine

/-- The start sequence's state changed. -/
def State.onBoot (s : State) (f : BootSt → BootSt) : State := { s with boot := f s.boot }

/-! ### The serial flash (R323, R336); outside START it is read by loader commands and BULK alone (R337) -/

/-- Bytes of the serial flash: the part addresses 16 MiB (R323).
(PRESUMED, log entry 28.) -/
def flashSize : Nat := 0x1000000

/-- A word of the flash; an address beyond it wraps.
(PRESUMED, log entry 28.) -/
def State.flashWord (s : State) (a : Nat) : Word := Mem.word 0xFF s.boot.flash (a % flashSize)

/-- Words of the flash from a byte address. -/
def State.flashWords (s : State) (a : Nat) : Nat → List Word
  | 0 => []
  | n + 1 => s.flashWord a :: s.flashWords (a + 4) n

/-- Bytes of the flash from a byte address. -/
def State.flashBytes (s : State) (a : Nat) : Nat → List Byte
  | 0 => []
  | n + 1 => Mem.byte 0xFF s.boot.flash (a % flashSize) :: s.flashBytes (a + 1) n

/-- Programming turns bits from 1 to 0 only: the family's NOR flash.
(PRESUMED, log entry 28.) -/
def flashProgram : Nat → List Byte → List Host.Cell → List Host.Cell
  | _, [], m => m
  | a, b :: bs, m => flashProgram (a + 1) bs (Mem.setByte 0xFF m a (Mem.byte 0xFF m a &&& b))

/-- The flash with a sector of 4,096 bytes erased.
(PRESUMED, log entry 28.) -/
def flashErase (a : Nat) (m : List Host.Cell) : List Host.Cell :=
  Sparse.keep (fun x => !(Nat.ble a x && Nat.blt x (a + 4096))) m

/-- An operation of the flash begins, with the write-enable before it (R336).
(PRESUMED, log entry 28.) -/
def flashStart (op : FlashOp) (s : State) : State :=
  (s.raise F.STO_LDR_STAT.FBUSY).onBoot fun b => { b with flashOp := some op, flashSent := [.writeEnable, .op op] }

/-- What an operation that ended with an error leaves in the bytes it was to change: any content (R336 states none).
(PRESUMED, log entry 28.) -/
def flashOpen (a n : Nat) (s : State) : State :=
  let bytes := padTo 0xFF n (wordsBytes (Config.ledgerLeft s.free))
  (s.onBoot fun b => { b with flash := Mem.setBytes 0xFF b.flash a bytes }).draw

/-- The flash reports the end of an operation, with an error or without (R336). FBUSY lies in D5. -/
def flashEnd (err : Bool) (s : State) : State :=
  match s.boot.flashOp with
  | none => s
  | some op =>
    let s := s.onBoot fun b => { b with flashOp := none }
    let s := if err then (match op with
        | .erase a => flashOpen a 4096 s
        | .program a ws => flashOpen a (4 * ws.length) s)
      else s.onBoot fun b => { b with flash := (match op with
        | .erase a => flashErase a b.flash
        | .program a ws => flashProgram a (wordsBytes ws) b.flash) }
    if s.on 5 then (s.put F.STO_LDR_STAT.FBUSY 0).raiseIf err F.STO_LDR_STAT.FERR else s

/-! ### The image (R324 to R328) -/

/-- Where a copy begins (R323). -/
def copyBase (second : Bool) : Nat := if second then 0x40000 else 0

/-- The offset and the length of section `k` of a header: INIT, PROG, DATA, SAFE, STRM, SATP (R324). -/
def secOff (h : List Word) (k : Nat) : Nat := (h.getD (8 + 2 * k) 0).toNat
def secLen (h : List Word) (k : Nat) : Nat := (h.getD (9 + 2 * k) 0).toNat

/-- The rule of a section's length (R325). -/
def secLenOk (k n : Nat) : Bool :=
  match k with
  | 0 => Nat.ble n 16384
  | 1 => Nat.ble 4 n && Nat.ble n 65536
  | 2 => Nat.ble n 65536
  | 3 => n == 0 || n == 256
  | 4 => n % 12 == 0 && Nat.ble n 18720
  | _ => n == 0 || (Nat.ble 8 n && n % 8 == 0 && Nat.ble n 264)

/-- The sections from `k` on lie in order, without overlap, from byte `at_` to byte `last` (R325). -/
def secsPlaced (h : List Word) (last : Nat) : Nat → Nat → Nat → Bool
  | 0, _, _ => true
  | fuel + 1, k, at_ =>
    let o := secOff h k
    let n := secLen h k
    if n == 0 then o == 0 && secsPlaced h last fuel (k + 1) at_
    else Nat.ble at_ o && Nat.ble (o + n) (last + 1) && secsPlaced h last fuel (k + 1) (o + n)

/-- A header is well formed (R325). -/
def headerOk (h : List Word) : Bool :=
  let len := (h.getD 2 0).toNat
  let six := List.range 6
  len % 4 == 0 && Nat.ble 100 len && Nat.ble len 147456 &&
  (six.all fun k => secOff h k % 4 == 0 && secLen h k % 4 == 0 && secLenOk k (secLen h k)) &&
  secsPlaced h (len - 21) 6 0 80 &&
  Nat.blt (h.getD 5 0).toNat (secLen h 1 / 4) &&
  (h.getD 3 0) &&& 0xFFFFFFFE == 0 && (h.getD 5 0) &&& 0xFFFFC000 == 0 && h.getD 6 0 == 0 && h.getD 7 0 == 0

/-- The words of section `k` of the image at a flash address. -/
def State.section (s : State) (base : Nat) (h : List Word) (k : Nat) : List Word :=
  s.flashWords (base + secOff h k) (secLen h k / 4)

/-- A CMAC is required: the image key is programmed (R327). -/
def State.cmacNeeded (s : State) : Bool := s.tru.imgKey != .blank

/-- The judgement of the copy at a flash address (R328): its code, and its header. A damaged key fails every check (R437). -/
def copyJudge (base : Nat) (sramBad : Bool) (s : State) : Nat × List Word :=
  let h := s.flashWords base 20
  let w1 := h.getD 1 0
  let len := (h.getD 2 0).toNat
  let body := s.flashBytes base (len - 20)
  let code :=
    if h.getD 0 0 != 0x4F4E414B then 2
    else if w1.extractLsb' 24 8 != 0x01 then 3
    else if w1.extractLsb' 0 24 != s.partRev then 4
    else if !headerOk h then 5
    else if CrcKind.of .crc32 body != s.flashWord (base + len - 20) then 6
    else if s.cmacNeeded && !(h.getD 3 0).getLsbD 0 then 7
    else if s.cmacNeeded && s.tru.imgKey.tag body != some (s.flashBytes (base + len - 16) 16) then 8
    else if sramBad then 9
    else 0
  (code, h)

/-! ### The endpoint-initialisation list (R331, R332) -/

/-- An entry is skipped and counted (R332). -/
def bootBad (s : State) : State := s.bumpSat F.STO_BOOT_INIT.BAD 1

/-- The first skipped or ending entry of the list is recorded (R332).
(DEDUCED, log entry 36.) -/
def bootFirst (n : Nat) (s : State) : State :=
  if s.get F.STO_BOOT_INIT.FIRST_BAD == 0xFFFF then s.put F.STO_BOOT_INIT.FIRST_BAD n else s

/-- A list entry's word 0 names what the list may not write (R332). -/
def listBars (w : Word) : Bool :=
  let a := (w.extractLsb' 0 14).toNat
  w.extractLsb' 14 14 != 0 || isReserved a || isGrd a || a == A.INK_CTRL || a == A.INK_ENTRY

/-- The sequence is still loading a copy: a write of the list may have ended it (R405, R438). -/
def State.loading (s : State) : Bool := s.boot.step == .copyA || s.boot.step == .copyB

/-- The list ends at entry `n` (R332).
(DEDUCED, log entry 36.) -/
def listEnds (n : Nat) (s : State) : State := (bootFirst n s).raise F.STO_BOOT_INIT.TRUNC

/-- One entry's effect, or its skipping. -/
def listEntry (n : Nat) (w : Word) (effect : Nat → State → State) (s : State) : State :=
  if listBars w then bootFirst n (bootBad s)
  else if s.loading then effect (w.extractLsb' 0 14).toNat s else s

/-- The list applied from entry `n` on (R331).
(DEDUCED, log entry 36.) -/
def listApply : Nat → Nat → List Word → State → State
  | 0, _, _, s => s
  | fuel + 1, n, ws, s =>
    match ws with
    | [] => s
    | w :: rest =>
      match (w.extractLsb' 28 4).toNat, rest with
      | 0, v :: rest => listApply fuel (n + 1) rest (listEntry n w (fun a s => epWrite .ink a v s) s)
      | 1, m :: v :: rest => listApply fuel (n + 1) rest (listEntry n w (fun a s => (epModify .ink a m v s).2) s)
      | _, _ => listEnds n s

/-- CHN_NET_CTRL.HEAD takes effect (R231, R265, R331): the head holds slot 0 at position 0.
(DEDUCED, log entry 38.) -/
def headEffect (s : State) : State :=
  let h := s.bit F.CHN_NET_CTRL.HEAD
  let s := { s with net := { s.net with headNow := h } }
  if !h then s
  else
    let s := (s.raise F.CHN_NET_STAT.SLOTV).put F.CHN_NET_STAT.SLOT 0
    s.put ⟨A.CHN_POS 0, 0, 8⟩ 0

/-! ### Stream definitions and the satellite profile (R333, R334) -/

/-- The stream definitions (R333).
(DEDUCED, log entry 36.) -/
def streamDefs : List Word → State → State
  | w0 :: w1 :: w2 :: ws, s =>
    let i := (w0.extractLsb' 0 11).toNat
    let s :=
      match (w0.extractLsb' 28 4).toNat with
      | 0 => if Nat.blt i 24 then wrScfg i w1 (wrSmask i w2 s) else bootBad s
      | 1 => if Nat.blt i 1536 && w2 == 0 then wrStbCfg i w1 s else bootBad s
      | _ => bootBad s
    streamDefs ws s
  | _, s => s

/-- The factory numbers of the satellite profile, entry by entry from `n` (R334). -/
def podPairs : Nat → List Word → State → State
  | n, h :: l :: ws, s =>
    let bytes := (wordBytes h).reverse ++ (wordBytes l).reverse
    let s :=
      if h == 0 && l == 0 then s
      else if crc8 (bytes.take 7) == bytes.getD 7 0 then
        let s := (s.setReg (A.SAT_POD_H n) h).setReg (A.SAT_POD_L n) l
        (s.putBit A.SAT_VALID n true).put (F.SAT_RS.MISS n) 0
      else bootBad s
    podPairs (n + 1) ws s
  | _, _, s => s

/-- The satellite profile (R334). -/
def satProfile (ws : List Word) (s : State) : State :=
  match ws with
  | cfg :: ctl :: pairs => wrSatCtrl (ctl &&& 7) (podPairs 0 pairs (wrSatCfg cfg s))
  | _ => s

/-! ### Loading (R318 steps 5 to 8, R329, R335) -/

/-- Program and data SRAM as a copy leaves them: its sections, the rest zero (R329). -/
def sramLoad (prog data : List Word) (s : State) : State :=
  s.onInk fun k => { k with prog := Mem.setWords 0 [] 0 prog, data := Mem.setWords 0 [] 0 data, bad := [] }

/-- STO_BOOT_TIME.T: the time since W in µs, saturating (R338), once TIME may be used (R420).
(DEDUCED, log entry 39.) -/
def bootTime (s : State) : State :=
  if s.bit F.PTR_STAT.TVALID then
    s.put F.STO_BOOT_TIME.T (min ((s.ptr.time.toNat - s.boot.wAt.toNat) / 100) 0xFFFFFF)
  else s

/-- Step 8 of R318: INK_CTRL.RUN = 1, where the device is still in START. -/
def bootRun (s : State) : State :=
  if !s.loading then s else (bootTime (inkBegin s)).onBoot fun b => { b with step := .done }

/-- A copy has passed: its sections are applied in the order of R329, the watchdog starts with the block (R356), and the
Innkeeper starts.
(DEDUCED, log entry 36; DESIGN CHOICE, log entry 40.) -/
def copyApply (second : Bool) (h : List Word) (s : State) : State :=
  let base := copyBase second
  let sec := s.section base h
  let safe := if secLen h 3 == 0 then none else some (sec 3)
  let s := (s.put F.STO_BOOT_STAT.COPY (if second then 2 else 1)).setReg A.STO_BOOT_VER (h.getD 4 0)
  let s := (s.put F.STO_BOOT_STAT.LOADER 0).put F.CHN_HOST_STAT.LOADER 0
  let s := (sramLoad (sec 1) (sec 2) s).put F.INK_ENTRY.ENTRY (h.getD 5 0).toNat
  let s := wdStart (grdLoad safe s)
  let s := headEffect (listApply (secLen h 0 / 4) 0 (sec 0) s)
  bootRun (if s.loading then satProfile (sec 5) (streamDefs (sec 4) s) else s)

/-- Loader mode (R335). -/
def loaderMode (s : State) : State :=
  let s := (s.raise F.STO_BOOT_STAT.LOADER).raise F.CHN_HOST_STAT.LOADER
  let s := s.each domSet fun d s => if s.on d then domTurnOff d s else s
  grdLoad none (sramLoad [] [] (s.onBoot fun b => { b with step := .loader }))

/-- The copy being read is judged (R328): it passes; or the next copy, or loader mode, follows. An uncorrectable word of
the image's holding is an SRAM error of R373 too. A copy that fails by its content has been read into SRAM (R329).
(DEDUCED, log entry 37.) -/
def copyEnd (sram : Ecc) (s : State) : State :=
  if !s.loading then s
  else
    let second := s.boot.step == .copyB
    let j := copyJudge (copyBase second) (sram == .uncorrectable) s
    let s := s.put (if second then F.STO_BOOT_STAT.ERRB else F.STO_BOOT_STAT.ERRA) j.1
    let s := s.raiseIf (s.cmacNeeded && (j.1 == 0 || j.1 == 8 || j.1 == 9)) F.STO_BOOT_STAT.AUTH
    let s := if j.1 == 9 || sram == .corrected then sramSees .buffers sram id id s else s
    let sec := s.section (copyBase second) j.2
    let s := if Nat.ble 6 j.1 then sramLoad (sec 1) (sec 2) s else s
    if j.1 == 0 then
      copyApply second j.2 (if second then s else s.put F.STO_BOOT_STAT.ERRB 1)
    else if second then loaderMode s
    else s.onBoot fun b => { b with step := .copyB }

/-- REBOOT in loader mode runs R318 from step 5 (R336); loader mode lasts until a copy passes (R335). -/
def rebootNow (s : State) : State :=
  let s := ((s.put F.STO_BOOT_STAT.ERRA 1).put F.STO_BOOT_STAT.ERRB 1).put F.STO_BOOT_STAT.AUTH 0
  s.onBoot fun b => { b with step := .copyA }

/-! ### Steps 1 to 4 of R318 -/

/-- Step 1: D4 switches on and the main RC and the PLL start. -/
def startFirst (s : State) : State :=
  if s.ptr.dev == .start && s.boot.step == .entry && !s.ptr.nrstLow then
    (setDom 4 true s).onBoot fun b => { b with step := .pll }
  else s

/-- Steps 2 to 4: the PLL has locked. HEAD takes effect with the entry to START (R265); at this point D5 has just been
switched on, so it is 0. -/
def pllLocked (vpp : Bool) (s : State) : State :=
  if s.boot.step == .pll then lastOrdersJudge (otpStart vpp (domsStart s)) else s

/-- D0's count is copied into ICLK's TIME after D4 switches on (R420). -/
def timeLoaded (s : State) : State := if s.on 4 && s.on 5 then s.raise F.PTR_STAT.TVALID else s

end Sys2Proof.Machine
end

