-- ==== Sys2Proof/Machine/Transact.lean ====
section
/-! DEFINITION. Requests between devices (R252 to R258, R305 to R308): the requester's numbering, resending and ending,
the target's execution and answers, broadcasts, bulk transfers, the mirror's refresh, and the Innkeeper's endpoint
instructions. -/

namespace Sys2Proof.Machine

/-! ### Fields of a request and a response (R252) -/

/-- Word 0 of a request. -/
def requestWord (tag count a : Nat) : Word := Word.ofNat (tag % 256 * 2 ^ 24 + count % 64 * 2 ^ 16 + a % 16384)

/-- Word 0 of a response. -/
def responseWord (tag status count a : Nat) : Word :=
  Word.ofNat (tag % 256 * 2 ^ 24 + status % 16 * 2 ^ 20 + count % 64 * 2 ^ 14 + a % 16384)

/-- TAG, COUNT and ADDR of a request's word 0, and STATUS and COUNT of a response's. -/
def wordTag (w : Word) : Nat := (w.extractLsb' 24 8).toNat
def wordCount (w : Word) : Nat := (w.extractLsb' 16 6).toNat
def wordAddr (w : Word) : Nat := (w.extractLsb' 0 14).toNat
def wordStatus (w : Word) : Nat := (w.extractLsb' 20 4).toNat
def wordBack (w : Word) : Nat := (w.extractLsb' 14 6).toNat

/-! ### The requester (R254) -/

/-- The network's hidden state changed. -/
def State.onNet (s : State) (f : NetSt → NetSt) : State := { s with net := f s.net }

/-- The next TAG for a destination. -/
def State.nextTag (s : State) (dst : Nat) : Nat :=
  match s.net.tags.find? (·.1 == dst) with
  | some x => x.2 % 256
  | none => 0

/-- A TAG for a destination is used. -/
def useTag (dst : Nat) (s : State) : State :=
  let n := s.nextTag dst + 1
  s.onNet fun x => { x with tags := (dst, n) :: x.tags.filter (·.1 != dst) }

/-- The frame of a request with a TAG and the current GEN. -/
def State.requestFrame (s : State) (r : Request) (tag : Nat) : Frame :=
  s.newFrame 1 r.typ r.dst 0 (4 + 4 * r.data.length) (requestWord tag r.count r.addr :: r.data)

/-- Requests outstanding at a destination. -/
def State.outstanding (s : State) (dst : Nat) : Nat :=
  (s.net.requests.filter fun r => r.dst == dst && r.tag.isSome).length

/-- A request can be sent now: it is outstanding already or has a place among the four of its destination, and the transmit
room of its route has a buffer; without a route it is discarded there and times out (R234, R254).
(DEDUCED, log entry 44.) -/
def State.mayRequest (s : State) (r : Request) : Bool :=
  r.due && (r.tag.isSome || Nat.blt (s.outstanding r.dst) 4) &&
  match s.route r.dst none with
  | some p => (s.port p).hasRoom (s.requestFrame r 0)
  | none => true

/-- The first request that can be sent, with its index. -/
def State.waitingRequest (s : State) : Option (Request × Nat) := s.net.requests.zipIdx.find? fun x => s.mayRequest x.1

/-- Waiting requests are sent, each with a TAG of its own that it keeps when it is sent again, while their destinations
have fewer than four outstanding and transmit rooms have buffers.
(DEDUCED, log entry 44.) -/
def pumpRequests : Nat → State → State
  | 0, s => s
  | fuel + 1, s =>
    match s.waitingRequest with
    | none => s
    | some (r, i) =>
      let tag := r.tag.getD (s.nextTag r.dst)
      let f := s.requestFrame r tag
      let s := if r.tag.isSome then s else useTag r.dst s
      let s := s.onNet fun x => { x with requests := x.requests.set i { r with tag := some tag, due := false } }
      pumpRequests fuel (sendRouted f s)

/-- All requests that can be sent are sent. -/
def pumpControl (s : State) : State := pumpRequests s.net.requests.length s

/-- A request that says what one that still waits says already: of the mirror's refresh, one for each range and device; of a
receiver of bulk, one for each transfer.
(DESIGN CHOICE, log entry 44.) -/
def requestSame (r q : Request) : Bool :=
  r.who == q.who && r.dst == q.dst &&
  match r.who with
  | .mirror _ => true
  | .nak => q.tag.isNone && wordTag (r.data.headD 0) == wordTag (q.data.headD 0)
  | _ => false

/-- A request of this device joins the others.
(DEDUCED, log entry 44.) -/
def requestAdd (who : Requester) (dst typ a count : Nat) (data : List Word) (s : State) : State :=
  let r : Request := ⟨who, dst, typ, a, count, data, none, true, 0⟩
  let rs := s.net.requests
  let rs := if rs.any (requestSame r) then rs.map (fun q => if requestSame r q then { q with data := data } else q)
    else rs ++ [r]
  pumpControl (s.onNet fun x => { x with requests := rs })

/-- The completed values of a host WRITE or MODIFY go into the mirror (R258).
(DEDUCED, log entry 43.) -/
def mirrorValues (dst typ a : Nat) (req got : List Word) (s : State) : State :=
  if typ == 1 then mirrorWrite dst a req s
  else if typ == 2 then
    let mask := req.getD 0 0
    mirrorWrite dst a [(got.getD 0 0 &&& ~~~mask) ||| (req.getD 1 0 &&& mask)] s
  else s

/-- A posted host command has completed (R261). -/
def hostComplete (htag status : Nat) (data : List Word) (s : State) : State :=
  let r : HostResult := ⟨htag, status, data⟩
  ({ s with host := { s.host with results := s.host.results ++ [r] } }).raise F.CHN_NET_EVT.HOST_RES

/-- A status of R253, or 6 for a time-out, as the host port gives it (R262). -/
def hostStatus (st : Nat) : Nat := if st == 0 || st == 5 then 0 else if st == 6 then 6 else 0x10 + st

/-- A transaction of the Innkeeper ends: with STATUS 0 its data goes into the buffer before the completion (R306, R307). -/
def inkEnds (xid buf typ count status : Nat) (data : List Word) (s : State) : State :=
  let s := if status == 0 then (if typ == 0 then setDatas buf (data.take count) s
    else if typ == 2 then setDatas buf (data.take 1) s else s) else s
  inkComplete xid status (if status == 0 then count else 0) s

/-- A request has ended with a status and data: its requester is told, and the next one is sent.
(DEDUCED, log entry 44.) -/
def requestEnd (r : Request) (status : Nat) (data : List Word) (s : State) : State :=
  let s := s.onNet fun x => { x with requests := x.requests.filter fun q => !(q.dst == r.dst && q.tag == r.tag) }
  let s :=
    match r.who with
    | .ink xid buf => inkEnds xid buf r.typ r.count status data s
    | .host htag =>
      let s := if status == 0 || (status == 5 && r.typ == 1) then mirrorValues r.dst r.typ r.addr r.data data s else s
      hostComplete htag (hostStatus status) (if r.typ == 1 then [] else data) s
    | .mirror _ => if status == 0 then mirrorWrite r.dst r.addr data s else s.raise F.CHN_NET_EVT.MIR_FAIL
    | .nak => s
  pumpControl s

/-- The outstanding request with a TAG at a destination. -/
def State.requestAt (s : State) (dst tag : Nat) : Option Request :=
  s.net.requests.find? fun r => r.dst == dst && r.tag == some tag

/-- A request is sent again with the same TAG and the current GEN, or ends as timed out (R254).
(DEDUCED, log entry 44.) -/
def requestAgain (r : Request) (s : State) : State :=
  if Nat.blt r.tries (s.get F.CHN_NET_CFG.RETRY) then
    pumpControl (s.onNet fun x => { x with requests := x.requests.map fun q =>
      if q.dst == r.dst && q.tag == r.tag then { q with tries := q.tries + 1, due := true } else q })
  else requestEnd r 6 [] s

/-- No response has come within TMO ms (R254).
(DEDUCED, log entry 44.) -/
def requestExpire (dst tag : Nat) (s : State) : State :=
  match s.requestAt dst tag with
  | some r => if r.due then s else requestAgain r s
  | none => s

/-- A response arrives (R253, R254); one whose request is gone is discarded (R308). -/
def responseTake (f : Frame) (s : State) : State :=
  let w := f.payload.headD 0
  match s.requestAt f.src (wordTag w) with
  | none => s
  | some r =>
    if f.typ != r.typ + 32 then s
    else if wordStatus w == 3 then requestAgain r s
    else requestEnd r (wordStatus w) ((f.payload.drop 1).take (wordBack w)) s

/-! ### The target (R252 to R256) -/

/-- COUNT and LEN fit the TYP (R252). -/
def requestFits (typ count len : Nat) : Bool :=
  match typ with
  | 0 => Nat.ble 1 count && len == 4
  | 1 => Nat.ble 1 count && len == 4 + 4 * count
  | 2 => count == 1 && len == 12
  | 3 => count == 0 && len == 16
  | 4 => count == 0 && len == 8
  | _ => count == 0 && len == 8

/-- The TAG is one of the last four accepted from a source (R254). -/
def State.tagSeen (s : State) (src tag : Nat) : Bool :=
  match s.net.seen.find? (·.1 == src) with
  | some x => x.2.contains tag
  | none => false

/-- A TAG is accepted from a source. -/
def tagAccept (src tag : Nat) (s : State) : State :=
  let was := match s.net.seen.find? (·.1 == src) with | some x => x.2 | none => []
  s.onNet fun x => { x with seen := (src, (tag :: was.filter (· != tag)).take 4) :: x.seen.filter (·.1 != src) }

/-- Bytes of the Ledger and of the flash: what BULK REGION 1 and 2 address. -/
def bulkSize : Nat → Nat
  | 1 => 16384
  | _ => flashSize

/-- The status of a BULK_OPEN (R253, R256, R291, R487). -/
def State.bulkStatus (s : State) (region start len : Nat) : Nat :=
  match region with
  | 0 => if len % 4 != 0 then 4 else if len == 0 then 0 else
      let as := addrs start (min (len / 4) 16385)
      if as.any isReserved then 1 else if s.reqLocked .chain 0 as then 2 else if s.reqBad 0 as then 9 else 0
  | 1 => if Nat.blt (bulkSize 1) (start + len) then 1 else 0
  | 2 => if Nat.blt (bulkSize 2) (start + len) then 1 else 0
  | _ => 1

/-- The bytes words are sent as: each most significant byte first (R207). -/
def wordsSent (ws : List Word) : List Byte := ws.flatMap fun w => (wordBytes w).reverse

/-- The words that bytes make up in a frame, most significant byte first; a last short group is filled with 0. -/
def sentWords (bs : List Byte) : List Word :=
  (bytesWords bs).map fun w => bytesWord (wordBytes w).reverse

/-- The next bytes of a bulk transfer: endpoints read as a chain READ does (R488), the Ledger, the flash. -/
def bulkBytes (b : BulkOut) (n : Nat) (s : State) : List Byte × State :=
  match b.region with
  | 0 => let r := epReads .chain (addrs (b.start + b.offset / 4) ((n + 3) / 4)) s; ((wordsSent r.1).take n, r.2)
  | 1 => (Mem.bytes 0xFF s.led.flash (b.start + b.offset) n, s)
  | _ => (s.flashBytes (b.start + b.offset) n, s)

/-- A transfer that still has frames to send and whose route has room for one, with its index.
(DESIGN CHOICE, log entry 47.) -/
def State.bulkReady (s : State) : Option (BulkOut × Nat) :=
  let room := fun (dst : Nat) => match s.route dst none with
    | some p => (s.port p).hasRoom (s.newFrame 3 0 dst 0 8 [])
    | none => false
  s.net.bulkOut.zipIdx.find? fun x => Nat.ble x.1.offset x.1.length && room x.1.dst

/-- BULK frames are made while their routes have room (R256). A transfer whose last frame has been made stands at an
offset beyond its length, and stays for a BULK_NAK until it is closed.
(DESIGN CHOICE, log entry 47.) -/
def pumpBulk : Nat → State → State
  | 0, s => s
  | fuel + 1, s =>
    match s.bulkReady with
    | none => s
    | some (b, i) =>
      let n := min 248 (b.length - b.offset)
      let last := b.offset + n == b.length
      let r := bulkBytes b n s
      let w0 := Word.ofNat (b.xid % 256 * 2 ^ 24 + b.offset % 2 ^ 24)
      let f := s.newFrame 3 0 b.dst 0 (8 + n) (w0 :: (if last then 0x80000000 else 0) :: sentWords r.1)
      let next := { b with offset := if last then b.length + 1 else b.offset + n }
      pumpBulk fuel (sendRouted f (r.2.onNet fun x => { x with bulkOut := x.bulkOut.set i next }))

/-- More frames than the rooms of both ports take. -/
def bulkFuel : Nat := 20

/-- A BULK request of TYP 3, 4 or 5 is executed: its status and its effect. `d` is what SECDED finds in the data SRAM that
a BULK_OPEN asks for (R291).
(DESIGN CHOICE, log entry 47.) -/
def bulkServe (d : Ecc) (src typ : Nat) (ws : List Word) (s : State) : Nat × State :=
  let w := ws.getD 0 0
  let xid := wordTag w
  let mine := fun (b : BulkOut) => b.dst == src && b.xid == xid
  let others := s.net.bulkOut.filter fun b => !mine b
  match typ with
  | 3 =>
    let region := (w.extractLsb' 16 4).toNat
    let start := (ws.getD 1 0).toNat
    let len := (ws.getD 2 0).toNat
    let s := if region == 0 && len % 4 == 0 then reqMeets d .chain 0 start (min (len / 4) 16385) s else s
    match s.bulkStatus region start len with
    | 0 => (0, s.onNet fun x => { x with bulkOut := others ++ [⟨src, xid, region, start, len, 0⟩] })
    | st => (st, if st == 9 then mailboxBad s else s)
  | 4 =>
    let off := (w.extractLsb' 0 24).toNat
    let back := fun (b : BulkOut) => if mine b && Nat.ble off b.length then
      { b with offset := if b.region == 0 then off / 4 * 4 else off } else b
    (0, s.onNet fun x => { x with bulkOut := x.bulkOut.map back })
  | _ => (0, s.onNet fun x => { x with bulkOut := others })

/-- A request's execution at the target: status, data, effect (R252, R253). -/
def requestServe (f : Frame) (s : State) : Nat × List Word × State :=
  let w := f.payload.headD 0
  let ws := f.payload.drop 1
  if Nat.blt f.typ 3 then localRun f.ecc.data .chain f.typ (wordAddr w) (wordCount w) ws s
  else let r := bulkServe f.ecc.data f.src f.typ ws s; (r.1, [], r.2)

/-- The status that bars a request before it is executed (R253, R254): its form, its GEN, its repetition.
(DEDUCED, log entry 45.) -/
def State.requestBar (s : State) (f : Frame) : Option Nat :=
  let w := f.payload.headD 0
  if !requestFits f.typ (wordCount w) f.len then some 4
  else if f.gen != s.get F.CHN_NET_STAT.GEN then some 3
  else if f.typ != 0 && s.tagSeen f.src (wordTag w) then some 5
  else none

/-- A request for this device: it is executed or not, and answered (R253, R254). A TAG counts as accepted when its
request is executed.
(DEDUCED, log entry 45.) -/
def requestAnswer (f : Frame) (s : State) : State :=
  let w := f.payload.headD 0
  let r : Nat × List Word × State :=
    match s.requestBar f with
    | some st => (st, [], if st == 3 then s.bump F.CHN_NET_CNT.STALE 1 else s)
    | none => let r := requestServe f s; (r.1, r.2.1, if r.1 == 0 then tagAccept f.src (wordTag w) r.2.2 else r.2.2)
  let s := r.2.2
  let back := s.newFrame 1 (f.typ + 32) f.src 0 (4 + 4 * r.2.1.length)
    (responseWord (wordTag w) r.1 r.2.1.length (wordAddr w) :: r.2.1)
  pumpBulk bulkFuel (if f.src == 0x7F then noRoute s else sendRouted back s)

/-- A broadcast WRITE or MODIFY is executed by every device it reaches, once, and answered by none (R255).
(DEDUCED, log entry 45.) -/
def broadcastServe (f : Frame) (s : State) : State :=
  let w := f.payload.headD 0
  let key := 128 + f.src
  if !requestFits f.typ (wordCount w) f.len || s.tagSeen key (wordTag w) then s
  else (localRun f.ecc.data .chain f.typ (wordAddr w) (wordCount w) (f.payload.drop 1) (tagAccept key (wordTag w) s)).2.2

/-- This device sent the broadcast.
(DEDUCED, log entry 52.) -/
def State.ownFrame (s : State) (f : Frame) : Bool := s.bit F.CHN_NET_STAT.SLOTV && f.src == s.get F.CHN_NET_STAT.SLOT

/-- The CONTROL transmit room that a response to a frame goes to has a buffer for it (R22); without a route the response is
discarded (R234).
(DEDUCED, log entry 45.) -/
def State.canAnswer (s : State) (f : Frame) : Bool :=
  f.src == 0x7F ||
  match s.route f.src none with
  | some p => (s.port p).hasRoom (s.newFrame 1 (f.typ + 32) f.src 0 4 [])
  | none => true

/-! ### Reception of bulk (R256) -/

/-- A BULK frame: in order its data is taken; behind, it is discarded; ahead, BULK_NAK names the expected offset.
(DESIGN CHOICE, log entry 47.) -/
def bulkTake (f : Frame) (s : State) : State :=
  let w := f.payload.headD 0
  let xid := wordTag w
  let off := (w.extractLsb' 0 24).toNat
  let last := (f.payload.getD 1 0).getLsbD 31
  let n := f.len - 8
  let mine := fun (b : BulkIn) => b.src == f.src && b.xid == xid
  let was := (s.net.bulkIn.find? mine).getD ⟨f.src, xid, 0, [], false⟩
  let others := s.net.bulkIn.filter fun b => !mine b
  if Nat.blt f.len 8 || Nat.blt off was.next then s
  else if Nat.blt was.next off then
    requestAdd .nak f.src 4 0 0 [Word.ofNat (xid * 2 ^ 24 + was.next)] s
  else
    let got := { was with
      next := was.next + n, data := was.data ++ (wordsSent (f.payload.drop 2)).take n, last := last }
    s.onNet fun x => { x with bulkIn := others ++ [got] }

/-! ### Delivery of accepted frames (R21, R22, R255) -/

/-- The request a response ends writes words into the mirror (R258). -/
def State.fillsMirror (s : State) (f : Frame) : Bool :=
  match s.requestAt f.src (wordTag (f.payload.headD 0)) with
  | none => false
  | some r => match r.who with
    | .mirror _ => true
    | .host _ => r.typ == 1 || r.typ == 2
    | _ => false

/-- The room that takes the content of a frame for this device has a buffer (R21, R22, R374): the transmit room for the
response of a request, the mirror staging for what a response brings, the Cellar stream staging for a stream block.
(DEDUCED, log entry 45.) -/
def State.canTake (s : State) (f : Frame) : Bool :=
  if isRequest f then s.canAnswer f
  else if f.cls == 1 then s.mirrorRoom || !s.fillsMirror f
  else if f.cls == 2 then !s.net.headNow || s.stageRoom
  else true

/-- The content of a frame for this device goes on: a request is answered, a response ends its request, the head files a
stream block, bulk is received. -/
def frameDone (f : Frame) (s : State) : State :=
  if isRequest f then requestAnswer f s
  else if f.cls == 1 then responseTake f s
  else if f.cls == 2 then (if s.net.headNow then fileBlock f.ecc.entry f.src f.strm f.gen f.len f.payload s else s)
  else bulkTake f s

/-- A frame for this device in a receive room is consumed once the room that takes its content has a buffer (R21, R22).
(DEDUCED, log entry 45.) -/
def rxTake (p : Port) (x : RxFrame) (s : State) : State :=
  if x.dest.isNone && s.canTake x.frame then freeBuffer p x.frame (frameDone x.frame s) else keepFrame p x.frame x.dest s

/-- The frames for this device that wait in a receive room are consumed while their content has room. -/
def pumpTaken (p : Port) (s : State) : State :=
  (s.onPort p fun q => { q with rx := [] }).each (s.port p).rx (rxTake p)

/-- A frame for this device waits its turn; a broadcast one, which only a CONTROL request can be, is discarded (R235, R255). -/
def deliverFrame (p : Port) (f : Frame) (s : State) : State :=
  if f.dst == 0x7F then freeBuffer p f s else pumpTaken p (keepFrame p f none s)

/-- A CONTROL request is delivered: to this device; or as a broadcast (R22, R255). -/
def requestDeliver (p : Port) (f : Frame) (s : State) : State :=
  if f.dst == 0x7F && (f.typ == 1 || f.typ == 2) then
    let own := s.ownFrame f
    passBroadcast p f own (if own then s else broadcastServe f s)
  else deliverFrame p f s

/-- A received frame of a class and type. -/
def frameIs (cls typ : Nat) (f : Frame) : Bool := f.cls == cls && f.typ == typ

/-- A received CONTROL request of a type.
(DESIGN CHOICE, log entry 48.) -/
def takeRequest (p : Port) (typ : Nat) (f : Frame) (s : State) : State :=
  if frameIs 1 typ f then receive p f (requestDeliver p f) s else s

/-- A received CONTROL response; a broadcast one is discarded (R255). -/
def takeResponse (p : Port) (f : Frame) (s : State) : State :=
  if f.cls == 1 && Nat.ble 32 f.typ then receive p f (deliverFrame p f) s else s

/-- A received STREAM frame: the head files it (R257). -/
def streamTake (p : Port) (f : Frame) (s : State) : State := if f.cls == 2 then receive p f (deliverFrame p f) s else s

/-- A received BULK frame, of any TYP (R218); BULK is never broadcast (R235). -/
def takeBulk (p : Port) (f : Frame) (s : State) : State := if f.cls == 3 then receive p f (deliverFrame p f) s else s

/-- What waits for transmit rooms moves on. -/
def pumpAll (s : State) : State :=
  let s := pumpHanded .south (pumpHanded .north (pumpOutbox .south (pumpOutbox .north s)))
  let s := pumpTaken .south (pumpTaken .north (pumpRx .south (pumpRx .north s)))
  let s := pumpControl s
  pumpBulk bulkFuel (pumpStreams s.sdp.out.length (pumpOwn s.sdp.out.length s))

/-- The oldest staged stream block is written into the Cellar; with none staged, what waits for room moves on.
(DESIGN CHOICE, log entry 3.) -/
def celPump (s : State) : State := if s.cel.blocks.isEmpty then pumpAll s else celFile s

/-! ### The mirror's refresh (R258) -/

/-- A range's READ to every assigned slot that is not lost, but slot 0. -/
def mirrorRead (n : Nat) (s : State) : State :=
  if !s.net.headNow || !s.bit (F.CHN_MIR_A.EN n) || !Nat.blt n 16 then s
  else
    let a := s.get (F.CHN_MIR_A.ADDR n)
    let k := s.get (F.CHN_MIR_A.COUNT n)
    let slots := ((List.range 64).drop 1).filter fun d => s.assigned d && !s.lost d
    s.each slots fun d s => requestAdd (.mirror n) d 0 a k [] s

/-! ### Broadcasts of this device (R255) -/

/-- A broadcast WRITE or MODIFY leaves with its TAG, the host's or the Innkeeper's. -/
def broadcastSend (host : Bool) (typ a count : Nat) (data : List Word) (s : State) : State :=
  let tag := s.nextTag 0x7F
  let f := s.newFrame 1 typ 0x7F 0 (4 + 4 * data.length) (requestWord tag count a :: data)
  broadcastFrom host f (useTag 0x7F s)

/-! ### XRD, XWR and XMOD (R305 to R307) -/

/-- The transaction is issued and ends at once, or its request is sent. `buf` is the buffer's word index, `data` what
was copied from it, `d` what SECDED finds in the data SRAM that a transaction to this device's own slot reads.
(DEDUCED, log entry 46.) -/
def inkIssue (d : Ecc) (xid typ : Nat) (ra : Word) (buf count : Nat) (data : List Word) (s : State) : State :=
  let a := (ra.extractLsb' 0 14).toNat
  let slot := (ra.extractLsb' 14 6).toNat
  let held := s.bit F.CHN_NET_STAT.SLOTV
  let ends := fun (st : Nat) => inkEnds xid buf typ count st [] s
  if ra.extractLsb' 20 11 != 0 then ends 1
  else if ra.getLsbD 31 then
    if typ == 0 then ends 4
    else if !held then ends 7
    else
      let r := localRun d .ink typ a count data s
      if r.1 == 1 then ends 1
      else
        let tag := s.nextTag 0x7F
        let s := r.2.2.onInk fun k => { k with out := k.out.map fun x =>
          if x.xid == xid then { x with bcast := some tag } else x }
        broadcastSend false typ a count data s
  else if !held then ends 7
  else if slot == s.get F.CHN_NET_STAT.SLOT then
    let r := localRun d .ink typ a count data s
    inkEnds xid buf typ count r.1 r.2.1 r.2.2
  else if s.pos slot == 0xFF || s.lost slot then ends 7
  else requestAdd (.ink xid buf) slot typ a count data s

/-- An XID that is not in use, where there is one.
(DESIGN CHOICE, log entry 21.) -/
def State.xidFree (s : State) : Option Nat :=
  let free := (List.range 16).filter fun x => !s.xidsUsed.contains x
  match free with
  | [] => none
  | x :: _ => some (free.getD (Config.xidPick s.free % free.length) x)

/-- The instruction issues a transaction with a fresh XID, or none while sixteen are in use (R305).
(DEDUCED, log entry 46.) -/
def inkTransact (d : Ecc) (rd : BitVec 4) (typ : Nat) (ra : Word) (buf count : Nat) (data : List Word) (s : State) : State :=
  match s.xidFree with
  | none => pcNext (setG rd 0xFFFFFFFF (s.bump F.INK_XSTAT.REFUSED 1))
  | some xid =>
    let s := s.draw.onInk fun k => { k with out := k.out ++ [⟨xid, typ, count, none⟩] }
    inkIssue d xid typ ra buf count data (pcNext (setG rd (Word.ofNat xid) s))

/-- The buffer of an X instruction: word-aligned and within data SRAM, else cause 5 (R301). -/
def inkBuffer (rb : Word) (count : Nat) (body : Nat → State → State) (s : State) : State :=
  if rb.toNat % 4 == 0 && Nat.ble (rb.toNat + 4 * count) 0x10000 then body (rb.toNat / 4) s else inkHalt 5 s

/-- An X instruction: legal only with words to move (R305); WRITE and MODIFY copy `copied` words of the buffer first. -/
def inkX (e : InkEnv) (typ count copied : Nat) (rd ra rb : BitVec 4) (s : State) : State :=
  inkFetch e (fun s =>
    if count == 0 then inkHalt 4 s
    else inkSeq (inkChecked e fun s =>
      inkBuffer (s.g rb) (max count copied) (fun buf s =>
        if copied == 0 then inkTransact e.data rd typ (s.g ra) buf count [] s
        else inkReads e.data ((List.range copied).map (buf + ·)) (fun s =>
          inkTransact .clean rd typ (s.g ra) buf count (s.dataWords buf copied) s) s) s) s) s

/-! ### LDE and STE (R303, R304) -/

/-- An endpoint address of LDE or STE: reserved or beyond 0x3FFF halts with cause 6 (R301). -/
def inkEndpoint (a : Word) (body : Nat → State → State) (s : State) : State :=
  if Nat.ble a.toNat 0x3FFF && !isReserved a.toNat then body a.toNat s else inkHalt 6 s

/-- LDE: the endpoint's value into a register, with the side effects of its read; INK_XCPL gives up its oldest
completion (R308). A mailbox word is read from data SRAM (R291). -/
def inkLde (e : InkEnv) (rd : BitVec 4) (a : Nat) (s : State) : State :=
  let body := fun (s : State) =>
    let r := epRead .ink a s
    pcNext (setG rd r.1 (if a == A.INK_XCPL then cplPop r.2 else r.2))
  if isMailbox a then inkReads e.data [a] body s else body s

end Sys2Proof.Machine
end

