-- ==== Sys2Proof/Machine/Hostport.lean ====
section
/-! DEFINITION. The host port (R259 to R264) and the loader commands (R336). The commands stand in
Machine/HostCmds.lean. -/

namespace Sys2Proof.Machine

/-- The host port's hidden state changed. -/
def State.onHost (s : State) (f : HostSt → HostSt) : State := { s with host := f s.host }

/-! ### Requests and responses -/

/-- The part is in loader mode (R335). -/
def State.loader (s : State) : Bool := s.bit F.STO_BOOT_STAT.LOADER

/-- The host port is active: in the head, and in loader mode. -/
def State.hostOn (s : State) : Bool := s.on 5 && (s.net.headNow || s.loader)

/-- A response is sent; statuses 0x01, 0x02 and 0x04 set HOST_ERR (R262). -/
def hostReply (status htag : Nat) (data : List Word) (s : State) : State :=
  let s := s.onHost fun h => { h with resp := some ⟨status, htag, data⟩ }
  s.raiseIf (status == 1 || status == 2 || status == 4) F.CHN_NET_EVT.HOST_ERR

/-- A request whose CMD is the row's is received: its CRC and FLAGS are judged, and it is answered by `body` (R260, R262).
A request ends an MREAD that still waited.
(DEDUCED, log entry 41.) -/
def hostTake (cmds : Nat → Bool) (r : HostReq) (body : State → State) (s : State) : State :=
  if !s.hostOn || !cmds r.cmd then s
  else
    let s := s.onHost fun h => { h with waits := none }
    if !r.crcOk then hostReply 1 0 [] s
    else if Nat.ble 2 r.flags then hostReply 2 0 [] s
    else body s

/-- A command of R261: not in loader mode, and COUNT within its bounds.
(DEDUCED, log entry 41.) -/
def hostCommand (cmd lo hi : Nat) (r : HostReq) (body : State → State) (s : State) : State :=
  hostTake (· == cmd) r (fun s =>
    if s.loader || Nat.blt r.count lo || Nat.blt hi r.count then hostReply 2 0 [] s else body s) s

/-- A loader command of R336: only in loader mode.
(DEDUCED, log entry 41.) -/
def loaderCommand (cmd : Nat) (r : HostReq) (body : State → State) (s : State) : State :=
  hostTake (· == cmd) r (fun s => if !s.loader then hostReply 2 0 [] s else body s) s

/-- The data words of a request. -/
def reqWords (r : HostReq) (n : Nat) : List Word := padTo 0 n r.data

/-- Slot and local address of a request (R260). -/
def reqSlot (r : HostReq) : Nat := r.addr / 16384 % 64
def reqLocal (r : HostReq) : Nat := r.addr % 16384

/-! ### Authentication (R263) -/

/-- The bytes of a number, most significant first. -/
def beBytes : Nat → Nat → List Byte
  | 0, _ => []
  | n + 1, x => BitVec.ofNat 8 (x / 256 ^ n) :: beBytes n x

/-- The request bytes before the tag. -/
def authBytes (r : HostReq) (n : Nat) : List Byte :=
  beBytes 1 r.cmd ++ beBytes 1 r.flags ++ beBytes 2 r.count ++ beBytes 4 r.addr ++ wordsSent (reqWords r n) ++
  beBytes 4 r.counter

/-- The request of `n` data words authenticates: AUTH = 1, a counter above CHN_HOST_CNT, and the tag. -/
def State.authOk (s : State) (r : HostReq) (n : Nat) : Bool :=
  r.flags == 1 && Nat.blt (s.get F.CHN_HOST_CNT.COUNT) (r.counter % 2 ^ 32) &&
  (s.tru.hostKey.tag (authBytes r n)).map (·.take 8) == some r.tag

/-- `body` runs where authentication is not required, or passes (CHN_HOST_CNT takes the counter); else `deny`.
(DEDUCED, log entry 41.) -/
def hostAuth (needed : Bool) (r : HostReq) (n : Nat) (deny body : State → State) (s : State) : State :=
  if !needed then body s
  else if s.authOk r n then body (s.put F.CHN_HOST_CNT.COUNT r.counter)
  else hostReply 4 0 [] (deny s)

/-! ### Posted commands (R261) -/

/-- Posted commands outstanding or awaiting RESULT. -/
def State.hostPending (s : State) : Nat := s.hostPosted + s.host.results.length

/-- The host command room is full of broadcasts that wait for transmit buffers (R374).
(DEDUCED, log entry 41.) -/
def State.hostFull (s : State) : Bool := Nat.ble Room.hostCommand.size (s.net.outbox.filter (·.host)).length

/-- A posted command of slot 0 that would write the mirror finds the mirror staging full (R258, R374).
(DEDUCED, log entry 41.) -/
def State.hostStuck (s : State) (typ slot : Nat) : Bool := typ != 0 && slot == 0 && !s.mirrorRoom

/-- A posted command is accepted with its HTAG, or the queue or a room it needs is full (`stuck`). With an uncorrectable error
in the host command room it is discarded there (R373).
(DEDUCED, log entry 41.) -/
def hostPost (r : HostReq) (stuck : Bool) (body : Nat → State → State) (s : State) : State :=
  if Nat.ble 8 s.hostPending || s.hostFull || stuck then hostReply 3 0 [] s
  else
    let tag := (s.host.htag + 1) % 256
    sramSees .rooms r.ecc.room id (body tag) (hostReply 0 tag [] (s.onHost fun h => { h with htag := tag }))

/-- A posted READ, WRITE or MODIFY: at once in slot 0, as a request at a slot that is assigned and not lost, else with
status 0x05.
(DEDUCED, log entry 42.) -/
def hostPosted (typ : Nat) (r : HostReq) (data : List Word) (tag : Nat) (s : State) : State :=
  let d := reqSlot r
  let a := reqLocal r
  if d == 0 then
    let x := localRun r.ecc.data .host typ a r.count data s
    let s := if x.1 == 0 then mirrorValues 0 typ a data x.2.1 x.2.2 else x.2.2
    hostComplete tag (hostStatus x.1) x.2.1 s
  else if s.assigned d && !s.lost d then requestAdd (.host tag) d typ a r.count data s
  else hostComplete tag 5 [] s

/-- LREAD, WRITE, MODIFY. -/
def hostLread (r : HostReq) (s : State) : State :=
  hostCommand 0x02 1 63 r (hostPost r false (hostPosted 0 r [])) s
def hostWriteCmd (r : HostReq) (s : State) : State :=
  hostCommand 0x03 1 63 r (fun s => hostAuth (s.bit F.CHN_HOST_CFG.AUTH_REQ) r r.count id
    (fun s => hostPost r (s.hostStuck 1 (reqSlot r)) (hostPosted 1 r (reqWords r r.count)) s) s) s
def hostModifyCmd (r : HostReq) (s : State) : State :=
  hostCommand 0x04 1 1 r (fun s => hostAuth (s.bit F.CHN_HOST_CFG.AUTH_REQ) r 2 id
    (fun s => hostPost r (s.hostStuck 2 (reqSlot r)) (hostPosted 2 r (reqWords r 2)) s) s) s

/-- BWRITE: written here, then broadcast; a reserved address is written nowhere (R255, R487).
(DEDUCED, log entry 42.) -/
def hostBwrite (r : HostReq) (s : State) : State :=
  let data := reqWords r r.count
  let run := fun (tag : Nat) (s : State) =>
    let x := localRun r.ecc.data .host 1 (reqLocal r) r.count data s
    let s := if x.1 == 1 then s else broadcastSend true 1 (reqLocal r) r.count data x.2.2
    hostComplete tag (hostStatus x.1) [] s
  hostCommand 0x08 1 63 r (fun s => hostAuth (s.bit F.CHN_HOST_CFG.AUTH_REQ) r r.count id (hostPost r false run) s) s

/-! ### Reads (R261) -/

/-- An MREAD of another slot is answered from the mirror, once the Cellar is ready (R377, R378). -/
def mreadAnswer (r : HostReq) (s : State) : State :=
  let a := s.mirrorAddr (reqSlot r) (reqLocal r)
  let s := celFound r.ecc.cel a s
  hostReply (if s.assigned (reqSlot r) && !s.lost (reqSlot r) then 0 else 5) 0 (Mem.words 0 s.cel.mem a r.count) s

/-- MREAD.
(DEDUCED, log entry 42.) -/
def hostMread (r : HostReq) (s : State) : State :=
  hostCommand 0x01 1 1024 r (fun s =>
    if Nat.blt 16384 ((reqLocal r) + r.count) then hostReply 2 0 [] s
    else if (reqSlot r) == 0 then
      let x := localRun r.ecc.data .host 0 (reqLocal r) r.count [] s
      hostReply (hostStatus x.1) 0 x.2.1 x.2.2
    else if s.celReady then mreadAnswer r s
    else s.onHost fun h => { h with waits := some r }) s

/-- The Cellar has become ready: an MREAD that waited is answered.
(DEDUCED, log entry 42.) -/
def mreadWaiting (s : State) : State :=
  match s.host.waits with
  | some r => if s.celReady then mreadAnswer r (s.onHost fun h => { h with waits := none }) else s
  | none => s

/-- RESULT: the oldest completed posted command. It is removed once the final CRC byte has been clocked out, which `r.whole`
says.
(DEDUCED, log entry 42.) -/
def hostResult (r : HostReq) (s : State) : State :=
  hostCommand 0x05 0 0 r (fun s =>
    match s.host.results with
    | [] => hostReply 7 0 [] s
    | x :: xs => hostReply x.status x.htag x.data (if r.whole then s.onHost fun h => { h with results := xs } else s)) s

/-- Words a ring holds from RD to WR; they stay readable after EN was cleared (R384). -/
def State.ringUnread (s : State) (n : Nat) : Nat :=
  if s.celReady then ringDist (s.ringSize n) (s.ringRd n) (s.ringWr n) / 4 else 0

/-- RREAD: words of a ring (R378), and its read pointer advances by them once the final CRC byte has been clocked out, which
`r.whole` says.
(DEDUCED, log entry 42.) -/
def hostRread (r : HostReq) (s : State) : State :=
  hostCommand 0x06 1 1024 r (fun s =>
    let n := r.addr % 16
    let k := min r.count (s.ringUnread n)
    let rd := s.ringRd n
    let ws := (List.range k).map fun i => s.ringWord n (rd + 4 * i)
    let s := if k == 0 then s else celFound r.ecc.cel (s.ringBase n + rd % s.ringSize n) s
    hostReply 0 0 ws (if k == 0 || !r.whole then s else ringSetRd n ((rd + 4 * k) % s.ringSize n) s)) s

/-- HSTAT. -/
def hostHstat (r : HostReq) (s : State) : State :=
  hostCommand 0x07 0 0 r (fun s => hostReply 0 0 [s.hostStatView, s.netEvt] s) s

/-- Every other CMD is answered with STATUS 2. -/
def hostUnknown (r : HostReq) (s : State) : State :=
  hostTake (fun c => c == 0 || (Nat.blt 8 c && Nat.blt c 0x40) || Nat.blt 0x44 c) r (hostReply 2 0 []) s

/-- HCS rises before the request CRC is complete: the request is discarded (R259), and an MREAD that waited ends. -/
def hostAbort (s : State) : State := s.onHost fun h => { h with waits := none }

/-! ### The loader (R336) -/

/-- A flash byte address. -/
def reqFlash (r : HostReq) : Nat := r.addr % flashSize

/-- A command that needs the host key where one is programmed, and an idle flash.
(DEDUCED, log entry 41.) -/
def loaderGuarded (cmd n : Nat) (form : HostReq → Bool) (r : HostReq) (body : State → State) (s : State) : State :=
  loaderCommand cmd r (fun s =>
    if !form r then hostReply 2 0 [] s
    else hostAuth (s.tru.hostKey != .blank) r n (fun s => s.raise F.STO_LDR_STAT.AUTHF) (fun s =>
      if s.boot.flashOp.isSome then hostReply 3 0 [] s else body (hostReply 0 0 [] s)) s) s

/-- LSTAT. -/
def loaderStat (r : HostReq) (s : State) : State :=
  loaderCommand 0x40 r (fun s =>
    if r.count != 0 then hostReply 2 0 [] s
    else hostReply 0 0 [s.reg A.STO_BOOT_STAT, s.reg A.STO_BOOT_INIT, s.reg A.STO_LDR_STAT, s.factoryH, s.factoryL] s) s

/-- FERASE. -/
def loaderErase (r : HostReq) (s : State) : State :=
  loaderGuarded 0x41 0 (fun r => r.count == 0 && (reqFlash r) % 4096 == 0) r (flashStart (.erase (reqFlash r))) s

/-- FWRITE. -/
def loaderWrite (r : HostReq) (s : State) : State :=
  loaderGuarded 0x42 r.count (fun r => Nat.ble 1 r.count && Nat.ble r.count 64 && (reqFlash r) % 4 == 0 &&
    Nat.ble ((reqFlash r) % 256 + 4 * r.count) 256) r (flashStart (.program (reqFlash r) (reqWords r r.count))) s

/-- FREAD.
(PRESUMED, log entry 28.) -/
def loaderRead (r : HostReq) (s : State) : State :=
  loaderCommand 0x43 r (fun s =>
    if Nat.blt r.count 1 || Nat.blt 1024 r.count || Nat.blt flashSize ((reqFlash r) + 4 * r.count) then hostReply 2 0 [] s
    else hostReply 0 0 (s.flashWords (reqFlash r) r.count) s) s

/-- REBOOT.
(DEDUCED, log entry 39.) -/
def loaderReboot (r : HostReq) (s : State) : State :=
  loaderGuarded 0x44 0 (fun r => r.count == 0) r rebootNow s

end Sys2Proof.Machine
end

