-- ==== Sys2Proof/Machine/Ports.lean ====
section
/-! DEFINITION. The commands of the chain ports (spec/07_chain_link.md): link states, link-local frames, transmission,
retry and link loss. -/

namespace Sys2Proof.Machine

/-- The link is lost (R227, R228), and what waited for either port's rooms moves on. -/
def lossAt (p : Port) (cause : Nat) (s : State) : State := pumpAll (linkLoss p cause s)

/-! ### Link states (R210 to R216) -/

/-- A write of CHN_Px_CTRL.EN by the program, TONE kept. -/
def portEnWrite (p : Port) (en : Bool) (s : State) : State :=
  s.when (s.on 5) (wrPortCtrl p ((F.CHN_P_CTRL.EN p.idx).write (s.reg (A.CHN_P_CTRL p.idx)) en.toNat))

/-- The silence time ends (R211). -/
def silenceOver (p : Port) (s : State) : State :=
  if s.linkState p == 0 then linkLeave p (s.onPort p fun q => { q with quiet := false }) else s

/-- The wake tone has lasted 100 µs (R211). -/
def toneOver (p : Port) (s : State) : State := if s.linkState p == 1 then linkTrain p s else s

/-- The receiver detects the peer's tone or training blocks in SILENT (R211). -/
def peerHeard (p : Port) (s : State) : State :=
  if s.on (portDomain p) && s.linkState p == 0 && s.bit (F.CHN_P_CTRL.EN p.idx) then
    linkTrain p (s.raise (F.CHN_P_STAT.SIGDET p.idx))
  else s

/-- A training block in TRAIN: RX_OK after four good ones in a row, ALIGN once both ends are RX_OK (R211, R212). -/
def trainBlock (p : Port) (good peerOk : Bool) (s : State) : State :=
  let s := s.onPort p fun q => { q with goodBlocks := if good then min 4 (q.goodBlocks + 1) else 0 }
  let s := (s.raise (F.CHN_P_STAT.SIGDET p.idx)).raiseIf ((s.port p).goodBlocks == 4) (F.CHN_P_STAT.RXOK p.idx)
  let s := eqBound p s
  if good && peerOk && s.bit (F.CHN_P_STAT.RXOK p.idx) then
    (linkTo p 3 s).onPort p fun q => { q with heard := false, peerHeard := false, sentHeard := false }
  else s

/-- A received training block (R212, R227, R230): a good one outside SILENT tells the peer's status, and in UP the link is
lost with cause 5. -/
def blockTake (p : Port) (good peerOk : Bool) (s : State) : State :=
  let s := if good && s.linkState p != 0 then s.putB (F.CHN_P_STAT.PEER_RXOK p.idx) peerOk else s
  match s.linkState p with
  | 2 => trainBlock p good peerOk s
  | 4 => lossAt p 5 s
  | _ => s

/-- 2.0 ms in TRAIN, or 0.4 ms in ALIGN, have passed (R211). -/
def trainOver (p : Port) (s : State) : State := if s.linkState p == 2 then trainFail p s else s
def alignOver (p : Port) (s : State) : State := if s.linkState p == 3 then trainFail p s else s

/-- ALIGN ends in UP when a HELLO with HEARD = 1 has been received and one has been sent (R213). -/
def helloCheck (p : Port) (s : State) : State :=
  if s.linkState p == 3 && (s.port p).peerHeard && (s.port p).sentHeard then linkUp p s else s

/-- An LNK_HELLO is sent in ALIGN (R213, R220). -/
def helloSend (p : Port) (s : State) : State :=
  if s.linkState p != 3 then s
  else
    let heard := (s.port p).heard
    let w2 := Word.ofNat (0x01000000 + p.idx * 0x10000 + heard.toNat * 0x100)
    let s := sendLine p (s.newFrame 0 1 0x7F 0 16 [s.factoryH, s.factoryL, w2, 0]) s
    helloCheck p (s.onPort p fun q => { q with sentHeard := q.sentHeard || heard })

/-- An LNK_HELLO is valid where its VER is 0x01 (R213). -/
def helloValid (f : Frame) : Bool := (f.payload.getD 2 0).extractLsb' 24 8 == 0x01

/-- What a LNK_HELLO says of the neighbour: its factory number where it is valid, else a mismatch (R213, R230). -/
def helloNote (p : Port) (f : Frame) (s : State) : State :=
  if helloValid f then
    (s.setReg (A.CHN_P_PEERH p.idx) (f.payload.getD 0 0)).setReg (A.CHN_P_PEERL p.idx) (f.payload.getD 1 0)
  else s.raise (F.CHN_P_EVT.VER_MISMATCH p.idx)

/-- A LNK_HELLO in ALIGN (R213): a valid one is heard.
(DESIGN CHOICE, log entry 48.) -/
def helloTake (p : Port) (f : Frame) (s : State) : State :=
  if helloValid f then
    helloCheck p (s.onPort p fun q =>
      { q with heard := true, peerHeard := q.peerHeard || (f.payload.getD 2 0).getLsbD 8 })
  else s

/-- A received LNK_HELLO (R213, R221, R227); in UP the link is lost with cause 5. -/
def helloReceived (p : Port) (f : Frame) (s : State) : State :=
  if !frameIs 0 1 f || Nat.blt (s.linkState p) 3 then s
  else if !f.crcOk then frameDiscard p .crc s
  else if frameMalformed f then frameDiscard p .fmt s
  else
    let s := helloNote p f (frameCount p f s)
    if s.portUp p then lossAt p 5 s else helloTake p f s

/-- The detector in D0 hears a tone (R215): it reports a wake to the Porter, which samples it where it looks for wakes
(R413); in SILENT, WAKE_HEARD is set.
(DESIGN CHOICE, log entry 31.) -/
def toneHeard (p : Port) (s : State) : State :=
  let s := s.raiseIf (s.on 5 && s.linkState p == 0) (F.CHN_P_EVT.WAKE_HEARD p.idx)
  if s.inDev [.halt, .dormant, .standby] then
    { s with ptr := { s.ptr with tones := s.ptr.tones ||| BitVec.ofNat 2 (p.idx + 1) } }
  else s

/-- The equaliser moves in TRAIN and in UP (R216). -/
def eqMove (p : Port) (target : Nat) (s : State) : State :=
  if s.linkState p == 2 || s.linkState p == 4 then eqStep p (target % 16) s else s

/-! ### Link-local frames in UP (R220 to R222, R226) -/

/-- A link-local frame (R221): a good one in UP acts.
(DESIGN CHOICE, log entry 48.) -/
def localFrame (p : Port) (f : Frame) (body : State → State) (s : State) : State :=
  judgeFrame p f (fun s => body (goodFrame p f s)) s

/-- A received LNK_IDLE: its SENT fields reveal lost STREAM and BULK frames (R226). -/
def idleTake (p : Port) (f : Frame) (s : State) : State :=
  let w := f.payload.headD 0
  if frameIs 0 0 f then
    localFrame p f (fun s => seqAdvance p 3 (w.extractLsb' 0 8) (seqAdvance p 2 (w.extractLsb' 8 8) s)) s
  else s

/-! ### Transmission (R223 to R225) -/

/-- The counter of a class lets the frame go (R223). -/
def State.counterLets (s : State) (p : Port) (f : Frame) : Bool :=
  let n := s.get (countField p f.cls)
  if isRequest f then Nat.ble 3 n else Nat.ble 1 n

/-- How long ago a reliable frame was first sent, in sequence numbers: the oldest uncovered frame has the most (R225). -/
def PortSt.txAge (q : PortSt) (t : TxFrame) : Nat := (q.txSeq - BitVec.ofNat 8 t.frame.seq).toNat

/-- The oldest of the frames a rule selects, with its index in the transmit room. -/
def PortSt.oldest (q : PortSt) (sel : TxFrame → Bool) : Option (TxFrame × Nat) :=
  q.tx.zipIdx.foldl (fun m x =>
    if !sel x.1 then m
    else match m with
      | none => some x
      | some y => if Nat.blt (q.txAge y.1) (q.txAge x.1) then some x else some y) none

/-- The frame that goes next, with its index in the transmit room: retransmissions in SEQ order, then new frames by
class. -/
def State.txNext (s : State) (p : Port) : Option (TxFrame × Nat) :=
  match (s.port p).oldest fun t => t.stage == .resend with
  | some t => some t
  | none =>
    let new := fun (k : Nat) =>
      (s.port p).tx.zipIdx.find? fun t => t.1.stage == .new && t.1.frame.cls == k && s.counterLets p t.1.frame
    (new 0).or ((new 1).or ((new 2).or (new 3)))

/-- A retransmission (R225). -/
def sendAgain (p : Port) (t : TxFrame) (i : Nat) (s : State) : State :=
  let s := s.onPort p fun q => { q with tx := q.tx.set i { t with stage := .sent } }
  let s := (s.bump (F.CHN_P_RTX.RETX p.idx) 1).raise (F.CHN_P_EVT.RETRY p.idx)
  sendLine p t.frame s

/-- A new frame takes its SEQ and a counter; a reliable one stays in the room until it is acknowledged (R223, R224). -/
def sendNew (p : Port) (t : TxFrame) (i : Nat) (s : State) : State :=
  let f := t.frame
  let fld := countField p f.cls
  let s := s.put fld (s.get fld - 1)
  let q := s.port p
  let drop := q.tx.eraseIdx i
  if isReliable f then
    let f := { f with seq := q.txSeq.toNat }
    sendLine p f (s.setPort p { q with tx := q.tx.set i ⟨f, .sent, 0⟩, txSeq := q.txSeq + 1 })
  else if f.cls == 2 then
    sendLine p { f with seq := q.txStream.toNat } (s.setPort p { q with tx := drop, txStream := q.txStream + 1 })
  else
    sendLine p { f with seq := q.txBulk.toNat } (s.setPort p { q with tx := drop, txBulk := q.txBulk + 1 })

/-- The next frame is sent (R229). -/
def transmit (p : Port) (s : State) : State :=
  if !s.portUp p then s
  else match s.txNext p with
    | none => s
    | some (t, i) => pumpAll (if t.stage == .resend then sendAgain p t i s else sendNew p t i s)

/-- An LNK_IDLE is sent when no other frame is ready (R220). -/
def idleOut (p : Port) (s : State) : State :=
  if !s.portUp p || (s.txNext p).isSome then s
  else
    let q := s.port p
    sendLine p (s.newFrame 0 0 0x7F 0 4 [Word.ofNat (q.txStream.toNat * 256 + q.txBulk.toNat)]) s

/-- 8.0 µs without acknowledgement of the oldest uncovered frame (R225): every uncovered frame is due again, or the link
is lost with cause 4 at the eighth expiry.
(DESIGN CHOICE, log entry 48.) -/
def retryExpire (p : Port) (s : State) : State :=
  match (s.port p).oldest fun t => t.stage != .new with
  | none => s
  | some (t, _) =>
    if !s.portUp p || t.stage != .sent then s
    else if Nat.ble 7 t.expiries then lossAt p 4 s
    else s.onPort p fun q => { q with tx := q.tx.map fun t =>
      if t.stage == .new then t else { t with stage := .resend, expiries := t.expiries + 1 } }

/-! ### Reception and loss (R221, R226, R227) -/

/-- Receiver lock or signal is lost for 2 µs (R212, R227).
(DESIGN CHOICE, log entry 48.) -/
def lockLost (p : Port) (s : State) : State :=
  let s := (s.put (F.CHN_P_STAT.SIGDET p.idx) 0).put (F.CHN_P_STAT.RXOK p.idx) 0
  if s.portUp p then lossAt p 1 s else s.onPort p fun q => { q with goodBlocks := 0 }

/-- 50 µs without a good frame (R227). -/
def frameLate (p : Port) (s : State) : State := if s.portUp p then lossAt p 2 s else s

/-- Sixteen frames in a row were discarded (R227). -/
def discardFull (p : Port) (s : State) : State :=
  if s.portUp p && Nat.ble 16 (s.port p).discards then lossAt p 3 s else s

/-- A frame is discarded, or a code violation met outside one, in ALIGN or UP (R221). -/
def discarded (p : Port) (why : DiscardWhy) (s : State) : State :=
  if Nat.ble 3 (s.linkState p) then frameDiscard p why s else s

end Sys2Proof.Machine
end

