-- ==== Sys2Proof/Machine/Network.lean ====
section
/-! DEFINITION. The commands of the chain network, time and head role (spec/08_chain_network.md): network frames, the
head's steps, the alignment base, delay measurement and EPOCH. -/

namespace Sys2Proof.Machine

/-! ### Network frames (R235 to R239, R241) -/

/-- DIR and HOPS of a network frame's word 0 (R237). -/
def frameDir (f : Frame) : Bool := (f.payload.headD 0).getLsbD 31
def frameHops (f : Frame) : Nat := ((f.payload.headD 0).extractLsb' 24 6).toNat

/-- Word 0 with DIR, or HOPS, set. -/
def setDir (w : Word) : Word := w ||| 0x80000000
def setHops (w : Word) (n : Nat) : Word := (w &&& 0xC0FFFFFF) ||| Word.ofNat (n % 64 * 0x1000000)

/-- A member passes a network frame on (R238): with DIR = 0 it acts on it, counts the hop, and forwards or turns it; with
DIR = 1 it forwards it. Its buffer is released once the frame has been copied (R222). -/
def memberPass (p : Port) (f : Frame) (act : State → Frame × State) (s : State) : State :=
  if frameDir f then if s.portUp p.opp then passOn p f p.opp s else freeBuffer p f s
  else
    let r := act s
    let g := { r.1 with payload := modAt r.1.payload 0 fun w => setHops w (frameHops f + 1) }
    if r.2.portUp p.opp then passOn p g p.opp r.2
    else passOn p { g with payload := modAt g.payload 0 setDir } p r.2

/-- The frame is a copy this head sent in the step in progress.
(DEDUCED, log entry 49.) -/
def State.ownCopy (s : State) (st : HeadStep) (f : Frame) : Bool :=
  s.net.headNow && f.src == s.slot && s.net.search.step == st && f.gen == s.get F.CHN_NET_STAT.GEN &&
  Nat.blt 0 s.net.search.copies

/-- A copy has come back to the head on a port: with DIR = 0 it has gone round the ring (R238). When it is the last, the
step is complete.
(DEDUCED, log entry 49.) -/
def copyBack (f : Frame) (take : SearchSt → SearchSt) (s : State) : State :=
  headRun headFuel (s.onSearch fun x =>
    let x := take { x with ring := x.ring || !frameDir f }
    { x with copies := x.copies - 1 })

/-- PRES of a NET_SEARCH as one number: bit v is word 3 + v / 32, bit v mod 32 (R237). -/
def presOf (f : Frame) : BitVec 256 :=
  (List.range 8).foldl (fun n k => n ||| ((f.payload.getD (3 + k) 0).zeroExtend 256 <<< (32 * k))) 0

/-- This device takes part in the search (R239). -/
def State.takesPart (s : State) (f : Frame) : Bool :=
  let depth := ((f.payload.headD 0).extractLsb' 16 3).toNat
  let pre := fnumBytes (f.payload.getD 1 0) (f.payload.getD 2 0)
  !s.bit F.CHN_NET_STAT.SLOTV && !s.net.headNow && s.factory.take depth == pre.take depth

/-- A participant clears its bit of PRES (R239). -/
def searchAct (f : Frame) (s : State) : Frame × State :=
  if !s.takesPart f then (f, s)
  else
    let v := s.factory.getD ((f.payload.headD 0).extractLsb' 16 3).toNat 0
    ({ f with payload := modAt f.payload (3 + v / 32) fun w => w &&& ~~~((1 : Word) <<< (v % 32)) }, s)

/-- DEPTH and PREFIX of a NET_SEARCH, as the prefix they spell (R237). -/
def searchPrefix (f : Frame) : List Nat :=
  (fnumBytes (f.payload.getD 1 0) (f.payload.getD 2 0)).take ((f.payload.headD 0).extractLsb' 16 3).toNat

/-- A NET_SEARCH at the head is its own copy of the step in progress: it carries its GEN, DEPTH and PREFIX (R231, R238).
(DEDUCED, log entry 49.) -/
def State.ownSearch (s : State) (f : Frame) : Bool :=
  s.ownCopy .search f && searchPrefix f == s.net.search.prefixNow

/-- A NET_SEARCH at the head is its own copy of a step it has abandoned (R243).
(DEDUCED, log entry 49.) -/
def State.pastSearch (s : State) (f : Frame) : Bool :=
  f.src == s.slot && s.net.search.past.any fun x => x.1 == f.gen && x.2.1 == searchPrefix f && x.2.2 != 0

/-- A copy of an abandoned step has come back. -/
def pastBack (f : Frame) (s : State) : State :=
  s.onSearch fun x => { x with past := x.past.map fun y =>
    if y.1 == f.gen && y.2.1 == searchPrefix f then (y.1, y.2.1, y.2.2 - 1) else y }

/-- NET_SEARCH delivered (R231, R238, R239). Another head's search is told from an own copy by what it carries.
(DEDUCED, log entry 49.) -/
def searchDeliver (p : Port) (f : Frame) (s : State) : State :=
  if s.net.headNow then
    freeBuffer p f (if s.ownSearch f then copyBack f (fun x => { x with pres := x.pres &&& presOf f }) s
      else if s.pastSearch f then pastBack f s
      else s.raise F.CHN_NET_EVT.HEAD_CONFLICT)
  else memberPass p f (searchAct f) s

/-- The device with the factory number takes the slot (R241). -/
def assignAct (f : Frame) (s : State) : Frame × State :=
  let w := f.payload.headD 0
  if s.bit F.CHN_NET_STAT.SLOTV || f.payload.getD 1 0 != s.factoryH || f.payload.getD 2 0 != s.factoryL then (f, s)
  else
    let s := (s.raise F.CHN_NET_STAT.SLOTV).put F.CHN_NET_STAT.SLOT (w.extractLsb' 16 6).toNat
    ({ f with payload := modAt f.payload 0 fun w => w ||| 0x00800000 }, s.raise F.CHN_NET_EVT.ASSIGNED)

/-- The head records an assignment that was taken (R241). -/
def assignRecord (f : Frame) (s : State) : State :=
  let w := f.payload.headD 0
  let n := (w.extractLsb' 16 6).toNat
  if !w.getLsbD 23 then s
  else putSlot A.CHN_ASGL A.CHN_ASGH n true
    ((s.setReg (A.CHN_SLOTF_H n) (f.payload.getD 1 0)).setReg (A.CHN_SLOTF_L n) (f.payload.getD 2 0))

/-- NET_ASSIGN delivered. -/
def assignDeliver (p : Port) (f : Frame) (s : State) : State :=
  if s.net.headNow then freeBuffer p f (if s.ownCopy .assign f then copyBack f id (assignRecord f s) else s)
  else memberPass p f (assignAct f) s

/-- The alignment base takes a value; a change ends the balancing slot in progress (R182, R250).
(DEDUCED, log entry 50.) -/
def setBase (h l : Word) (s : State) : State :=
  if s.reg A.CHN_EPOCH_BH == h && s.reg A.CHN_EPOCH_BL == l then s
  else balBase ((s.setReg A.CHN_EPOCH_BH h).setReg A.CHN_EPOCH_BL l)

/-- A set gives a member its routes, GEN, the base in use and the schedule of the next (R238, R250).
(DEDUCED, log entry 50.) -/
def routeSet (f : Frame) (s : State) : State :=
  let w := fun k => f.payload.getD k 0
  let w0 := w 0
  let s := setRoutes (w0.extractLsb' 16 7).toNat (w0.getLsbD 15) (w0.extractLsb' 8 6).toNat (f.payload.drop 7) s
  let s := setBase (w 1) (w 2) (setGen f.gen s)
  let s := ((s.setReg A.CHN_EPOCH_NBH (w 3)).setReg A.CHN_EPOCH_NBL (w 4)).setReg A.CHN_EPOCH_ACTH (w 5)
  let s := s.setReg A.CHN_EPOCH_ACTL (w 6)
  timePortCheck (s.onNet fun x => { x with basePending := true })

/-- NET_ROUTE at a member: a survey takes its slot, a set is applied (R238). -/
def routeAct (f : Frame) (s : State) : Frame × State :=
  if (f.payload.headD 0).getLsbD 23 then (f, routeSet f s)
  else
    let h := frameHops f
    let put := fun (w : Word) =>
      (w &&& ~~~((0xFF : Word) <<< (8 * (h % 4)))) ||| (Word.ofNat s.slot <<< (8 * (h % 4)))
    ({ f with payload := modAt f.payload (7 + h / 4) put }, s)

/-- NET_ROUTE delivered: back at the head, a survey's copy gives the table of the side it left by. -/
def routeDeliver (p : Port) (f : Frame) (s : State) : State :=
  if s.net.headNow then
    let set := (f.payload.headD 0).getLsbD 23
    let s := freeBuffer p f s
    if set then (if s.ownCopy .route f then copyBack f id s else s)
    else if s.ownCopy .survey f then
      let left := if frameDir f then p else p.opp
      let t := some ((List.range 64).map fun i => tableByte (f.payload.drop 7) i, frameHops f)
      copyBack f (fun x => match left with | .south => { x with tableS := t } | .north => { x with tableN := t }) s
    else s
  else memberPass p f (routeAct f) s

/-- A NET_LINK is this device's own: by SRC, or one sent without a slot by its factory number (R235).
(DEDUCED, log entry 52.) -/
def State.ownLink (s : State) (f : Frame) : Bool :=
  if f.src == 0x7F then f.payload.getD 1 0 == s.factoryH && f.payload.getD 2 0 == s.factoryL else s.ownFrame f

/-- What a NET_LINK of another device says (R236): a break at a known position is recorded; the head acts. -/
def linkNews (f : Frame) (s : State) : State :=
  let w := f.payload.headD 0
  let up := w.getLsbD 31
  let known := f.src != 0x7F && s.pos f.src != 0xFF
  let b := s.linkAt (s.pos f.src) (w.getLsbD 30)
  let s := if up || !known then s else if s.net.headNow then headBreak b s else recordBreak b s
  timePortCheck (if s.net.headNow then headChange up s else s)

/-- NET_LINK delivered. -/
def linkDeliver (p : Port) (f : Frame) (s : State) : State :=
  let own := s.ownLink f
  passBroadcast p f own (if own then s else linkNews f s)

/-- A received network frame of a type: it is for every device (R237); one that names a slot is routed and does nothing.
(DESIGN CHOICE, log entry 48.) -/
def takeNet (p : Port) (typ : Nat) (f : Frame) (deliver : State → State) (s : State) : State :=
  if frameIs 0 typ f then pumpAll (receive p f (if f.dst == 0x7F then deliver else freeBuffer p f) s) else s

/-- A step of the head has failed (R238, R243). -/
def stepFailed (s : State) : State :=
  if !s.net.headNow || s.net.search.step == .idle || s.net.search.copies == 0 then s
  else headRestart false (setGen (s.get F.CHN_NET_STAT.GEN + 1) s)

/-! ### The alignment base (R250) -/

/-- ACT, and NB. -/
def State.actAt (s : State) : Time := s.reg A.CHN_EPOCH_ACTH ++ s.reg A.CHN_EPOCH_ACTL

/-- The first trigger instant at or after ACT: NB comes into use.
(DESIGN CHOICE, log entry 7; DEDUCED, log entry 50.) -/
def baseTake (t : Time) (s : State) : State :=
  if s.net.basePending && s.isTrigger t && Nat.ble s.actAt.toNat t.toNat && s.timeMay t && s.on 4 then
    let s := { s with ptr := { s.ptr with time := t }, net := { s.net with basePending := false } }
    (setBase (s.reg A.CHN_EPOCH_NBH) (s.reg A.CHN_EPOCH_NBL) s).raise F.CHN_NET_EVT.BASE
  else s

/-! ### Delay measurement (R245, R246) -/

/-- The 100 ms of the exchange have passed (R245). -/
def rttDue (s : State) : State :=
  match s.timePort with
  | some p => rttSend p s
  | none => s

/-- A neighbour's request is answered: t2 is now with the fraction seen, t3 the answer's start (R245).
(DESIGN CHOICE, log entry 18.) -/
def rttAnswer (p : Port) (rxFrac : Nat) (s : State) : State :=
  let t := s.timeNow
  let frac := Config.txFrac s.free % 256
  let s := s.draw
  let w0 := Word.ofNat (0x40000000 + s.lock.toNat * 0x20000000 + rxFrac % 256 * 256 + frac)
  sendLine p (s.newFrame 0 2 0x7F 0 16 [w0, t.extractLsb' 32 32, t.extractLsb' 32 32, t.extractLsb' 0 32]) s

/-- KIND of an LNK_RTT (R245). -/
def rttKind (f : Frame) : Nat := ((f.payload.headD 0).extractLsb' 30 2).toNat

/-- A received LNK_RTT that is no response: a request is answered, any other is counted and does nothing (R218, R245). -/
def rttRequest (p : Port) (f : Frame) (rxFrac : Nat) (s : State) : State :=
  if frameIs 0 2 f && rttKind f != 1 then
    localFrame p f (fun s => if f.len == 8 && rttKind f == 0 then rttAnswer p rxFrac s else s) s
  else s

/-- Half of a difference in 1/256 tick; an odd one is rounded as the part rounds it.
(DESIGN CHOICE, log entry 19.) -/
def halfTick (twice : Int) : Int := if twice % 2 == 0 then twice / 2 else twice / 2 + (Config.delayUp twice).toNat

/-- A response gives the delay and the offset of the time port (R246), and the neighbour's LOCK (R248). In acquisition
TIME[63:32] follows from it (R247).
(DEDUCED, log entry 51.) -/
def rttTake (p : Port) (f : Frame) (t4 : Int) (s : State) : State :=
  match s.net.rttSent with
  | none => s
  | some (q, t1) =>
    if q != p then s
    else
      let w := fun k => f.payload.getD k 0
      let t3 : Int := ((w 1).toNat * 2 ^ 32 + f.time % 2 ^ 32) * 256 + ((w 0).extractLsb' 0 8).toNat
      let t2 : Int := ((w 2).toNat * 2 ^ 32 + (w 3).toNat) * 256 + ((w 0).extractLsb' 8 8).toNat
      let d := halfTick ((t4 - t1) - (t3 - t2))
      let theta := halfTick ((t2 - t1) - (t4 - t3))
      let peer := (w 0).getLsbD 29
      let s := (s.put F.CHN_TIME_DLY.DLY (unsign 24 d)).putB F.CHN_TIME_STAT.PEER_LOCK peer
      let s := s.onNet fun x => { x with theta := theta, t2 := t2, rttSent := none, rttPort := some p }
      if !peer then dropLock s
      else if s.lock then s
      else
        let high := (BitVec.ofInt 64 (s.ptr.time.toNat + theta / 256)).extractLsb' 32 32
        s.onPtr fun x => { x with time := high ++ x.time.extractLsb' 0 32 }

/-- A received LNK_RTT response. -/
def rttResponse (p : Port) (f : Frame) (t4 : Int) (s : State) : State :=
  if frameIs 0 2 f && rttKind f == 1 then
    localFrame p f (fun s => if f.len == 16 then rttTake p f t4 s else s) s
  else s

/-! ### EPOCH (R247, R248) -/

/-- The device's TIME is a multiple of 3,000 ticks while LOCK = 1: the marker leaves on each port in UP.
(DESIGN CHOICE, log entry 7; DEDUCED, log entry 51.) -/
def epochOut (t : Time) (s : State) : State :=
  if s.lock && t.toNat % 3000 == 0 && s.timeMay t && s.on 4 then
    (s.onPtr fun x => { x with time := t }).each ([Port.north, .south].filter s.portUp) fun p s =>
      s.onPort p fun q => { q with epoch := some t }
  else s

/-- The integer nearest a quotient.
(DESIGN CHOICE, log entry 19.) -/
def nearest (a b : Int) : Int :=
  let q := a / b
  let r := 2 * (a % b)
  if r < b then q else if b < r then q + 1 else q + (Config.tieUp (2 * q + 1)).toNat

/-- The bound of y and y_i, in 1/256 ppb. -/
def freqMax : Int := 5000000 * 256

/-- The neighbour on the time port showed LOCK = 1 in the last response, and that measured this port (R244, R247, R248).
(DEDUCED, log entry 51.) -/
def State.peerLock (s : State) : Bool :=
  s.bit F.CHN_TIME_STAT.PEER_LOCK && s.net.rttPort.isSome && s.net.rttPort == s.timePort

/-- LOCK follows the run of small and of large errors (R248); `e` in 1/256 tick.
(DEDUCED, log entry 51.) -/
def epochLock (e : Int) (s : State) : State :=
  let good := s.net.lockRun
  let bad := s.net.unlockRun
  let g := if 10 * e.natAbs ≤ 256 then min 32 (good + 1) else 0
  let b := if 2 * e.natAbs > 256 then min 4 (bad + 1) else 0
  let s := s.onNet fun x => { x with lockRun := g, unlockRun := b }
  if s.lock then (if b == 4 then dropLock s else s)
  else if g == 32 && s.peerLock then setLock true s else s

/-- An EPOCH on the time port, received at `trx` in 1/256 tick: the device steers (R247).
(DEDUCED, log entry 51.) -/
def epochTake (p : Port) (trx : Int) (s : State) : State :=
  if s.timePort != some p then s
  else
    let d : Int := s.get F.CHN_TIME_DLY.DLY
    let n := nearest (trx - d) (3000 * 256)
    let e0 := trx - (3000 * 256 * n + d)
    let step := !s.lock && decide (e0.natAbs > 100 * 256) && s.peerLock
    let k := if step then nearest e0 256 else 0
    let e := e0 - 256 * k
    let s := s.onPtr fun x => { x with time := x.time - BitVec.ofInt 64 k }
    let yi := clamp (-freqMax) freqMax (s.net.yi - 2604 * e)
    let y := clamp (-freqMax) freqMax (yi - 41667 * e)
    let s := freqReport (s.onNet fun x => { x with yi := yi, y := y })
    let s := s.put F.CHN_TIME_STAT.ERR (unsign 16 (clamp (-32768) 32767 e))
    epochLock e s

/-- 120 µs without an EPOCH on the time port (R248). -/
def epochLate (s : State) : State := if s.net.headNow then s else dropLock s

/-! ### SAFETY frames of the Guard (R316, R367) -/

/-- A received GRD_NOTE (R316): a broadcast one is latched and passed on by every device that receives it, one addressed to
this device is latched.
(DEDUCED, log entry 52.) -/
def noteTake (p : Port) (f : Frame) (s : State) : State :=
  let deliver := fun (s : State) =>
    let own := s.ownFrame f
    if f.dst == 0x7F then passBroadcast p f own (if own then s else noteLatch f s) else freeBuffer p f (noteLatch f s)
  if frameIs 0 0x10 f then pumpAll (receive p f deliver s) else s

end Sys2Proof.Machine
end

