-- ==== Sys2Proof/Machine/Operands.lean ====
section
/-! DEFINITION. The operand forms of the commands: what bars a write of the program or an index out of range, the
immediates and targets of the Innkeeper's instructions, and the operand forms of single commands. -/

namespace Sys2Proof.Machine

/-! ### Writes by the program, the chain or the host -/

/-- An access to a register of D5: no path to the endpoints exists while D5 is off (R11).
(DEDUCED, log entry 8.) -/
def byProgram (f : State → State) (s : State) : State := if s.on 5 then f s else s

/-- An access to a register of the Guard, which lies in D6 (R371).
(DEDUCED, log entry 8.) -/
def byGuard (f : State → State) (s : State) : State := if s.on 5 && s.on 6 then f s else s

/-- An index within its range; a command that names another acts on nothing.
(DESIGN CHOICE, log entry 71.) -/
def upTo (count n : Nat) (f : State → State) (s : State) : State := if Nat.blt n count then f s else s

/-- REGISTER_WRITE: an endpoint that is not reserved is written on a path (R6, R487); a GRD register while D6 is on.
(DEDUCED, log entry 8.) -/
def programWrite (p : Path) (a : Nat) (v : Word) (s : State) : State :=
  if isReserved a then s else if isGrd a then byGuard (epWrite p a v) s else byProgram (epWrite p a v) s

/-- A read of SDP_RESn marks it (R93). -/
def resTaken (n : Nat) (s : State) : State := upTo 25 n (resMark n) s

/-! ### Immediates and targets of the Innkeeper (R296) -/

/-- An immediate sign-extended, and zero-extended. -/
def immS (i : BitVec 18) : Word := i.signExtend 32
def immZ (i : BitVec 18) : Word := i.zeroExtend 32

/-- The signed minimum and maximum of two words. -/
def signedMin (a b : Word) : Word := if a.toInt ≤ b.toInt then a else b
def signedMax (a b : Word) : Word := if a.toInt ≤ b.toInt then b else a

/-- An instruction that reaches memory, an endpoint or the event lines: fetched, checked, then its own effect, which
moves PC. -/
def inkData (e : InkEnv) (effect : State → State) (s : State) : State := inkFetch e (inkSeq (inkChecked e effect)) s

/-- LW, SW, LB and SB at an address that is legal (R290, R291, R297). SB changes one byte of a stored word, which it
reads for its check bits.
(DEDUCED, log entry 53.) -/
def inkLw (e : InkEnv) (rd : BitVec 4) (i : Nat) (s : State) : State :=
  inkReads e.data [i] (fun s => pcNext (setG rd (s.dataWord i) s)) s
def inkSw (rd : BitVec 4) (i : Nat) (s : State) : State := pcNext (setData i (s.g rd) s)
def inkLb (e : InkEnv) (rd : BitVec 4) (a : Nat) (s : State) : State :=
  inkReads e.data [a / 4] (fun s => pcNext (setG rd ((Mem.byte 0 s.ink.data a).zeroExtend 32) s)) s
def inkSb (e : InkEnv) (rd : BitVec 4) (a : Nat) (s : State) : State :=
  inkReads e.data [a / 4] (fun s => pcNext (s.onInk fun k =>
    { k with data := Mem.setByte 0 k.data a ((s.g rd).extractLsb' 0 8) })) s

/-- STE (R304). -/
def inkSte (rd : BitVec 4) (a : Nat) (s : State) : State := pcNext (epWrite .ink a (s.g rd) s)

/-- JAL's link: g15 = PC + 1 (R297).
(DEDUCED, log entry 53.) -/
def inkLink (pc : BitVec 14) (s : State) : State := setG 15 (Word.ofNat (pc.toNat + 1)) s

/-- BCC (R299): COND = 15 is illegal; taken, it jumps; else PC moves on. -/
def inkBcc (e : InkEnv) (cond : BitVec 4) (off : BitVec 18) (s : State) : State :=
  if cond == 15 then inkHalt 4 s
  else if condHolds s.ink cond.toNat then inkJump e (s.inkRel off.toInt) id s
  else inkSeq (inkChecked e pcNext) s

/-! ### The Store (R377, R389 to R391) -/

/-- A write of STO_CEL_CTRL that sets, or clears, EN. -/
def celSwitch (en : Bool) (v : Word) (s : State) : State :=
  if (F.STO_CEL_CTRL.EN.read v == 1) == en then wrCelCtrl v s else s

/-- The Ledger writer turns to its next work: D5 on, no thermal shutdown under way (R200, R389). -/
def ledgerStart (s : State) : State := if s.on 5 && !s.thm.closing then ledStart s else s

/-- A phase controller capture waits no more (R175).
(DEDUCED, log entry 62.) -/
def captureOver (written : Bool) (s : State) : State :=
  let s := s.raiseIf written F.PHC_EVT.REC_DONE
  if s.led.q11.isSome then s else s.put F.PHC_FLT.PEND 0

/-- What the requester of a record learns once it has been written (R175, R362, R442). -/
def recordWritten (typ : Nat) (w : LedWrite) (s : State) : State :=
  if typ == 0x11 then captureOver true s
  else if typ == 0x21 then commitDone (w.words.getD 1 0) s
  else if typ == 0x31 then markSet s
  else s

/-- What the requester of a record learns once it has been discarded (R391).
(DEDUCED, log entry 62.) -/
def recordDiscarded (typ : Nat) (s : State) : State :=
  if typ == 0x11 then captureOver false s
  else if typ == 0x21 then commitLost s
  else if typ == 0x31 then recordLost s
  else s

/-- A record's write ends, verified or not (R390, R391), or with its record lost from the queue (R373); a shut-down that waited
for it may end (R405). -/
def ledgerEnd (o : WriteObs) (s : State) : State :=
  match s.led.writing with
  | none => s
  | some w =>
    let ends := fun (s : State) => if o.verifyOk then ledDone w s else ledFailed w s
    haltEnd (match w.item with
    | .copy _ => ends s
    | .record t => sramSees .buffers o.queue (fun s => recordDiscarded t (ledLost w s)) (fun s =>
        let s := ends s
        if o.verifyOk then recordWritten t w s else if w.attempt == 0 then s else recordDiscarded t s) s)

/-- A sector erase completes (R390). -/
def eraseEnd (s : State) : State :=
  match s.led.erasing with
  | none => s
  | some sec => haltEnd (ledErasedDone sec s)

/-! ### The Porter and the test (R401, R410, R434, R438) -/

/-- A write of PTR_REQ with a TARGET. -/
def reqTarget (target : Nat) (v : Word) (first : State → State) (s : State) : State :=
  if F.PTR_REQ.TARGET.read v == target then wrPtrReq v (first s) else s

/-- A write of PTR_REQ with a TARGET other than 4, 5 and 7. -/
def reqOther (v : Word) (s : State) : State :=
  if [4, 5, 7].contains (F.PTR_REQ.TARGET.read v) then s else wrPtrReq v s

/-- VDD5 changes its source (R410). -/
def supplySource (fromVsup : Bool) (s : State) : State := s.onPtr fun p => { p with vsup := fromVsup }

/-- A write of TRU_PRG_CTRL with GO = 1, for a word or for a fuse. -/
def prgAsk (fuse : Bool) (p : Path) (v : Word) (vpp : Bool) (s : State) : State :=
  if F.TRU_PRG_CTRL.GO.read v == 1 && (F.TRU_PRG_CTRL.FUSE.read v == 1) == fuse then wrPrgCtrl p v (seeVpp vpp s) else s

/-- A write of TRU_TEST_KEY with one of the two keys. -/
def keyAsk (key : Nat) (v : Word) (o : UnlockObs) (s : State) : State :=
  if F.TRU_TEST_KEY.KEY.read v == key then wrTestKey v o s else s

/-- 1.0 ms without the second key cancels an armed sequence (R438). -/
def keyLate (s : State) : State := if s.bit F.TRU_STAT.ARMED then testCancel s else s

/-- TST falls: an armed sequence is cancelled (R438). -/
def tstFell (s : State) : State := keyLate (seeTst false s)

/-! ### What happens while no command waits (R419, R296, R311) -/

/-- TIME counts on: one tick on ICLK, or with D4 off one KCLK edge. -/
def timeStep (s : State) : State :=
  if s.on 4 then s.onPtr fun p => { p with time := p.time + 1 }
  else s.onPtr fun p =>
    { p with time := p.time + (if p.kedge == 7 then 48829 else 48828), kedge := p.kedge + 1 }

/-- What happens of itself while no command waits: TIME counts on, and the Cellar takes the oldest staged stream block, or what
waits for room moves on. An unpowered device does nothing.
(DESIGN CHOICE, log entry 3.) -/
def tick (s : State) : State :=
  if s.ptr.dev == .off then s
  else
    let s := timeStep s
    settle s (celPump s)

/-- The program SRAM word at PC (R290). -/
def State.inkWord (s : State) : Word := Mem.word 0 s.ink.prog (4 * s.ink.pc.toNat)

/-- What the Innkeeper does of itself while no command waits: the instruction at PC, or the end of a WFE whose line has
asserted.
(DESIGN CHOICE, log entry 4.) -/
def State.inkNext (s : State) : Option Instr :=
  match s.ink.state with
  | .running => some (inkDecode .ok s.inkWord)
  | .waiting => some .wfeWake
  | _ => none

end Sys2Proof.Machine
end

