-- ==== Sys2Proof/Machine/Array.lean ====
section
/-! DEFINITION. The commands of the measurement array (spec/02_measurement_array.md): one
meaning per command. -/

namespace Sys2Proof.Machine

/-- SAMPLE_TRIGGER (R39). -/
def execSampleTrigger (t : Time) (s : State) : Result := done s (trigger t s)

/-- CONVERSION_END (R40). -/
def execConversionEnd (conv code : Nat) (residue : Residue) (s : State) : Result :=
  done s (conversion conv code residue s)

/-- ARRAY_DISABLE (R43). -/
def execArrayDisable (s : State) : Result := done s (byProgram arrayOff s)

/-- MEAS_TRIG_WRITE (R43). -/
def execMeasTrigWrite (v : Word) (s : State) : Result := done s (byProgram (wrMeasTrig v) s)

/-- REF_ENABLE (R44). -/
def execRefEnable (s : State) : Result := done s (byProgram refOn s)

/-- REF_DISABLE (R47). -/
def execRefDisable (s : State) : Result := done s (byProgram refOff s)

/-- REF_SETTLED (R44). -/
def execRefSettled (s : State) : Result := done s (refReady s)

/-- CH_EN_WRITE (R49). -/
def execChEnWrite (v : Word) (s : State) : Result := done s (byProgram (wrChEn v) s)

/-- CAL_START (R51). -/
def execCalStart (s : State) : Result := done s (byProgram calRequest s)

/-- CAL_ACCEPT (R51). -/
def execCalAccept (s : State) : Result := done s (calTry s)

/-- CAL_OFFSET_PHASE_END (R53). -/
def execCalOffsetPhaseEnd (s : State) : Result := done s (calGain s)

/-- CAL_GAIN_PHASE_END (R52). -/
def execCalGainPhaseEnd (gains offs : List Int) (s : State) : Result := done s (calEnd gains offs s)

/-- HK_CAL (R54). -/
def execHkCal (s : State) : Result := done s (byProgram hkCalStart s)

/-- HK_CAL_DONE (R54). -/
def execHkCalDone (gain off : Int) (s : State) : Result := done s (hkCalEnd gain off s)

/-- TRV_CTRL_WRITE (R60). -/
def execTrvCtrlWrite (v : Word) (s : State) : Result := done s (byProgram (wrTrvCtrl v) s)

/-- TRV_STEP_BOUNDARY (R60). -/
def execTrvStepBoundary (s : State) : Result := done s (stepBoundary s)

/-- TRV_TAKEOVER_CHECK (R64). -/
def execTrvTakeoverCheck (s : State) : Result := done s (takeoverCheck s)

/-- TRV_CAL_END (R62). -/
def execTrvCalEnd (gain off : Int) (s : State) : Result := done s (trvCalDone gain off s)

/-- TRV_HANDBACK_CHECK (R68). -/
def execTrvHandbackCheck (s : State) : Result := done s (handbackCheck s)

/-- TRV_OFFSET_CHECK_END (R65). -/
def execTrvOffsetCheckEnd (off : Int) (s : State) : Result := done s (offsetCheck off s)

/-- CONV_FAIL_CLEAR (R70). -/
def execConvFailClear (v : Word) (s : State) : Result := done s (byProgram (wrConvFail v) s)

/-- PARK_RELEASE_START (R70). -/
def execParkReleaseStart (s : State) : Result := done s (parkRelease s)

/-- HK_ROUND_START (R73). -/
def execHkRoundStart (s : State) : Result := done s (roundStart s)

/-- HK_ENTRY_END (R72). -/
def execHkEntryEnd (value : Nat) (s : State) : Result := done s (entryEnd value s)

/-- HK_INJECT (R74). -/
def execHkInject (v : Word) (s : State) : Result := done s (byProgram (wrHkInj v) s)

/-- HK_DISABLE (R76). -/
def execHkDisable (s : State) : Result := done s (byProgram hkOff s)

/-- OW_START (R77). -/
def execOwStart (v : Word) (s : State) : Result := done s (byProgram (wrOwCtrl v) s)

/-- OW_SINKS_ON (R78). -/
def execOwSinksOn (s : State) : Result := done s (sinksOn s)

/-- OW_SINKS_OFF (R78). -/
def execOwSinksOff (s : State) : Result := done s (sinksOff s)

/-- OW_PASS_END (R78). -/
def execOwPassEnd (s : State) : Result := done s (owPassOver s)

/-- SNAP (R82). -/
def execSnap (s : State) : Result := done s (byProgram (wrSnap F.MEAS_SNAP.GO.mask) s)

end Sys2Proof.Machine
end

