-- ==== Sys2Proof/Machine/Chain.lean ====
section
/-! DEFINITION. The commands of the chain network, time and head role (spec/08_chain_network.md): one
meaning per command. -/

namespace Sys2Proof.Machine

/-- NET_SEARCH (R239). -/
def execNetSearch (p : Port) (f : Frame) (s : State) : Result := done s (takeNet p 0x08 f (searchDeliver p f) s)

/-- NET_ASSIGN (R241). -/
def execNetAssign (p : Port) (f : Frame) (s : State) : Result := done s (takeNet p 0x09 f (assignDeliver p f) s)

/-- NET_ROUTE (R238). -/
def execNetRoute (p : Port) (f : Frame) (s : State) : Result := done s (takeNet p 0x0A f (routeDeliver p f) s)

/-- NET_LINK (R236). -/
def execNetLink (p : Port) (f : Frame) (s : State) : Result := done s (takeNet p 0x0B f (linkDeliver p f) s)

/-- SRCH (R240). -/
def execSrch (s : State) : Result := done s (byProgram searchWrite s)

/-- NET_STEP_TIMEOUT (R238). -/
def execNetStepTimeout (s : State) : Result := done s (stepFailed s)

/-- SCHED (R250). -/
def execSched (s : State) : Result := done s (byProgram schedule s)

/-- BASE_APPLY (R250). -/
def execBaseApply (t : Time) (s : State) : Result := done s (baseTake t s)

/-- RTT_TIMER (R245). -/
def execRttTimer (s : State) : Result := done s (rttDue s)

/-- LNK_RTT_REQUEST (R245). -/
def execLnkRttRequest (p : Port) (f : Frame) (rxFrac : Nat) (s : State) : Result := done s (pumpAll (rttRequest p f rxFrac s))

/-- LNK_RTT_RESPONSE (R246). -/
def execLnkRttResponse (p : Port) (f : Frame) (t4 : Int) (s : State) : Result := done s (pumpAll (rttResponse p f t4 s))

/-- EPOCH_SEND (R247). -/
def execEpochSend (t : Time) (s : State) : Result := done s (epochOut t s)

/-- EPOCH (R247). -/
def execEpoch (p : Port) (trx : Int) (s : State) : Result := done s (epochTake p trx s)

/-- EPOCH_TIMEOUT (R248). -/
def execEpochTimeout (s : State) : Result := done s (epochLate s)

/-- GRD_NOTE (R316). -/
def execGrdNote (p : Port) (f : Frame) (s : State) : Result := done s (noteTake p f s)

end Sys2Proof.Machine
end

