-- ==== Sys2Proof/Machine/Datapath.lean ====
section
/-! DEFINITION. The commands of the sample datapath (spec/03_sample_datapath.md): one
meaning per command. -/

namespace Sys2Proof.Machine

/-- SET_WRITE (R88). -/
def execSetWrite (o : SetObs) (s : State) : Result := done s (setInstant o s)

/-- SDP_CFG_WRITE (R104). -/
def execSdpCfgWrite (v : Word) (s : State) : Result := done s (byProgram (wrSdpCfg v) s)

/-- SDP_CH_EN_WRITE (R104). -/
def execSdpChEnWrite (v : Word) (s : State) : Result := done s (byProgram (wrSdpChEn v) s)

/-- SCFG_WRITE (R97). -/
def execScfgWrite (n : Nat) (v : Word) (s : State) : Result := done s (byProgram (upTo 24 n (wrScfg n v)) s)

/-- SMASK_WRITE (R104). -/
def execSmaskWrite (n : Nat) (v : Word) (s : State) : Result := done s (byProgram (upTo 24 n (wrSmask n v)) s)

/-- ACC_SNAP (R96). -/
def execAccSnap (v : Word) (s : State) : Result := done s (byProgram (wrAccCtrl v) s)

end Sys2Proof.Machine
end

