-- ==== Sys2Proof/Machine/HostCmds.lean ====
section
/-! DEFINITION. The commands of the host port and the loader (R259 to R264, R336): one
meaning per command. -/

namespace Sys2Proof.Machine

/-- MREAD (R261). -/
def execMread (r : HostReq) (s : State) : Result := done s (hostMread r s)

/-- LREAD (R261). -/
def execLread (r : HostReq) (s : State) : Result := done s (hostLread r s)

/-- HOST_WRITE (R261). -/
def execHostWrite (r : HostReq) (s : State) : Result := done s (hostWriteCmd r s)

/-- HOST_MODIFY (R261). -/
def execHostModify (r : HostReq) (s : State) : Result := done s (hostModifyCmd r s)

/-- RESULT (R261). -/
def execResult (r : HostReq) (s : State) : Result := done s (hostResult r s)

/-- RREAD (R261). -/
def execRread (r : HostReq) (s : State) : Result := done s (hostRread r s)

/-- HSTAT (R261). -/
def execHstat (r : HostReq) (s : State) : Result := done s (hostHstat r s)

/-- BWRITE (R261). -/
def execBwrite (r : HostReq) (s : State) : Result := done s (hostBwrite r s)

/-- HOST_UNKNOWN_CMD (R261). -/
def execHostUnknownCmd (r : HostReq) (s : State) : Result := done s (hostUnknown r s)

/-- HCS_ABORT (R259). -/
def execHcsAbort (s : State) : Result := done s (hostAbort s)

/-- LSTAT (R336). -/
def execLstat (r : HostReq) (s : State) : Result := done s (loaderStat r s)

/-- FERASE (R336). -/
def execFerase (r : HostReq) (s : State) : Result := done s (loaderErase r s)

/-- FWRITE (R336). -/
def execFwrite (r : HostReq) (s : State) : Result := done s (loaderWrite r s)

/-- FREAD (R336). -/
def execFread (r : HostReq) (s : State) : Result := done s (loaderRead r s)

/-- REBOOT (R336). -/
def execReboot (r : HostReq) (s : State) : Result := done s (loaderReboot r s)

end Sys2Proof.Machine
end

