-- ==== Sys2Proof/Machine/Impedance.lean ====
section
/-! DEFINITION. The commands of the impedance engine (spec/04_impedance_engine.md): one
meaning per command. -/

namespace Sys2Proof.Machine

/-- IMP_CTRL_WRITE (R112). -/
def execImpCtrlWrite (v : Word) (s : State) : Result := done s (byProgram (wrImpCtrl v) s)

/-- TONE_WRITE (R108). -/
def execToneWrite (t : Nat) (v : Word) (s : State) : Result := done s (byProgram (upTo 6 t (wrTone t v)) s)

/-- TWIN_WRITE (R109). -/
def execTwinWrite (t : Nat) (v : Word) (s : State) : Result := done s (byProgram (upTo 6 t (wrTwin t v)) s)

/-- CTX_CFG_WRITE (R118). -/
def execCtxCfgWrite (c : Nat) (v : Word) (s : State) : Result := done s (byProgram (upTo 160 c (wrCtxCfg c v)) s)

/-- FUNDAMENTAL_BOUNDARY (R107). -/
def execFundamentalBoundary (t : Time) (s : State) : Result := done s (boundary t s)

/-- IMP_RESULT_WRITE (R125): what the checks of R124 beside the real and imaginary accumulation and the division found. -/
def execImpResultWrite (c : Nat) (reBad imBad : Bool) (o : ResultObs) (s : State) : Result :=
  done s (impResult c (reBad || imBad) o s)

/-- FB_CTRL_WRITE (R132). -/
def execFbCtrlWrite (v : Word) (s : State) : Result := done s (byProgram (wrFbCtrl v) s)

/-- FB_SWITCH (R133). -/
def execFbSwitch (s : State) : Result := done s (fbToggle s)

/-- FB_RESULT_WRITE (R134): what the checks of R124 beside the accumulations of the phasor and of the mean found. -/
def execFbResultWrite (reBad imBad : Bool) (o : ResultObs) (s : State) : Result :=
  done s (fbResultWrite (reBad || imBad) o s)

/-- IMP_BLOCK_TIMEOUT (R138). -/
def execImpBlockTimeout (n : Nat) (s : State) : Result := done s (recordsDue n s)

end Sys2Proof.Machine
end

