-- ==== Sys2Proof/Machine/Links.lean ====
section
/-! DEFINITION. The commands of the chain ports (spec/07_chain_link.md): one
meaning per command. -/

namespace Sys2Proof.Machine

/-- PORT_ENABLE (R211). -/
def execPortEnable (p : Port) (s : State) : Result := done s (portEnWrite p true s)

/-- PORT_DISABLE (R228). -/
def execPortDisable (p : Port) (s : State) : Result := done s (portEnWrite p false s)

/-- SILENCE_END (R211). -/
def execSilenceEnd (p : Port) (s : State) : Result := done s (silenceOver p s)

/-- WAKE_TONE_END (R211). -/
def execWakeToneEnd (p : Port) (s : State) : Result := done s (toneOver p s)

/-- PEER_DETECTED (R211). -/
def execPeerDetected (p : Port) (s : State) : Result := done s (peerHeard p s)

/-- TRAINING_BLOCK (R212). -/
def execTrainingBlock (p : Port) (good peerOk : Bool) (s : State) : Result := done s (blockTake p good peerOk s)

/-- TRAIN_TIMEOUT (R211). -/
def execTrainTimeout (p : Port) (s : State) : Result := done s (trainOver p s)

/-- ALIGN_TIMEOUT (R211). -/
def execAlignTimeout (p : Port) (s : State) : Result := done s (alignOver p s)

/-- HELLO_TIMER (R213). -/
def execHelloTimer (p : Port) (s : State) : Result := done s (helloSend p s)

/-- LNK_HELLO (R213). -/
def execLnkHello (p : Port) (f : Frame) (s : State) : Result := done s (helloReceived p f s)

/-- WAKE_TONE_HEARD (R215). -/
def execWakeToneHeard (p : Port) (s : State) : Result := done s (toneHeard p s)

/-- EQ_ADAPT (R216). -/
def execEqAdapt (p : Port) (target : Nat) (s : State) : Result := done s (eqMove p target s)

/-- LNK_IDLE (R220). -/
def execLnkIdle (p : Port) (f : Frame) (s : State) : Result := done s (pumpAll (idleTake p f s))

/-- IDLE_SEND (R220). -/
def execIdleSend (p : Port) (s : State) : Result := done s (idleOut p s)

/-- FRAME_TRANSMIT (R229). -/
def execFrameTransmit (p : Port) (s : State) : Result := done s (transmit p s)

/-- RETRY_TIMER (R225). -/
def execRetryTimer (p : Port) (s : State) : Result := done s (retryExpire p s)

/-- STREAM_FRAME (R226). -/
def execStreamFrame (p : Port) (f : Frame) (s : State) : Result := done s (pumpAll (streamTake p f s))

/-- LOCK_LOSS (R227). -/
def execLockLoss (p : Port) (s : State) : Result := done s (lockLost p s)

/-- FRAME_TIMEOUT (R227). -/
def execFrameTimeout (p : Port) (s : State) : Result := done s (frameLate p s)

/-- DISCARD_LIMIT (R227). -/
def execDiscardLimit (p : Port) (s : State) : Result := done s (discardFull p s)

/-- FRAME_DISCARDED (R221). -/
def execFrameDiscarded (p : Port) (why : DiscardWhy) (s : State) : Result := done s (discarded p why s)

end Sys2Proof.Machine
end

