-- ==== Sys2Proof/Machine/Phase.lean ====
section
/-! DEFINITION. The commands of the phase controller (spec/05_phase_controller.md): one
meaning per command. -/

namespace Sys2Proof.Machine

/-- PHC_ENABLE (R144). -/
def execPhcEnable (v : Word) (s : State) : Result := done s (byProgram (phcEnableWrite v) s)

/-- PHC_DISABLE (R174). -/
def execPhcDisable (v : Word) (s : State) : Result := done s (byProgram (phcDisableWrite v) s)

/-- PHC_RESTART (R166). -/
def execPhcRestart (s : State) : Result := done s (byProgram phcRestartWrite s)

/-- SWITCHING_CYCLE (R146). -/
def execSwitchingCycle (o : PhcObs) (s : State) : Result := done s (switchingCycle o s)

/-- TRIM_SAT (R157). -/
def execTrimSat (x : Nat) (s : State) : Result := done s (trimSat x s)

/-- SC_OVERRIDE (R172). -/
def execScOverride (x : Nat) (s : State) : Result := done s (scOverride x s)

/-- START_CHECK (R164). -/
def execStartCheck (o : StartObs) (s : State) : Result := done s (startCheck o s)

/-- HICCUP_END (R165). -/
def execHiccupEnd (s : State) : Result := done s (hiccupOver s)

/-- THROWS_CLEAR (R165). -/
def execThrowsClear (s : State) : Result := done s (throwsOver s)

/-- OUTPUT_COLLAPSE (R170). -/
def execOutputCollapse (s : State) : Result := done s (outputCollapsed s)

/-- INPUT_LOW (R170). -/
def execInputLow (s : State) : Result := done s (inputLowered s)

/-- INPUT_RECOVER (R170). -/
def execInputRecover (s : State) : Result := done s (inputRecovered s)

/-- BUS_OV (R170). -/
def execBusOv (s : State) : Result := done s (busHigh s)

/-- BUS_OV_RELEASE (R170). -/
def execBusOvRelease (s : State) : Result := done s (busNormal s)

/-- SENSE_LOSS (R171). -/
def execSenseLoss (x : Nat) (s : State) : Result := done s (senseLost x s)

/-- OPEN_PHASE (R171). -/
def execOpenPhase (x : Nat) (s : State) : Result := done s (openPhase x s)

end Sys2Proof.Machine
end

