-- ==== Sys2Proof/Machine/Power.lean ====
section
/-! DEFINITION. The commands of the Porter (spec/14_porter_and_power.md): one
meaning per command. -/

namespace Sys2Proof.Machine

/-- REQ_RUN (R402). -/
def execReqRun (v : Word) (tst : Bool) (s : State) : Result := done s (byProgram (reqTarget 4 v (seeTst tst)) s)

/-- REQ_RECOVER (R403). -/
def execReqRecover (v : Word) (s : State) : Result := done s (byProgram (reqTarget 5 v id) s)

/-- REQ_HALT (R405). -/
def execReqHalt (v : Word) (s : State) : Result := done s (byProgram (reqTarget 7 v id) s)

/-- RCV_CLEAR (R403). -/
def execRcvClear (v : Word) (s : State) : Result := done s (byProgram (wrPtrRcv v) s)

/-- HALT_LEDGER_DRAINED (R405). -/
def execHaltLedgerDrained (s : State) : Result := done s (haltDrained s)

/-- SELFTEST_ITEM_END (R441).
(DEDUCED, log entry 2; DESIGN CHOICE, log entry 35.) -/
def execSelftestItemEnd (ran failed : Bool) (detail : Word) (s : State) : Result :=
  done s (itemOver ran failed detail s)

/-- DOM_REQUEST (R408). -/
def execDomRequest (v : Word) (s : State) : Result := done s (byProgram (wrPtrDom v) s)

/-- DOMAIN_ON (R409). -/
def execDomainOn (d : Nat) (s : State) : Result := done s (domOn d s)

/-- DOMAIN_OFF (R409). -/
def execDomainOff (d : Nat) (s : State) : Result := done s (domOff d s)

/-- SUPPLY_LIMIT (R410). -/
def execSupplyLimit (s : State) : Result := done s (supplyOver s)

/-- VSTK_UNDERVOLTAGE (R412). -/
def execVstkUndervoltage (s : State) : Result := done s (underVoltage s)

/-- VSTK_RECOVER_WAKE (R412). -/
def execVstkRecoverWake (s : State) : Result := done s (uvRecover s)

/-- POWER_ON (R400). -/
def execPowerOn (s : State) : Result := done s (powerUp s)

/-- POWER_LOSS (R400). -/
def execPowerLoss (s : State) : Result := done s (powerDown s)

/-- WAKE_ACCEPT (R413). -/
def execWakeAccept (o : WakeObs) (s : State) : Result := done s (wakeTake o s)

/-- VSTK_WINDOW_CHECK (R414). -/
def execVstkWindowCheck (vstk : Nat) (s : State) : Result := done s (windowCheck vstk s)

/-- STBY_TIMEOUT (R400). -/
def execStbyTimeout (s : State) : Result := done s (standbyOver s)

/-- NRST (R416). -/
def execNrst (s : State) : Result := done s (nrstReset s)

/-- NRST_RELEASE (R416). -/
def execNrstRelease (s : State) : Result := done s (nrstRise s)

/-- NRST_STUCK (R417). -/
def execNrstStuck (s : State) : Result := done s (nrstHeld s)

/-- VDD5_SOURCE_CHANGE (R410). -/
def execVdd5SourceChange (fromVsup : Bool) (s : State) : Result := done s (supplySource fromVsup s)

/-- REQ_BAD_TARGET (R401). -/
def execReqBadTarget (v : Word) (s : State) : Result := done s (byProgram (reqOther v) s)

end Sys2Proof.Machine
end

