-- ==== Sys2Proof/Machine/Program.lean ====
section
/-! DEFINITION. The Innkeeper's instructions and the commands on it (spec/10_innkeeper.md): one
meaning per command. -/

namespace Sys2Proof.Machine

/-- ADD (R297). -/
def execAdd (e : InkEnv) (rd ra rb : BitVec 4) (s : State) : Result :=
  done s (inkCompute e (fun s => inkAdd rd (s.g ra) (s.g rb) s) s)

/-- SUB (R297). -/
def execSub (e : InkEnv) (rd ra rb : BitVec 4) (s : State) : Result :=
  done s (inkCompute e (fun s => inkSub rd (s.g ra) (s.g rb) s) s)

/-- AND (R297). -/
def execAnd (e : InkEnv) (rd ra rb : BitVec 4) (s : State) : Result :=
  done s (inkCompute e (fun s => inkNZ rd (s.g ra &&& s.g rb) s) s)

/-- OR (R297). -/
def execOr (e : InkEnv) (rd ra rb : BitVec 4) (s : State) : Result :=
  done s (inkCompute e (fun s => inkNZ rd (s.g ra ||| s.g rb) s) s)

/-- XOR (R297). -/
def execXor (e : InkEnv) (rd ra rb : BitVec 4) (s : State) : Result :=
  done s (inkCompute e (fun s => inkNZ rd (s.g ra ^^^ s.g rb) s) s)

/-- SHL (R297). -/
def execShl (e : InkEnv) (rd ra rb : BitVec 4) (s : State) : Result :=
  done s (inkCompute e (fun s => inkNZ rd (s.g ra <<< shiftOf (s.g rb)) s) s)

/-- SHR (R297). -/
def execShr (e : InkEnv) (rd ra rb : BitVec 4) (s : State) : Result :=
  done s (inkCompute e (fun s => inkNZ rd (s.g ra >>> shiftOf (s.g rb)) s) s)

/-- SAR (R297). -/
def execSar (e : InkEnv) (rd ra rb : BitVec 4) (s : State) : Result :=
  done s (inkCompute e (fun s => inkNZ rd ((s.g ra).sshiftRight (shiftOf (s.g rb))) s) s)

/-- MUL (R297). -/
def execMul (e : InkEnv) (rd ra rb : BitVec 4) (s : State) : Result :=
  done s (inkCompute e (fun s => inkNZ rd (s.g ra * s.g rb) s) s)

/-- MULH (R297). -/
def execMulh (e : InkEnv) (rd ra rb : BitVec 4) (s : State) : Result :=
  done s (inkCompute e (fun s => inkNZ rd (mulHigh (s.g ra) (s.g rb)) s) s)

/-- MULHU (R297). -/
def execMulhu (e : InkEnv) (rd ra rb : BitVec 4) (s : State) : Result :=
  done s (inkCompute e (fun s => inkNZ rd (mulHighU (s.g ra) (s.g rb)) s) s)

/-- DIV (R297). -/
def execDiv (e : InkEnv) (rd ra rb : BitVec 4) (s : State) : Result :=
  done s (inkCompute e (fun s => inkQuot rd (divSigned (s.g ra) (s.g rb)).1 (divSigned (s.g ra) (s.g rb)).2 s) s)

/-- DIVU (R297). -/
def execDivu (e : InkEnv) (rd ra rb : BitVec 4) (s : State) : Result :=
  done s (inkCompute e (fun s => inkQuot rd (divUnsigned (s.g ra) (s.g rb)).1 (divUnsigned (s.g ra) (s.g rb)).2 s) s)

/-- MIN (R297). -/
def execMin (e : InkEnv) (rd ra rb : BitVec 4) (s : State) : Result :=
  done s (inkCompute e (fun s => inkNZ rd (signedMin (s.g ra) (s.g rb)) s) s)

/-- MAX (R297). -/
def execMax (e : InkEnv) (rd ra rb : BitVec 4) (s : State) : Result :=
  done s (inkCompute e (fun s => inkNZ rd (signedMax (s.g ra) (s.g rb)) s) s)

/-- ADDI (R297). -/
def execAddi (e : InkEnv) (rd ra : BitVec 4) (imm : BitVec 18) (s : State) : Result :=
  done s (inkCompute e (fun s => inkAdd rd (s.g ra) (immS imm) s) s)

/-- ANDI (R297). -/
def execAndi (e : InkEnv) (rd ra : BitVec 4) (imm : BitVec 18) (s : State) : Result :=
  done s (inkCompute e (fun s => inkNZ rd (s.g ra &&& immZ imm) s) s)

/-- ORI (R297). -/
def execOri (e : InkEnv) (rd ra : BitVec 4) (imm : BitVec 18) (s : State) : Result :=
  done s (inkCompute e (fun s => inkNZ rd (s.g ra ||| immZ imm) s) s)

/-- XORI (R297). -/
def execXori (e : InkEnv) (rd ra : BitVec 4) (imm : BitVec 18) (s : State) : Result :=
  done s (inkCompute e (fun s => inkNZ rd (s.g ra ^^^ immZ imm) s) s)

/-- SHLI (R297). -/
def execShli (e : InkEnv) (rd ra : BitVec 4) (sh : BitVec 5) (s : State) : Result :=
  done s (inkCompute e (fun s => inkNZ rd (s.g ra <<< sh.toNat) s) s)

/-- SHRI (R297). -/
def execShri (e : InkEnv) (rd ra : BitVec 4) (sh : BitVec 5) (s : State) : Result :=
  done s (inkCompute e (fun s => inkNZ rd (s.g ra >>> sh.toNat) s) s)

/-- SARI (R297). -/
def execSari (e : InkEnv) (rd ra : BitVec 4) (sh : BitVec 5) (s : State) : Result :=
  done s (inkCompute e (fun s => inkNZ rd ((s.g ra).sshiftRight sh.toNat) s) s)

/-- LUI (R297). -/
def execLui (e : InkEnv) (rd : BitVec 4) (imm : BitVec 18) (s : State) : Result :=
  done s (inkCompute e (fun s => inkNZ rd (immZ imm <<< (14 : Nat)) s) s)

/-- CMPI (R297). -/
def execCmpi (e : InkEnv) (ra : BitVec 4) (imm : BitVec 18) (s : State) : Result :=
  done s (inkCompute e (fun s => inkSub 0 (s.g ra) (immS imm) s) s)

/-- LW (R297). -/
def execLw (e : InkEnv) (rd ra : BitVec 4) (imm : BitVec 18) (s : State) : Result :=
  done s (inkData e (fun s => inkWordAt (s.g ra + immS imm) (inkLw e rd) s) s)

/-- SW (R297). -/
def execSw (e : InkEnv) (rd ra : BitVec 4) (imm : BitVec 18) (s : State) : Result :=
  done s (inkData e (fun s => inkWordAt (s.g ra + immS imm) (inkSw rd) s) s)

/-- LB (R297). -/
def execLb (e : InkEnv) (rd ra : BitVec 4) (imm : BitVec 18) (s : State) : Result :=
  done s (inkData e (fun s => inkByteAt (s.g ra + immS imm) (inkLb e rd) s) s)

/-- SB (R297). -/
def execSb (e : InkEnv) (rd ra : BitVec 4) (imm : BitVec 18) (s : State) : Result :=
  done s (inkData e (fun s => inkByteAt (s.g ra + immS imm) (inkSb e rd) s) s)

/-- LDE (R304). -/
def execLde (e : InkEnv) (rd ra : BitVec 4) (imm : BitVec 18) (s : State) : Result :=
  done s (inkData e (fun s => inkEndpoint (s.g ra + immS imm) (inkLde e rd) s) s)

/-- STE (R304). -/
def execSte (e : InkEnv) (rd ra : BitVec 4) (imm : BitVec 18) (s : State) : Result :=
  done s (inkData e (fun s => inkEndpoint (s.g ra + immS imm) (inkSte rd) s) s)

/-- XRD (R305). -/
def execXrd (e : InkEnv) (rd ra rb : BitVec 4) (cnt : BitVec 6) (s : State) : Result :=
  done s (inkX e 0 cnt.toNat 0 rd ra rb s)

/-- XWR (R305). -/
def execXwr (e : InkEnv) (rd ra rb : BitVec 4) (cnt : BitVec 6) (s : State) : Result :=
  done s (inkX e 1 cnt.toNat cnt.toNat rd ra rb s)

/-- XMOD (R305). -/
def execXmod (e : InkEnv) (rd ra rb : BitVec 4) (s : State) : Result := done s (inkX e 2 1 2 rd ra rb s)

/-- BCC (R299). -/
def execBcc (e : InkEnv) (cond : BitVec 4) (off : BitVec 18) (s : State) : Result :=
  done s (inkFetch e (inkBcc e cond off) s)

/-- JAL (R297). -/
def execJal (e : InkEnv) (off : BitVec 26) (s : State) : Result :=
  done s (inkFetch e (fun s => inkJump e (s.inkRel off.toInt) (inkLink s.ink.pc) s) s)

/-- JR (R297). -/
def execJr (e : InkEnv) (ra : BitVec 4) (s : State) : Result :=
  done s (inkFetch e (fun s => inkJump e (s.g ra).toNat id s) s)

/-- CALL (R297). -/
def execCall (e : InkEnv) (off : BitVec 26) (s : State) : Result :=
  done s (inkFetch e (fun s => inkCallTo e (s.inkRel off.toInt) s) s)

/-- CALLR (R297). -/
def execCallr (e : InkEnv) (ra : BitVec 4) (s : State) : Result :=
  done s (inkFetch e (fun s => inkCallTo e (s.g ra).toNat s) s)

/-- RET (R297). -/
def execRet (e : InkEnv) (s : State) : Result := done s (inkFetch e (inkChecked e inkReturn) s)

/-- WFE (R311). -/
def execWfe (e : InkEnv) (rd ra : BitVec 4) (s : State) : Result :=
  done s (inkData e (fun s => inkWait rd (s.g ra) s) s)

/-- WFE_WAKE (R311). -/
def execWfeWake (s : State) : Result := done s (inkWake s)

/-- SEV (R297). -/
def execSev (e : InkEnv) (clr set : BitVec 8) (s : State) : Result := done s (inkCompute e (inkSev clr set) s)

/-- WDS (R314). -/
def execWds (e : InkEnv) (ra : BitVec 4) (s : State) : Result :=
  done s (inkCompute e (fun s => inkWds ((s.g ra).extractLsb' 0 16) s) s)

/-- ILLEGAL_INSTRUCTION (R296). -/
def execIllegalInstruction (e : InkEnv) (s : State) : Result := done s (inkFetch e (inkHalt 4) s)

/-- INK_STOP (R294). -/
def execInkStop (p : Path) (s : State) : Result := done s (byProgram (wrInkCtrl p 0) s)

/-- INK_RESUME (R294). -/
def execInkResume (p : Path) (s : State) : Result := done s (byProgram (wrInkCtrl p F.INK_CTRL.RUN.mask) s)

/-- INK_RESTART (R295). -/
def execInkRestart (p : Path) (s : State) : Result :=
  done s (byProgram (wrInkCtrl p (F.INK_CTRL.RUN.mask ||| F.INK_CTRL.RESTART.mask)) s)

/-- TMR_WRITE (R312). -/
def execTmrWrite (n : Nat) (v : Word) (s : State) : Result := done s (byProgram (upTo 4 n (wrTmr n v)) s)

/-- TMR_EXPIRY (R312). -/
def execTmrExpiry (n : Nat) (s : State) : Result := done s (tmrExpire n s)

/-- SWSET (R312). -/
def execSwset (v : Word) (s : State) : Result := done s (byProgram (wrSwset v) s)

end Sys2Proof.Machine
end

