-- ==== Sys2Proof/Machine/Registers.lean ====
section
/-! DEFINITION. Reads and writes of registers that are commands of their own or belong to no other row (R6, R93, R395, R421, R431): one
meaning per command. -/

namespace Sys2Proof.Machine

/-- REGISTER_WRITE (R6). -/
def execRegisterWrite (p : Path) (a : Nat) (v : Word) (s : State) : Result := done s (programWrite p a v s)

/-- RES_READ (R93). -/
def execResRead (_p : Path) (n : Nat) (s : State) : Result := done s (byProgram (resTaken n) s)

/-- LDG_RD_READ (R395). -/
def execLdgRdRead (_p : Path) (s : State) : Result := done s (byProgram (fun s => (ledgerRead s).2) s)

/-- TIMEL_READ (R421). -/
def execTimelRead (p : Path) (s : State) : Result := done s (byProgram (timeTake p) s)

/-- OTP_DATA_READ (R431). -/
def execOtpDataRead (p : Path) (s : State) : Result := done s (byProgram (fun s => (otpDataRead p s).2) s)

end Sys2Proof.Machine
end

