-- ==== Sys2Proof/Machine/Remote.lean ====
section
/-! DEFINITION. The commands of end-to-end CONTROL and BULK and of the mirror (spec/08_chain_network.md, R252 to R258): one
meaning per command. -/

namespace Sys2Proof.Machine

/-- READ (R252). -/
def execRead (p : Port) (f : Frame) (s : State) : Result := done s (pumpAll (takeRequest p 0 f s))

/-- WRITE (R252). -/
def execWrite (p : Port) (f : Frame) (s : State) : Result := done s (pumpAll (takeRequest p 1 f s))

/-- MODIFY (R252). -/
def execModify (p : Port) (f : Frame) (s : State) : Result := done s (pumpAll (takeRequest p 2 f s))

/-- BULK_OPEN (R256). -/
def execBulkOpen (p : Port) (f : Frame) (s : State) : Result := done s (pumpAll (takeRequest p 3 f s))

/-- BULK_NAK (R256). -/
def execBulkNak (p : Port) (f : Frame) (s : State) : Result := done s (pumpAll (takeRequest p 4 f s))

/-- BULK_CLOSE (R256). -/
def execBulkClose (p : Port) (f : Frame) (s : State) : Result := done s (pumpAll (takeRequest p 5 f s))

/-- BULK_DATA (R256). -/
def execBulkData (p : Port) (f : Frame) (s : State) : Result := done s (pumpAll (takeBulk p f s))

/-- CONTROL_RESPONSE (R254). -/
def execControlResponse (p : Port) (f : Frame) (s : State) : Result := done s (pumpAll (takeResponse p f s))

/-- REQUEST_TIMEOUT (R254). -/
def execRequestTimeout (dst tag : Nat) (s : State) : Result := done s (requestExpire dst tag s)

/-- MIRROR_REFRESH (R258). -/
def execMirrorRefresh (n : Nat) (s : State) : Result := done s (upTo 16 n (mirrorRead n) s)

end Sys2Proof.Machine
end

