-- ==== Sys2Proof/Machine/Safe.lean ====
section
/-! DEFINITION. The commands of the Guard (spec/12_guard.md): one
meaning per command. -/

namespace Sys2Proof.Machine

/-- GUARD_FILTER_TRIP (R345). -/
def execGuardFilterTrip (ms : List GuardSample) (s : State) : Result := done s (guardSees ms s)

/-- GCLK_CHECK (R346). -/
def execGclkCheck (count : Nat) (s : State) : Result := done s (gclkJudge count s)

/-- SI_DEBOUNCE (R348). -/
def execSiDebounce (k : Nat) (chB : Bool) (o : SiObs) (s : State) : Result := done s (siChange k chB o s)

/-- GUARD_TICK (R349), after the samples of the millisecond that ends and what they bring. -/
def execGuardTick (ms : List GuardSample) (s : State) : Result :=
  let t := settle s (guardSees ms s)
  done t (grdTick t)

/-- DISC_FAULT (R351). -/
def execDiscFault (k : Nat) (s : State) : Result := done s (discLatch k s)

/-- SUT_PASS (R352). -/
def execSutPass (s : State) : Result := done s (sutDone s)

/-- READBACK_MISMATCH (R342). -/
def execReadbackMismatch (pin : SafePin) (level : Bool) (s : State) : Result := done s (readbackBad pin level s)

/-- LOOP_LOST (R354). -/
def execLoopLost (s : State) : Result := done s (loopFall s)

/-- LOOP_OK (R354). -/
def execLoopOk (s : State) : Result := done s (loopRise s)

/-- WD_WINDOW_OPEN (R356). -/
def execWdWindowOpen (advance : Nat) (s : State) : Result := done s (wdOpen advance s)

/-- WD_LATE (R356). -/
def execWdLate (s : State) : Result := done s (wdExpire s)

/-- WD_RESPONSE (R356). -/
def execWdResponse (s : State) : Result := done s (wdJudge s)

/-- GRD_UNLK (R362). -/
def execGrdUnlk (v : Word) (s : State) : Result := done s (byGuard (wrGrdUnlk v) s)

/-- GRD_COMMIT (R362). -/
def execGrdCommit (v : Word) (s : State) : Result := done s (byGuard (wrGrdCommit v) s)

/-- GRD_FLT_CLEAR (R364), with the samples taken up to the write; a fault that they latch has its consequences first. -/
def execGrdFltClear (v : Word) (ms : List GuardSample) (s : State) : Result :=
  let t := settle s (guardSees ms s)
  done t (byGuard (wrGrdFlt v) t)

/-- STANDBY_CHECK (R370). -/
def execStandbyCheck (s : State) : Result := done s (checkStart s)

/-- STANDBY_CHECK_END (R370). -/
def execStandbyCheckEnd (ms : List GuardSample) (s : State) : Result := done s (checkEnd ms s)

/-- READBACK_AGREE (R342). -/
def execReadbackAgree (pin : SafePin) (s : State) : Result := done s (readbackGood pin s)

end Sys2Proof.Machine
end

