-- ==== Sys2Proof/Machine/Satellite.lean ====
section
/-! DEFINITION. The commands of the satellite bus (spec/09_satellite_bus.md): one
meaning per command. -/

namespace Sys2Proof.Machine

/-- SAT_TRANSACTION (R279). -/
def execSatTransaction (v : Word) (s : State) : Result := done s (byProgram (wrXctl v) s)

/-- SAT_TRANSACTION_END (R279). -/
def execSatTransactionEnd (o : SatObs) (s : State) : Result := done s (transactionEnd o s)

/-- SPU_END (R279). -/
def execSpuEnd (s : State) : Result := done s (spuOver s)

/-- POLL_ROUND (R280). -/
def execPollRound (o : SatObs) (s : State) : Result := done s (pollStart o s)

/-- POD_READ_END (R281). -/
def execPodReadEnd (o : SatObs) (s : State) : Result := done s (podRead o s)

/-- SAT_SRCH (R284). -/
def execSatSrch (s : State) : Result := done s (byProgram (searchAsk false) s)

/-- SAT_ASRCH (R284). -/
def execSatAsrch (s : State) : Result := done s (byProgram (searchAsk true) s)

/-- SEARCH_PASS_END (R283). -/
def execSearchPassEnd (o : SatObs) (cells : List (BitVec 16)) (s : State) : Result := done s (searchPass o cells s)

/-- SAT_SHORT (R268). -/
def execSatShort (s : State) : Result := done s (satShorted s)

/-- SHORT_RETRY (R268). -/
def execShortRetry (o : RetryObs) (s : State) : Result := done s (shortTry o s)

/-- SAT_DISABLE (R287). -/
def execSatDisable (s : State) : Result :=
  done s (byProgram (fun s => wrSatCtrl (F.SAT_CTRL.EN.write (s.reg A.SAT_CTRL) 0) s) s)

/-- POD_FREE (R287). -/
def execPodFree (v : Word) (s : State) : Result := done s (byProgram (wrSatValid v) s)

end Sys2Proof.Machine
end

