-- ==== Sys2Proof/Machine/Startup.lean ====
section
/-! DEFINITION. The commands of the start sequence (spec/11_start_and_image.md): one
meaning per command. -/

namespace Sys2Proof.Machine

/-- START_ENTRY (R318).
(DEDUCED, log entry 2.) -/
def execStartEntry (s : State) : Result := done s (startFirst s)

/-- PLL_LOCK (R318).
(DEDUCED, log entry 2.) -/
def execPllLock (vpp : Bool) (s : State) : Result := done s (pllLocked vpp s)

/-- COPY_JUDGED (R328).
(DEDUCED, log entry 2.) -/
def execCopyJudged (sram : Ecc) (s : State) : Result := done s (copyEnd sram s)

/-- FLASH_DONE (R336). -/
def execFlashDone (err : Bool) (s : State) : Result := done s (flashEnd err s)

/-- TIME_LOAD (R420). -/
def execTimeLoad (s : State) : Result := done s (timeLoaded s)

end Sys2Proof.Machine
end

