-- ==== Sys2Proof/Machine/Store.lean ====
section
/-! DEFINITION. The commands of the Store (spec/13_store.md): one
meaning per command. -/

namespace Sys2Proof.Machine

/-- CEL_ENABLE (R377). -/
def execCelEnable (v : Word) (s : State) : Result := done s (byProgram (celSwitch true v) s)

/-- CEL_READY (R377). -/
def execCelReady (s : State) : Result := done s (mreadWaiting (celInitEnd s))

/-- CEL_DISABLE (R377). -/
def execCelDisable (v : Word) (s : State) : Result := done s (byProgram (celSwitch false v) s)

/-- CEL_REFRESH (R379). -/
def execCelRefresh (s : State) : Result := done s (celRefresh s)

/-- RING_CFG_WRITE (R380). -/
def execRingCfgWrite (n : Nat) (v : Word) (s : State) : Result := done s (byProgram (upTo 16 n (wrRingCfg n v)) s)

/-- RING_RD_WRITE (R382). -/
def execRingRdWrite (n : Nat) (v : Word) (s : State) : Result := done s (byProgram (upTo 16 n (wrRingRd n v)) s)

/-- LEDGER_WRITE_START (R389). -/
def execLedgerWriteStart (s : State) : Result := done s (ledgerStart s)

/-- LEDGER_WRITE_DONE (R390). -/
def execLedgerWriteDone (o : WriteObs) (s : State) : Result := done s (ledgerEnd o s)

/-- SECTOR_ERASE_DONE (R390). -/
def execSectorEraseDone (s : State) : Result := done s (eraseEnd s)

/-- CRC_CFG (R397). -/
def execCrcCfg (u : Nat) (v : Word) (s : State) : Result := done s (byProgram (upTo 4 u (wrCrcCfg u v)) s)

/-- CRC_INIT (R397). -/
def execCrcInit (u : Nat) (v : Word) (s : State) : Result := done s (byProgram (upTo 4 u (crcRestart u v)) s)

/-- CRC_DATA (R397). -/
def execCrcData (u : Nat) (v : Word) (s : State) : Result := done s (byProgram (upTo 4 u (crcTake u (wordBytes v))) s)

/-- CRC_DATAB (R397). -/
def execCrcDatab (u : Nat) (v : Word) (s : State) : Result :=
  done s (byProgram (upTo 4 u (crcTake u [v.extractLsb' 0 8])) s)

/-- CRC_STATE_WRITE (R397). -/
def execCrcStateWrite (u : Nat) (v : Word) (s : State) : Result := done s (byProgram (upTo 4 u (crcRestore u v)) s)

/-- BACKGROUND_SCRUB (R378). -/
def execBackgroundScrub (e : Ecc) (s : State) : Result := done s (celScrub e s)

end Sys2Proof.Machine
end

