-- ==== Sys2Proof/Machine/Thermal.lean ====
section
/-! DEFINITION. The commands of balancing and thermal management (spec/06_balancing_and_thermal.md): one
meaning per command. -/

namespace Sys2Proof.Machine

/-- SLOT_START (R184). -/
def execSlotStart (t : Time) (s : State) : Result := done s (slotStart t s)

/-- SLOT_END (R185). -/
def execSlotEnd (s : State) : Result := done s (slotFinish s)

/-- SWITCH_OVERCURRENT (R180). -/
def execSwitchOvercurrent (n : Nat) (s : State) : Result := done s (switchTrip n s)

/-- BAL_CTRL_WRITE (R188). -/
def execBalCtrlWrite (v : Word) (s : State) : Result := done s (byProgram (wrBalCtrl v) s)

/-- THM_EVALUATE (R191). -/
def execThmEvaluate (ds : List Int) (s : State) : Result := done s (thmEval ds s)

/-- ROR_RELEASE (R192). -/
def execRorRelease (s : State) : Result := done s (rorOver s)

/-- LOST_CLR (R196). -/
def execLostClr (s : State) : Result := done s (byProgram lostClear s)

/-- TC_TRIM (R198). -/
def execTcTrim (q : TcKind) (s : State) : Result := done s (tcUpdate q s)

/-- THERMAL_SHUTDOWN_COMPLETE (R200). -/
def execThermalShutdownComplete (s : State) : Result := done s (thermalEnd s)

/-- THERMAL_RECOVERY (R200). -/
def execThermalRecovery (s : State) : Result := done s (thermalCool s)

/-- PORTER_HARD_LIMIT (R201). -/
def execPorterHardLimit (s : State) : Result := done s (hardLimit s)

end Sys2Proof.Machine
end

