-- ==== Sys2Proof/Machine/Trial.lean ====
section
/-! DEFINITION. The commands of OTP, keys and test (spec/15_trust_and_test.md): one
meaning per command. -/

namespace Sys2Proof.Machine

/-- OTP_PROGRAM (R434). -/
def execOtpProgram (p : Path) (v : Word) (vpp : Bool) (s : State) : Result :=
  done s (byProgram (prgAsk false p v vpp) s)

/-- FUSE_BLOW (R435). -/
def execFuseBlow (p : Path) (v : Word) (vpp : Bool) (s : State) : Result := done s (byProgram (prgAsk true p v vpp) s)

/-- PRG_DONE (R435). -/
def execPrgDone (verifyOk : Bool) (s : State) : Result := done s (prgEnd verifyOk s)

/-- TEST_SEL (R438). -/
def execTestSel (v : Word) (s : State) : Result := done s (byProgram (wrTestSel v) s)

/-- TEST_KEY_ARM (R438). -/
def execTestKeyArm (v : Word) (tst : Bool) (s : State) : Result :=
  done s (byProgram (fun s => keyAsk 0x7E57 v ⟨true, 7⟩ (seeTst tst s)) s)

/-- TEST_KEY_UNLOCK (R438). -/
def execTestKeyUnlock (v : Word) (o : UnlockObs) (s : State) : Result :=
  done s (byProgram (keyAsk 0xA11C v o) s)

/-- TEST_KEY_TIMEOUT (R438). -/
def execTestKeyTimeout (s : State) : Result := done s (keyLate s)

/-- TST_FALL (R438). -/
def execTstFall (s : State) : Result := done s (tstFell s)

end Sys2Proof.Machine
end

