-- ==== Sys2Proof/Machine/Dispatch.lean ====
section
/-! DEFINITION. The dispatcher: one arm per command, one direct call of its meaning. -/

namespace Sys2Proof.Machine

/-- The effect of a command on everything but the queue. -/
def exec (i : Instr) (s : State) : Host.Outcome State Fault Refusal :=
  match i with
  | .registerWrite p a v => Sys2Proof.Machine.execRegisterWrite p a v s
  | .sampleTrigger t => Sys2Proof.Machine.execSampleTrigger t s
  | .conversionEnd conv code residue => Sys2Proof.Machine.execConversionEnd conv code residue s
  | .arrayDisable => Sys2Proof.Machine.execArrayDisable s
  | .measTrigWrite v => Sys2Proof.Machine.execMeasTrigWrite v s
  | .refEnable => Sys2Proof.Machine.execRefEnable s
  | .refDisable => Sys2Proof.Machine.execRefDisable s
  | .refSettled => Sys2Proof.Machine.execRefSettled s
  | .chEnWrite v => Sys2Proof.Machine.execChEnWrite v s
  | .calStart => Sys2Proof.Machine.execCalStart s
  | .calAccept => Sys2Proof.Machine.execCalAccept s
  | .calOffsetPhaseEnd => Sys2Proof.Machine.execCalOffsetPhaseEnd s
  | .calGainPhaseEnd gains offs => Sys2Proof.Machine.execCalGainPhaseEnd gains offs s
  | .hkCal => Sys2Proof.Machine.execHkCal s
  | .hkCalDone gain off => Sys2Proof.Machine.execHkCalDone gain off s
  | .trvCtrlWrite v => Sys2Proof.Machine.execTrvCtrlWrite v s
  | .trvStepBoundary => Sys2Proof.Machine.execTrvStepBoundary s
  | .trvTakeoverCheck => Sys2Proof.Machine.execTrvTakeoverCheck s
  | .trvCalEnd gain off => Sys2Proof.Machine.execTrvCalEnd gain off s
  | .trvHandbackCheck => Sys2Proof.Machine.execTrvHandbackCheck s
  | .trvOffsetCheckEnd off => Sys2Proof.Machine.execTrvOffsetCheckEnd off s
  | .convFailClear v => Sys2Proof.Machine.execConvFailClear v s
  | .parkReleaseStart => Sys2Proof.Machine.execParkReleaseStart s
  | .hkRoundStart => Sys2Proof.Machine.execHkRoundStart s
  | .hkEntryEnd value => Sys2Proof.Machine.execHkEntryEnd value s
  | .hkInject v => Sys2Proof.Machine.execHkInject v s
  | .hkDisable => Sys2Proof.Machine.execHkDisable s
  | .owStart v => Sys2Proof.Machine.execOwStart v s
  | .owSinksOn => Sys2Proof.Machine.execOwSinksOn s
  | .owSinksOff => Sys2Proof.Machine.execOwSinksOff s
  | .owPassEnd => Sys2Proof.Machine.execOwPassEnd s
  | .snap => Sys2Proof.Machine.execSnap s
  | .setWrite o => Sys2Proof.Machine.execSetWrite o s
  | .resRead p n => Sys2Proof.Machine.execResRead p n s
  | .sdpCfgWrite v => Sys2Proof.Machine.execSdpCfgWrite v s
  | .sdpChEnWrite v => Sys2Proof.Machine.execSdpChEnWrite v s
  | .scfgWrite n v => Sys2Proof.Machine.execScfgWrite n v s
  | .smaskWrite n v => Sys2Proof.Machine.execSmaskWrite n v s
  | .accSnap v => Sys2Proof.Machine.execAccSnap v s
  | .impCtrlWrite v => Sys2Proof.Machine.execImpCtrlWrite v s
  | .toneWrite t v => Sys2Proof.Machine.execToneWrite t v s
  | .twinWrite t v => Sys2Proof.Machine.execTwinWrite t v s
  | .ctxCfgWrite c v => Sys2Proof.Machine.execCtxCfgWrite c v s
  | .fundamentalBoundary t => Sys2Proof.Machine.execFundamentalBoundary t s
  | .impResultWrite c reBad imBad o => Sys2Proof.Machine.execImpResultWrite c reBad imBad o s
  | .fbCtrlWrite v => Sys2Proof.Machine.execFbCtrlWrite v s
  | .fbSwitch => Sys2Proof.Machine.execFbSwitch s
  | .fbResultWrite reBad imBad o => Sys2Proof.Machine.execFbResultWrite reBad imBad o s
  | .impBlockTimeout n => Sys2Proof.Machine.execImpBlockTimeout n s
  | .phcEnable v => Sys2Proof.Machine.execPhcEnable v s
  | .phcDisable v => Sys2Proof.Machine.execPhcDisable v s
  | .phcRestart => Sys2Proof.Machine.execPhcRestart s
  | .switchingCycle o => Sys2Proof.Machine.execSwitchingCycle o s
  | .trimSat x => Sys2Proof.Machine.execTrimSat x s
  | .scOverride x => Sys2Proof.Machine.execScOverride x s
  | .startCheck o => Sys2Proof.Machine.execStartCheck o s
  | .hiccupEnd => Sys2Proof.Machine.execHiccupEnd s
  | .throwsClear => Sys2Proof.Machine.execThrowsClear s
  | .outputCollapse => Sys2Proof.Machine.execOutputCollapse s
  | .inputLow => Sys2Proof.Machine.execInputLow s
  | .inputRecover => Sys2Proof.Machine.execInputRecover s
  | .busOv => Sys2Proof.Machine.execBusOv s
  | .busOvRelease => Sys2Proof.Machine.execBusOvRelease s
  | .senseLoss x => Sys2Proof.Machine.execSenseLoss x s
  | .openPhase x => Sys2Proof.Machine.execOpenPhase x s
  | .slotStart t => Sys2Proof.Machine.execSlotStart t s
  | .slotEnd => Sys2Proof.Machine.execSlotEnd s
  | .switchOvercurrent n => Sys2Proof.Machine.execSwitchOvercurrent n s
  | .balCtrlWrite v => Sys2Proof.Machine.execBalCtrlWrite v s
  | .thmEvaluate ds => Sys2Proof.Machine.execThmEvaluate ds s
  | .rorRelease => Sys2Proof.Machine.execRorRelease s
  | .lostClr => Sys2Proof.Machine.execLostClr s
  | .tcTrim q => Sys2Proof.Machine.execTcTrim q s
  | .thermalShutdownComplete => Sys2Proof.Machine.execThermalShutdownComplete s
  | .thermalRecovery => Sys2Proof.Machine.execThermalRecovery s
  | .porterHardLimit => Sys2Proof.Machine.execPorterHardLimit s
  | .portEnable p => Sys2Proof.Machine.execPortEnable p s
  | .portDisable p => Sys2Proof.Machine.execPortDisable p s
  | .silenceEnd p => Sys2Proof.Machine.execSilenceEnd p s
  | .wakeToneEnd p => Sys2Proof.Machine.execWakeToneEnd p s
  | .peerDetected p => Sys2Proof.Machine.execPeerDetected p s
  | .trainingBlock p good peerOk => Sys2Proof.Machine.execTrainingBlock p good peerOk s
  | .trainTimeout p => Sys2Proof.Machine.execTrainTimeout p s
  | .alignTimeout p => Sys2Proof.Machine.execAlignTimeout p s
  | .helloTimer p => Sys2Proof.Machine.execHelloTimer p s
  | .lnkHello p f => Sys2Proof.Machine.execLnkHello p f s
  | .wakeToneHeard p => Sys2Proof.Machine.execWakeToneHeard p s
  | .eqAdapt p target => Sys2Proof.Machine.execEqAdapt p target s
  | .lnkIdle p f => Sys2Proof.Machine.execLnkIdle p f s
  | .idleSend p => Sys2Proof.Machine.execIdleSend p s
  | .frameTransmit p => Sys2Proof.Machine.execFrameTransmit p s
  | .retryTimer p => Sys2Proof.Machine.execRetryTimer p s
  | .streamFrame p f => Sys2Proof.Machine.execStreamFrame p f s
  | .lockLoss p => Sys2Proof.Machine.execLockLoss p s
  | .frameTimeout p => Sys2Proof.Machine.execFrameTimeout p s
  | .discardLimit p => Sys2Proof.Machine.execDiscardLimit p s
  | .netSearch p f => Sys2Proof.Machine.execNetSearch p f s
  | .netAssign p f => Sys2Proof.Machine.execNetAssign p f s
  | .netRoute p f => Sys2Proof.Machine.execNetRoute p f s
  | .netLink p f => Sys2Proof.Machine.execNetLink p f s
  | .srch => Sys2Proof.Machine.execSrch s
  | .netStepTimeout => Sys2Proof.Machine.execNetStepTimeout s
  | .sched => Sys2Proof.Machine.execSched s
  | .baseApply t => Sys2Proof.Machine.execBaseApply t s
  | .rttTimer => Sys2Proof.Machine.execRttTimer s
  | .lnkRttRequest p f rxFrac => Sys2Proof.Machine.execLnkRttRequest p f rxFrac s
  | .lnkRttResponse p f t4 => Sys2Proof.Machine.execLnkRttResponse p f t4 s
  | .epochSend t => Sys2Proof.Machine.execEpochSend t s
  | .epoch p trx => Sys2Proof.Machine.execEpoch p trx s
  | .epochTimeout => Sys2Proof.Machine.execEpochTimeout s
  | .read p f => Sys2Proof.Machine.execRead p f s
  | .write p f => Sys2Proof.Machine.execWrite p f s
  | .modify p f => Sys2Proof.Machine.execModify p f s
  | .bulkOpen p f => Sys2Proof.Machine.execBulkOpen p f s
  | .bulkNak p f => Sys2Proof.Machine.execBulkNak p f s
  | .bulkClose p f => Sys2Proof.Machine.execBulkClose p f s
  | .bulkData p f => Sys2Proof.Machine.execBulkData p f s
  | .controlResponse p f => Sys2Proof.Machine.execControlResponse p f s
  | .requestTimeout dst tag => Sys2Proof.Machine.execRequestTimeout dst tag s
  | .mirrorRefresh n => Sys2Proof.Machine.execMirrorRefresh n s
  | .mread r => Sys2Proof.Machine.execMread r s
  | .lread r => Sys2Proof.Machine.execLread r s
  | .hostWrite r => Sys2Proof.Machine.execHostWrite r s
  | .hostModify r => Sys2Proof.Machine.execHostModify r s
  | .result r => Sys2Proof.Machine.execResult r s
  | .rread r => Sys2Proof.Machine.execRread r s
  | .hstat r => Sys2Proof.Machine.execHstat r s
  | .bwrite r => Sys2Proof.Machine.execBwrite r s
  | .hostUnknownCmd r => Sys2Proof.Machine.execHostUnknownCmd r s
  | .hcsAbort => Sys2Proof.Machine.execHcsAbort s
  | .satTransaction v => Sys2Proof.Machine.execSatTransaction v s
  | .satTransactionEnd o => Sys2Proof.Machine.execSatTransactionEnd o s
  | .spuEnd => Sys2Proof.Machine.execSpuEnd s
  | .pollRound o => Sys2Proof.Machine.execPollRound o s
  | .podReadEnd o => Sys2Proof.Machine.execPodReadEnd o s
  | .satSrch => Sys2Proof.Machine.execSatSrch s
  | .satAsrch => Sys2Proof.Machine.execSatAsrch s
  | .searchPassEnd o cells => Sys2Proof.Machine.execSearchPassEnd o cells s
  | .satShort => Sys2Proof.Machine.execSatShort s
  | .shortRetry o => Sys2Proof.Machine.execShortRetry o s
  | .satDisable => Sys2Proof.Machine.execSatDisable s
  | .podFree v => Sys2Proof.Machine.execPodFree v s
  | .add e rd ra rb => Sys2Proof.Machine.execAdd e rd ra rb s
  | .sub e rd ra rb => Sys2Proof.Machine.execSub e rd ra rb s
  | .and e rd ra rb => Sys2Proof.Machine.execAnd e rd ra rb s
  | .or e rd ra rb => Sys2Proof.Machine.execOr e rd ra rb s
  | .xor e rd ra rb => Sys2Proof.Machine.execXor e rd ra rb s
  | .shl e rd ra rb => Sys2Proof.Machine.execShl e rd ra rb s
  | .shr e rd ra rb => Sys2Proof.Machine.execShr e rd ra rb s
  | .sar e rd ra rb => Sys2Proof.Machine.execSar e rd ra rb s
  | .mul e rd ra rb => Sys2Proof.Machine.execMul e rd ra rb s
  | .mulh e rd ra rb => Sys2Proof.Machine.execMulh e rd ra rb s
  | .mulhu e rd ra rb => Sys2Proof.Machine.execMulhu e rd ra rb s
  | .div e rd ra rb => Sys2Proof.Machine.execDiv e rd ra rb s
  | .divu e rd ra rb => Sys2Proof.Machine.execDivu e rd ra rb s
  | .min e rd ra rb => Sys2Proof.Machine.execMin e rd ra rb s
  | .max e rd ra rb => Sys2Proof.Machine.execMax e rd ra rb s
  | .addi e rd ra imm => Sys2Proof.Machine.execAddi e rd ra imm s
  | .andi e rd ra imm => Sys2Proof.Machine.execAndi e rd ra imm s
  | .ori e rd ra imm => Sys2Proof.Machine.execOri e rd ra imm s
  | .xori e rd ra imm => Sys2Proof.Machine.execXori e rd ra imm s
  | .shli e rd ra sh => Sys2Proof.Machine.execShli e rd ra sh s
  | .shri e rd ra sh => Sys2Proof.Machine.execShri e rd ra sh s
  | .sari e rd ra sh => Sys2Proof.Machine.execSari e rd ra sh s
  | .lui e rd imm => Sys2Proof.Machine.execLui e rd imm s
  | .cmpi e ra imm => Sys2Proof.Machine.execCmpi e ra imm s
  | .lw e rd ra imm => Sys2Proof.Machine.execLw e rd ra imm s
  | .sw e rd ra imm => Sys2Proof.Machine.execSw e rd ra imm s
  | .lb e rd ra imm => Sys2Proof.Machine.execLb e rd ra imm s
  | .sb e rd ra imm => Sys2Proof.Machine.execSb e rd ra imm s
  | .lde e rd ra imm => Sys2Proof.Machine.execLde e rd ra imm s
  | .ste e rd ra imm => Sys2Proof.Machine.execSte e rd ra imm s
  | .xrd e rd ra rb cnt => Sys2Proof.Machine.execXrd e rd ra rb cnt s
  | .xwr e rd ra rb cnt => Sys2Proof.Machine.execXwr e rd ra rb cnt s
  | .xmod e rd ra rb => Sys2Proof.Machine.execXmod e rd ra rb s
  | .bcc e cond off => Sys2Proof.Machine.execBcc e cond off s
  | .jal e off => Sys2Proof.Machine.execJal e off s
  | .jr e ra => Sys2Proof.Machine.execJr e ra s
  | .call e off => Sys2Proof.Machine.execCall e off s
  | .callr e ra => Sys2Proof.Machine.execCallr e ra s
  | .ret e => Sys2Proof.Machine.execRet e s
  | .wfe e rd ra => Sys2Proof.Machine.execWfe e rd ra s
  | .wfeWake => Sys2Proof.Machine.execWfeWake s
  | .sev e clr set => Sys2Proof.Machine.execSev e clr set s
  | .wds e ra => Sys2Proof.Machine.execWds e ra s
  | .illegalInstruction e => Sys2Proof.Machine.execIllegalInstruction e s
  | .inkStop p => Sys2Proof.Machine.execInkStop p s
  | .inkResume p => Sys2Proof.Machine.execInkResume p s
  | .inkRestart p => Sys2Proof.Machine.execInkRestart p s
  | .tmrWrite n v => Sys2Proof.Machine.execTmrWrite n v s
  | .tmrExpiry n => Sys2Proof.Machine.execTmrExpiry n s
  | .swset v => Sys2Proof.Machine.execSwset v s
  | .grdNote p f => Sys2Proof.Machine.execGrdNote p f s
  | .startEntry => Sys2Proof.Machine.execStartEntry s
  | .pllLock vpp => Sys2Proof.Machine.execPllLock vpp s
  | .copyJudged sram => Sys2Proof.Machine.execCopyJudged sram s
  | .lstat r => Sys2Proof.Machine.execLstat r s
  | .ferase r => Sys2Proof.Machine.execFerase r s
  | .fwrite r => Sys2Proof.Machine.execFwrite r s
  | .fread r => Sys2Proof.Machine.execFread r s
  | .reboot r => Sys2Proof.Machine.execReboot r s
  | .flashDone err => Sys2Proof.Machine.execFlashDone err s
  | .guardFilterTrip c => Sys2Proof.Machine.execGuardFilterTrip c s
  | .gclkCheck bad => Sys2Proof.Machine.execGclkCheck bad s
  | .siDebounce k chB level => Sys2Proof.Machine.execSiDebounce k chB level s
  | .guardTick ms => Sys2Proof.Machine.execGuardTick ms s
  | .discFault k => Sys2Proof.Machine.execDiscFault k s
  | .sutPass => Sys2Proof.Machine.execSutPass s
  | .readbackMismatch pin level => Sys2Proof.Machine.execReadbackMismatch pin level s
  | .loopLost => Sys2Proof.Machine.execLoopLost s
  | .loopOk => Sys2Proof.Machine.execLoopOk s
  | .wdWindowOpen advance => Sys2Proof.Machine.execWdWindowOpen advance s
  | .wdLate => Sys2Proof.Machine.execWdLate s
  | .wdResponse => Sys2Proof.Machine.execWdResponse s
  | .grdUnlk v => Sys2Proof.Machine.execGrdUnlk v s
  | .grdCommit v => Sys2Proof.Machine.execGrdCommit v s
  | .grdFltClear v ms => Sys2Proof.Machine.execGrdFltClear v ms s
  | .standbyCheck => Sys2Proof.Machine.execStandbyCheck s
  | .standbyCheckEnd found => Sys2Proof.Machine.execStandbyCheckEnd found s
  | .celEnable v => Sys2Proof.Machine.execCelEnable v s
  | .celReady => Sys2Proof.Machine.execCelReady s
  | .celDisable v => Sys2Proof.Machine.execCelDisable v s
  | .celRefresh => Sys2Proof.Machine.execCelRefresh s
  | .ringCfgWrite n v => Sys2Proof.Machine.execRingCfgWrite n v s
  | .ringRdWrite n v => Sys2Proof.Machine.execRingRdWrite n v s
  | .ledgerWriteStart => Sys2Proof.Machine.execLedgerWriteStart s
  | .ledgerWriteDone o => Sys2Proof.Machine.execLedgerWriteDone o s
  | .sectorEraseDone => Sys2Proof.Machine.execSectorEraseDone s
  | .ldgRdRead p => Sys2Proof.Machine.execLdgRdRead p s
  | .crcCfg u v => Sys2Proof.Machine.execCrcCfg u v s
  | .crcInit u v => Sys2Proof.Machine.execCrcInit u v s
  | .crcData u v => Sys2Proof.Machine.execCrcData u v s
  | .crcDatab u v => Sys2Proof.Machine.execCrcDatab u v s
  | .crcStateWrite u v => Sys2Proof.Machine.execCrcStateWrite u v s
  | .reqRun v tst => Sys2Proof.Machine.execReqRun v tst s
  | .reqRecover v => Sys2Proof.Machine.execReqRecover v s
  | .reqHalt v => Sys2Proof.Machine.execReqHalt v s
  | .rcvClear v => Sys2Proof.Machine.execRcvClear v s
  | .haltLedgerDrained => Sys2Proof.Machine.execHaltLedgerDrained s
  | .selftestItemEnd ran failed detail => Sys2Proof.Machine.execSelftestItemEnd ran failed detail s
  | .domRequest v => Sys2Proof.Machine.execDomRequest v s
  | .domainOn d => Sys2Proof.Machine.execDomainOn d s
  | .domainOff d => Sys2Proof.Machine.execDomainOff d s
  | .supplyLimit => Sys2Proof.Machine.execSupplyLimit s
  | .vstkUndervoltage => Sys2Proof.Machine.execVstkUndervoltage s
  | .vstkRecoverWake => Sys2Proof.Machine.execVstkRecoverWake s
  | .powerOn => Sys2Proof.Machine.execPowerOn s
  | .powerLoss => Sys2Proof.Machine.execPowerLoss s
  | .wakeAccept o => Sys2Proof.Machine.execWakeAccept o s
  | .vstkWindowCheck vstk => Sys2Proof.Machine.execVstkWindowCheck vstk s
  | .stbyTimeout => Sys2Proof.Machine.execStbyTimeout s
  | .nrst => Sys2Proof.Machine.execNrst s
  | .nrstRelease => Sys2Proof.Machine.execNrstRelease s
  | .nrstStuck => Sys2Proof.Machine.execNrstStuck s
  | .timelRead p => Sys2Proof.Machine.execTimelRead p s
  | .otpDataRead p => Sys2Proof.Machine.execOtpDataRead p s
  | .otpProgram p v vpp => Sys2Proof.Machine.execOtpProgram p v vpp s
  | .fuseBlow p v vpp => Sys2Proof.Machine.execFuseBlow p v vpp s
  | .prgDone verifyOk => Sys2Proof.Machine.execPrgDone verifyOk s
  | .testSel v => Sys2Proof.Machine.execTestSel v s
  | .testKeyArm v tst => Sys2Proof.Machine.execTestKeyArm v tst s
  | .testKeyUnlock v o => Sys2Proof.Machine.execTestKeyUnlock v o s
  | .testKeyTimeout => Sys2Proof.Machine.execTestKeyTimeout s
  | .tstFall => Sys2Proof.Machine.execTstFall s
  | .timeLoad => Sys2Proof.Machine.execTimeLoad s
  | .vdd5SourceChange fromVsup => Sys2Proof.Machine.execVdd5SourceChange fromVsup s
  | .readbackAgree pin => Sys2Proof.Machine.execReadbackAgree pin s
  | .backgroundScrub e => Sys2Proof.Machine.execBackgroundScrub e s
  | .frameDiscarded p why => Sys2Proof.Machine.execFrameDiscarded p why s
  | .reqBadTarget v => Sys2Proof.Machine.execReqBadTarget v s

end Sys2Proof.Machine
end

