-- ==== Sys2Proof/Machine/Step.lean ====
section
/-! DEFINITION. One step of the block: the command at the front of its queue. -/

namespace Sys2Proof.Machine

/-- One step: the command that has waited longest takes effect, with the rest of the queue still waiting. With an empty
queue TIME moves, and the Innkeeper does what its program says next.
(DESIGN CHOICE, log entries 3 and 70.) -/
def step (s : State) : Host.Outcome State Fault Refusal :=
  match s.pending with
  | c :: rest => exec c { s with pending := rest }
  | [] =>
    match s.inkNext with
    | none => .next (tick s)
    | some c => exec c (tick s)

/-- The state with the command a word spells put at the front of its queue; unchanged where the word spells none.
(DEDUCED, log entry 2.) -/
def State.withFetchWord (s : State) (nbits w : Nat) : State :=
  match decodeTableWord nbits w with
  | none => s
  | some c => { s with pending := c :: s.pending }

end Sys2Proof.Machine
end

