-- ==== Sys2Proof/Machine/Pins.lean ====
section
/-! DEFINITION. The output pins (spec/16_pins_and_board.md, R448, R450, R465): their domains, when they are high-impedance,
and the levels the outside world sees where a chapter states them. What runs over the chain ports, the host port and the
serial flash is in Machine/LineCode.lean. -/

namespace Sys2Proof.Machine

/-- The outputs of R448. -/
inductive OutPin where
  | ph (x : Nat)
  | phen
  | soa
  | sob
  | hirq
  | flo
  | thref
  | chain (p : Port)
  | sat
  | hio (k : Nat)
  | fcs
  | fck
  | fio (k : Nat)
  | xcs
  | xck
  | xdqs
  | xio (k : Nat)
  deriving DecidableEq, Repr

/-- The domain of an output (R448). -/
def OutPin.domain : OutPin → Nat
  | .ph _ => 9
  | .phen => 9
  | .soa => 6
  | .sob => 6
  | .flo => 6
  | .thref => 6
  | .chain .north => 7
  | .chain .south => 8
  | .hirq => 5
  | .sat => 5
  | .hio _ => 5
  | .fcs => 5
  | .fck => 5
  | .fio _ => 5
  | .xcs => 5
  | .xck => 5
  | .xdqs => 5
  | .xio _ => 5

/-- A pin of the serial flash. -/
def OutPin.ofFlash : OutPin → Bool
  | .fcs => true
  | .fck => true
  | .fio _ => true
  | _ => false

/-- An output of a domain that is off is high-impedance, as in reset and without power (R416, R448); those of the serial flash
are while NRST is held low (R465). -/
def State.floats (s : State) (p : OutPin) : Bool := !s.on p.domain || (p.ofFlash && s.ptr.nrstLow)

/-- The level that the board's resistor gives a high-impedance output, where R450 names one. -/
def OutPin.pulled : OutPin → Option Bool
  | .ph _ => some false
  | .phen => some false
  | .soa => some false
  | .sob => some false
  | .flo => some false
  | .hirq => some true
  | .sat => some true
  | .fcs => some true
  | .xcs => some true
  | _ => none

/-- The level at an output, for a phase's `ns` after its latest turn-on, where a rule states one (R141, R264, R313, R341, R353,
R450); none while FLO toggles. -/
def State.outLevel (s : State) (ns : Nat) (p : OutPin) : Option Bool :=
  if s.floats p then p.pulled
  else match p with
    | .ph x => some (s.phHigh x ns)
    | .phen => some s.phenHigh
    | .soa => some s.soaDriven
    | .sob => some s.grdOk
    | .flo => if s.floToggles then none else some s.floLevel
    | .hirq => some (!s.hirqLow)
    | _ => none

end Sys2Proof.Machine
end

