-- ==== Sys2Proof/Safety.lean ====
section
/-! DEFINITION. What the claims about runs speak of: the canonical forms of what the block stores, and when the Guard's
status has been acted on. -/

namespace Sys2Proof.Machine

/-- The endpoint file and every addressed memory stand in their canonical form. -/
def State.stored (s : State) : Bool :=
  Sparse.wf Reg.reset s.regs && Mem.wf 0xFF s.led.flash && Mem.wf 0 s.cel.mem && Mem.wf 0 s.ink.prog &&
  Mem.wf 0 s.ink.data && Mem.wf 0xFF s.boot.flash && Sparse.wf (fun _ => 0) s.tru.otp &&
  Sparse.wf (fun _ => 0) s.tru.weak

/-- Every change of the Guard's status, of GRD_OK and of FLO has been acted on (R340, R353, R366, R367). -/
def State.settled (s : State) : Bool :=
  s.grd.floWas == s.floToggles && s.grd.okWas == s.grdOk && s.grd.gstWas == s.gst

/-- Nothing is left to follow from earlier commands: no broadcast of the Innkeeper has left without its completion
(R307), the Guard's status has been acted on, and no GRD_NOTE waits that has room (R367). -/
def State.rested (s : State) : Prop := bcastSettle s = s ∧ grdSettle s = s

/-- A command left everything alone that the Guard's permits and the automatic reactions depend on: the Guard's
registers, the device state, the domains, and whether the Innkeeper has halted. -/
def steady (s t : State) : Prop :=
  (∀ a, isGrd a = true → t.reg a = s.reg a) ∧ t.ptr.dev = s.ptr.dev ∧ t.ptr.dom = s.ptr.dom ∧
  (t.ink.state = .halted → s.ink.state = .halted)

/-- An address of a CHN register (R230, R265). -/
def isChn (a : Nat) : Bool := Nat.ble 0x1000 a && Nat.blt a 0x1400

/-- A steady command that left alone what the sending of broadcasts and notes depends on, too: the chain's registers,
rooms and waiting frames, the broadcasts outstanding (it may have added none), and what the Guard last acted on. -/
def quiet (s t : State) : Prop :=
  steady s t ∧ (∀ a, isChn a = true → t.reg a = s.reg a) ∧ t.north = s.north ∧ t.south = s.south ∧
  t.net.outbox = s.net.outbox ∧ (∀ x ∈ t.ink.out, x ∈ s.ink.out ∨ x.bcast = none) ∧ t.grd.okWas = s.grd.okWas ∧ t.grd.gstWas = s.grd.gstWas ∧
  t.grd.noteWaits = s.grd.noteWaits ∧ t.grd.floWas = s.grd.floWas

/-! ### Frames -/

/-- The whole register at an address. -/
def Fld.whole (a : Nat) : Fld := ⟨a, 0, 32⟩

/-- Bit `i` of the register at `a` belongs to a field. -/
def Fld.holds (f : Fld) (a i : Nat) : Bool := f.addr == a && Nat.ble f.lo i && Nat.blt i (f.lo + f.w)

/-- No bit of the endpoint file changed but those of the listed fields. -/
def keeps (fs : List Fld) (s t : State) : Prop :=
  ∀ a i, (fs.any fun f => f.holds a i) = false → (t.reg a).getLsbD i = (s.reg a).getLsbD i

/-- A command that took `s` to `t` changed, of the endpoint file, only bits of the listed fields, and left everything
else as it stands in `u`, which is `s` with what else the command changes. -/
def only (fs : List Fld) (s u t : State) : Prop := keeps fs s t ∧ t = { u with regs := t.regs }

/-- Registers whose writes obey their fields' access codes and nothing else, outside the Guard and the chain: event
registers and enables, alarms, wake enables and retained causes, the HK scan, and the factors. -/
def codeRegs : List Nat :=
  [A.PTR_EVT, A.PTR_EVT_EN, A.PTR_RST, A.PTR_WAKE_EN, A.PTR_ALARML, A.PTR_ALARMH, A.THM_EVT, A.THM_EVT_EN, A.THM_SD,
   A.TRU_EVT, A.TRU_EVT_EN, A.MEAS_CAL_ERR, A.MEAS_HK_MASK, A.MEAS_HK_CFG, A.MEAS_EVT, A.MEAS_EVT_EN, A.MEAS_GAIN 0,
   A.MEAS_OFF 0, A.SDP_EVT, A.SDP_EVT_EN, A.IMP_EVT, A.IMP_EVT_EN, A.PHC_EVT, A.PHC_EVT_EN, A.BAL_EVT, A.BAL_EVT_EN,
   A.SAT_EVT, A.SAT_EVT_EN, A.INK_EVT, A.STO_EVT, A.STO_EVT_EN]

/-- The register at `a` took a write of `v` by its fields' access codes (R6): RW bits take the written value, W1C bits
written 1 clear, every other bit stays. -/
def wrote (s t : State) (a : Nat) (v : Word) : Prop :=
  ∃ r, regRow a = some r ∧ ∀ i, i < 32 → t.rbit a i =
    if r.rw.testBit i then v.getLsbD i
    else if r.w1c.testBit i then s.rbit a i && !v.getLsbD i
    else s.rbit a i

/-! ### Frames of the chain -/

/-- A frame arrives at a port in UP, passes R221, is the next in order among the reliable ones (R224), and its buffer shows no
uncorrectable error (R373). -/
def inOrder (s : State) (p : Port) (f : Frame) : Prop :=
  s.portUp p = true ∧ f.ecc.room ≠ .uncorrectable ∧ f.crcOk = true ∧ frameMalformed f = false ∧ BitVec.ofNat 8 f.seq = (s.port p).rxSeq

/-- A frame stands among those to be sent by a port: in its transmit room, or waiting for one of its buffers. -/
def leaving (t : State) (p : Port) (g : Frame) : Prop :=
  g ∈ (t.port p).tx.map (·.frame) ∨ ∃ x ∈ t.net.outbox, x.port = p ∧ x.frame = g

/-! ### Instructions of the Innkeeper -/

/-- The Innkeeper takes an instruction at PC and its checks pass (R291, R293, R300, R301). -/
def State.inkGoes (s : State) (e : InkEnv) : Prop :=
  s.ink.state = .running ∧ s.ink.pc ≠ 0x3FFF ∧ e.fetch ≠ .uncorrectable ∧ e.check = false

/-- Corrections counted at the fetch of the instruction (R291). -/
def fetchCounted (s t : State) (e : InkEnv) : Prop :=
  t.get F.INK_ECC.PCOR = (s.get F.INK_ECC.PCOR + if e.fetch = .corrected then 1 else 0) % 2 ^ F.INK_ECC.PCOR.w

/-- A register took a value, and no other register changed; g0 takes none (R289). -/
def regTook (s t : State) (rd : BitVec 4) (r : Word) : Prop :=
  t.g rd = (if rd = 0 then 0 else r) ∧ ∀ x, x ≠ rd → t.g x = s.g x

/-- `t` is `s` after an instruction that put a result into a register, set the flags and moved PC on, and did nothing
else (R289, R297). -/
def inkGives (s t : State) (e : InkEnv) (rd : BitVec 4) (r : Word) (n z c v : Bool) : Prop :=
  regTook s t rd r ∧ fetchCounted s t e ∧
  t.ink = { s.ink with g := t.ink.g, n := n, z := z, c := c, v := v, pc := s.ink.pc + 1 } ∧
  only [F.INK_ECC.PCOR] s { s with ink := t.ink } t

end Sys2Proof.Machine
end

