-- ==== Sys2Proof/Certificates/Slice0/Obligations.lean ====
section
/-! DEFINITION. The statements about the MWE2406 for the provers, family by family. `rested` says of a state that nothing
is left to follow from earlier commands, `only` and `keeps` that a command changed nothing but what they list. -/

open Sys2Proof Sys2Proof.Machine

/-- ADD, SUB, ADDI and CMPI: the sum or difference, and the four flags of R298. -/
def Obligations.InkAddSub : Prop :=
  ∀ (s : State) (e : InkEnv) (rd ra rb : BitVec 4) (imm : BitVec 18), s.rested → s.inkGoes e →
    (∃ t, exec (.add e rd ra rb) s = .next t ∧
      inkGives s t e rd (s.g ra + s.g rb) (s.g ra + s.g rb).msb (decide (s.g ra + s.g rb = 0))
        (decide (2 ^ 32 ≤ (s.g ra).toNat + (s.g rb).toNat))
        (decide ((s.g ra + s.g rb).toInt ≠ (s.g ra).toInt + (s.g rb).toInt))) ∧
    (∃ t, exec (.sub e rd ra rb) s = .next t ∧
      inkGives s t e rd (s.g ra - s.g rb) (s.g ra - s.g rb).msb (decide (s.g ra = s.g rb))
        (decide ((s.g rb).toNat ≤ (s.g ra).toNat))
        (decide ((s.g ra - s.g rb).toInt ≠ (s.g ra).toInt - (s.g rb).toInt))) ∧
    (∃ t, exec (.addi e rd ra imm) s = .next t ∧
      inkGives s t e rd (s.g ra + imm.signExtend 32) (s.g ra + imm.signExtend 32).msb
        (decide (s.g ra + imm.signExtend 32 = 0))
        (decide (2 ^ 32 ≤ (s.g ra).toNat + (imm.signExtend 32).toNat))
        (decide ((s.g ra + imm.signExtend 32).toInt ≠ (s.g ra).toInt + imm.toInt))) ∧
    (∃ t, exec (.cmpi e ra imm) s = .next t ∧
      inkGives s t e 0 (s.g ra - imm.signExtend 32) (s.g ra - imm.signExtend 32).msb
        (decide (s.g ra = imm.signExtend 32))
        (decide ((imm.signExtend 32).toNat ≤ (s.g ra).toNat))
        (decide ((s.g ra - imm.signExtend 32).toInt ≠ (s.g ra).toInt - imm.toInt)))

/-- AND, OR, XOR, the shifts, MIN, MAX, LUI and their immediate forms: the result, N and Z; C and V stay. -/
def Obligations.InkLogic : Prop :=
  ∀ (s : State) (e : InkEnv) (rd ra rb : BitVec 4) (imm : BitVec 18) (sh : BitVec 5), s.rested → s.inkGoes e →
    (∃ t, exec (.and e rd ra rb) s = .next t ∧ inkGives s t e rd (s.g ra &&& s.g rb) (s.g ra &&& s.g rb).msb
      (decide (s.g ra &&& s.g rb = 0)) s.ink.c s.ink.v) ∧
    (∃ t, exec (.or e rd ra rb) s = .next t ∧ inkGives s t e rd (s.g ra ||| s.g rb) (s.g ra ||| s.g rb).msb
      (decide (s.g ra ||| s.g rb = 0)) s.ink.c s.ink.v) ∧
    (∃ t, exec (.xor e rd ra rb) s = .next t ∧ inkGives s t e rd (s.g ra ^^^ s.g rb) (s.g ra ^^^ s.g rb).msb
      (decide (s.g ra = s.g rb)) s.ink.c s.ink.v) ∧
    (∃ (t : State) (r : Word), exec (.shl e rd ra rb) s = .next t ∧ inkGives s t e rd r r.msb (decide (r = 0)) s.ink.c s.ink.v ∧
      r.toNat = (s.g ra).toNat * 2 ^ ((s.g rb).toNat % 32) % 2 ^ 32) ∧
    (∃ (t : State) (r : Word), exec (.shr e rd ra rb) s = .next t ∧ inkGives s t e rd r r.msb (decide (r = 0)) s.ink.c s.ink.v ∧
      r.toNat = (s.g ra).toNat / 2 ^ ((s.g rb).toNat % 32)) ∧
    (∃ (t : State) (r : Word), exec (.sar e rd ra rb) s = .next t ∧ inkGives s t e rd r r.msb (decide (r = 0)) s.ink.c s.ink.v ∧
      r.toInt = (s.g ra).toInt / 2 ^ ((s.g rb).toNat % 32)) ∧
    (∃ (t : State) (r : Word), exec (.min e rd ra rb) s = .next t ∧ inkGives s t e rd r r.msb (decide (r = 0)) s.ink.c s.ink.v ∧
      r.toInt = min (s.g ra).toInt (s.g rb).toInt) ∧
    (∃ (t : State) (r : Word), exec (.max e rd ra rb) s = .next t ∧ inkGives s t e rd r r.msb (decide (r = 0)) s.ink.c s.ink.v ∧
      r.toInt = max (s.g ra).toInt (s.g rb).toInt) ∧
    (∃ (t : State) (r : Word), exec (.andi e rd ra imm) s = .next t ∧ inkGives s t e rd r r.msb (decide (r = 0)) s.ink.c s.ink.v ∧
      r = s.g ra &&& imm.setWidth 32) ∧
    (∃ (t : State) (r : Word), exec (.ori e rd ra imm) s = .next t ∧ inkGives s t e rd r r.msb (decide (r = 0)) s.ink.c s.ink.v ∧
      r = s.g ra ||| imm.setWidth 32) ∧
    (∃ (t : State) (r : Word), exec (.xori e rd ra imm) s = .next t ∧ inkGives s t e rd r r.msb (decide (r = 0)) s.ink.c s.ink.v ∧
      r = s.g ra ^^^ imm.setWidth 32) ∧
    (∃ (t : State) (r : Word), exec (.shli e rd ra sh) s = .next t ∧ inkGives s t e rd r r.msb (decide (r = 0)) s.ink.c s.ink.v ∧
      r.toNat = (s.g ra).toNat * 2 ^ sh.toNat % 2 ^ 32) ∧
    (∃ (t : State) (r : Word), exec (.shri e rd ra sh) s = .next t ∧ inkGives s t e rd r r.msb (decide (r = 0)) s.ink.c s.ink.v ∧
      r.toNat = (s.g ra).toNat / 2 ^ sh.toNat) ∧
    (∃ (t : State) (r : Word), exec (.sari e rd ra sh) s = .next t ∧ inkGives s t e rd r r.msb (decide (r = 0)) s.ink.c s.ink.v ∧
      r.toInt = (s.g ra).toInt / 2 ^ sh.toNat) ∧
    (∃ (t : State) (r : Word), exec (.lui e rd imm) s = .next t ∧ inkGives s t e rd r r.msb (decide (r = 0)) s.ink.c s.ink.v ∧
      r.toNat = imm.toNat * 2 ^ 14)

/-- MUL, MULH, MULHU, DIV and DIVU: the parts of the products, the truncated quotients, and V at a division by zero and
at −2^31 / −1. -/
def Obligations.InkMulDiv : Prop :=
  ∀ (s : State) (e : InkEnv) (rd ra rb : BitVec 4), s.rested → s.inkGoes e →
    (∃ (t : State) (r : Word), exec (.mul e rd ra rb) s = .next t ∧ inkGives s t e rd r r.msb (decide (r = 0)) s.ink.c s.ink.v ∧
      r.toNat = (s.g ra).toNat * (s.g rb).toNat % 2 ^ 32) ∧
    (∃ (t : State) (r : Word), exec (.mulh e rd ra rb) s = .next t ∧ inkGives s t e rd r r.msb (decide (r = 0)) s.ink.c s.ink.v ∧
      r.toInt = (s.g ra).toInt * (s.g rb).toInt / 2 ^ 32) ∧
    (∃ (t : State) (r : Word), exec (.mulhu e rd ra rb) s = .next t ∧ inkGives s t e rd r r.msb (decide (r = 0)) s.ink.c s.ink.v ∧
      r.toNat = (s.g ra).toNat * (s.g rb).toNat / 2 ^ 32) ∧
    (∃ (t : State) (r : Word) (v : Bool), exec (.div e rd ra rb) s = .next t ∧ inkGives s t e rd r r.msb (decide (r = 0)) s.ink.c v ∧
      (s.g rb = 0 → r = 0 ∧ v = true) ∧
      (s.g ra = 0x80000000 → s.g rb = 0xFFFFFFFF → r = 0x80000000 ∧ v = true) ∧
      (s.g rb ≠ 0 → ¬ (s.g ra = 0x80000000 ∧ s.g rb = 0xFFFFFFFF) →
        r.toInt = (s.g ra).toInt.tdiv (s.g rb).toInt ∧ v = false)) ∧
    (∃ (t : State) (r : Word) (v : Bool), exec (.divu e rd ra rb) s = .next t ∧ inkGives s t e rd r r.msb (decide (r = 0)) s.ink.c v ∧
      (s.g rb = 0 → r = 0 ∧ v = true) ∧
      (s.g rb ≠ 0 → r.toNat = (s.g ra).toNat / (s.g rb).toNat ∧ v = false))

/-- LW, LB, SW and SB at a legal address: what the register or the bytes become; every other byte stays. -/
def Obligations.InkMemory : Prop :=
  ∀ (s : State) (e : InkEnv) (rd ra : BitVec 4) (imm : BitVec 18) (a : Nat), s.rested → s.inkGoes e →
    e.data ≠ .uncorrectable → a = (s.g ra + imm.signExtend 32).toNat → a ≤ 0xFFFF → a / 4 ∉ s.ink.bad →
    (a % 4 = 0 → ∃ t, exec (.lw e rd ra imm) s = .next t ∧ regTook s t rd (Mem.word 0 s.ink.data a) ∧
      t.ink = { s.ink with g := t.ink.g, pc := s.ink.pc + 1 } ∧
      only [F.INK_ECC.PCOR, F.INK_ECC.DCOR] s { s with ink := t.ink } t) ∧
    (∃ t, exec (.lb e rd ra imm) s = .next t ∧ regTook s t rd ((Mem.byte 0 s.ink.data a).setWidth 32) ∧
      t.ink = { s.ink with g := t.ink.g, pc := s.ink.pc + 1 } ∧
      only [F.INK_ECC.PCOR, F.INK_ECC.DCOR] s { s with ink := t.ink } t) ∧
    (a % 4 = 0 → ∃ t, exec (.sw e rd ra imm) s = .next t ∧ Mem.word 0 t.ink.data a = s.g rd ∧
      (∀ b, b < a ∨ a + 4 ≤ b → Mem.byte 0 t.ink.data b = Mem.byte 0 s.ink.data b) ∧
      t.ink = { s.ink with data := t.ink.data, bad := t.ink.bad, pc := s.ink.pc + 1 } ∧
      only [F.INK_ECC.PCOR, F.INK_ECC.DCOR] s { s with ink := t.ink } t) ∧
    (∃ t, exec (.sb e rd ra imm) s = .next t ∧ Mem.byte 0 t.ink.data a = (s.g rd).setWidth 8 ∧
      (∀ b, b ≠ a → Mem.byte 0 t.ink.data b = Mem.byte 0 s.ink.data b) ∧
      t.ink = { s.ink with data := t.ink.data, pc := s.ink.pc + 1 } ∧
      only [F.INK_ECC.PCOR, F.INK_ECC.DCOR] s { s with ink := t.ink } t)

/-- LDE gives the endpoint's value as the Innkeeper's path reads it, without another effect where the endpoint's read
has none; LDE of INK_XCPL takes its oldest completion; STE does to the endpoint what a write on the Innkeeper's path
does. -/
def Obligations.InkEndpoints : Prop :=
  ∀ (s : State) (e : InkEnv) (rd ra : BitVec 4) (imm : BitVec 18) (a : Nat), s.rested → s.inkGoes e → e.fetch = .clean →
    a = (s.g ra + imm.signExtend 32).toNat → a ≤ 0x3FFF → isReserved a = false →
    (isMailbox a = false → a ∉ [A.PTR_TIMEL, A.TRU_OTP_DATA, A.STO_LDG_RD, A.INK_XCPL] →
      (∀ n, n < 25 → a ≠ A.SDP_RES n) →
      ∃ t, exec (.lde e rd ra imm) s = .next t ∧ regTook s t rd (s.view .ink a) ∧
        t.ink = { s.ink with g := t.ink.g, pc := s.ink.pc + 1 } ∧ only [] s { s with ink := t.ink } t) ∧
    (a = A.INK_XCPL → ∃ t, exec (.lde e rd ra imm) s = .next t ∧ regTook s t rd (cplWord s.ink.cpl.head?) ∧
      t.ink = { s.ink with g := t.ink.g, pc := s.ink.pc + 1, cpl := s.ink.cpl.tail } ∧
      only [] s { s with ink := t.ink } t) ∧
    (a = A.PTR_TIMEL → ∃ t, exec (.lde e rd ra imm) s = .next t ∧ regTook s t rd (s.timeNow.setWidth 32) ∧
      t.ptr.holdInk = s.timeNow.extractLsb' 32 32 ∧ t.ink.pc = s.ink.pc + 1) ∧
    (∃ u, (exec (.ste e rd ra imm) s = .next (settle s (pcNext u))) ∧
      (s.on 5 = true → isGrd a = false → exec (.registerWrite .ink a (s.g rd)) s = .next (settle s u)))

/-- XRD, XWR and XMOD to an assigned slot of another device that is not lost: an XID not in use goes to rd, PC moves on,
and the request stands among the device's requests with what the instruction copied. While all sixteen XIDs are in
use the instruction gives 0xFFFFFFFF, counts, and issues nothing. It rests on choices of the model besides: log
entry 44. -/
def Obligations.InkTransactions : Prop :=
  ∀ (s : State) (e : InkEnv) (rd ra rb : BitVec 4) (cnt : BitVec 6) (b : Nat), s.rested → s.inkGoes e →
    e.fetch = .clean → e.data = .clean → s.ink.bad = [] → b = (s.g rb).toNat → b % 4 = 0 → cnt ≠ 0 →
    let slot := ((s.g ra).extractLsb' 14 6).toNat
    let addr := ((s.g ra).extractLsb' 0 14).toNat
    let away := (s.g ra).extractLsb' 20 12 = 0 ∧ s.bit F.CHN_NET_STAT.SLOTV = true ∧ slot ≠ s.get F.CHN_NET_STAT.SLOT ∧
      s.pos slot ≠ 0xFF ∧ s.lost slot = false
    let issued := fun (i : Instr) (typ count : Nat) (data : List Word) =>
      ∃ (t : State) (xid : Nat), exec i s = .next t ∧ xid < 16 ∧ xid ∉ s.xidsUsed ∧
        regTook s t rd (Word.ofNat xid) ∧ t.ink.pc = s.ink.pc + 1 ∧
        ∃ q ∈ t.net.requests, q.who = .ink xid (b / 4) ∧ q.dst = slot ∧ q.typ = typ ∧ q.addr = addr ∧
          q.count = count ∧ q.data = data
    (b + 4 * cnt.toNat ≤ 0x10000 → s.xidFree.isSome → away →
      issued (.xrd e rd ra rb cnt) 0 cnt.toNat [] ∧
      issued (.xwr e rd ra rb cnt) 1 cnt.toNat (s.dataWords (b / 4) cnt.toNat)) ∧
    (b + 8 ≤ 0x10000 → s.xidFree.isSome → away →
      issued (.xmod e rd ra rb) 2 1 (s.dataWords (b / 4) 2)) ∧
    (s.xidFree = none →
      let refused := fun (i : Instr) => ∃ t, exec i s = .next t ∧ regTook s t rd 0xFFFFFFFF ∧
        t.get F.INK_XSTAT.REFUSED = (s.get F.INK_XSTAT.REFUSED + 1) % 2 ^ F.INK_XSTAT.REFUSED.w ∧
        t.ink = { s.ink with g := t.ink.g, pc := s.ink.pc + 1 } ∧ only [F.INK_XSTAT.REFUSED] s { s with ink := t.ink } t
      (b + 4 * cnt.toNat ≤ 0x10000 → refused (.xrd e rd ra rb cnt) ∧ refused (.xwr e rd ra rb cnt)) ∧
      (b + 8 ≤ 0x10000 → refused (.xmod e rd ra rb)))

/-- JAL, JR, CALL, CALLR and RET at a target within program SRAM: where PC goes, what is linked or stacked, and that
nothing else changes. It rests on choices of the model besides: log entry 53. -/
def Obligations.InkJumps : Prop :=
  ∀ (s : State) (e : InkEnv) (ra : BitVec 4) (far : BitVec 26) (q : BitVec 14),
    s.rested → s.ink.state = .running → e.fetch = .clean → e.check = false → (q.toNat : Int) = s.ink.pc.toNat + far.toInt →
    (∃ t, exec (.jal e far) s = .next t ∧ regTook s t 15 (Word.ofNat (s.ink.pc.toNat + 1)) ∧
      t = { s with ink := { s.ink with g := t.ink.g, pc := q } }) ∧
    ((s.g ra).toNat ≤ 0x3FFF → ∃ t, exec (.jr e ra) s = .next t ∧
      t = { s with ink := { s.ink with pc := (s.g ra).setWidth 14 } }) ∧
    (s.ink.stack.length < 16 → ∃ t, exec (.call e far) s = .next t ∧
      t = { s with ink := { s.ink with pc := q, stack := (s.ink.pc + 1) :: s.ink.stack } }) ∧
    (s.ink.stack.length < 16 → (s.g ra).toNat ≤ 0x3FFF → ∃ t, exec (.callr e ra) s = .next t ∧
      t = { s with ink := { s.ink with pc := (s.g ra).setWidth 14, stack := (s.ink.pc + 1) :: s.ink.stack } }) ∧
    (∀ x xs, s.ink.stack = x :: xs → ∃ t, exec (.ret e) s = .next t ∧
      t = { s with ink := { s.ink with pc := x, stack := xs } })

/-- R299, the conditions of BCC: taken exactly where the table says its condition holds, with N, Z, C and V the flags;
COND 15 is illegal. What follows: after SUB of two values the conditions compare them, EQ to LS without sign, GE to
LE with it. -/
def Obligations.InkBranches : Prop :=
  ∀ (s : State) (e : InkEnv), s.rested → s.inkGoes e → e.fetch = .clean →
    let n := s.ink.n
    let z := s.ink.z
    let c := s.ink.c
    let v := s.ink.v
    (∀ (off : BitVec 18) (p : BitVec 14), (p.toNat : Int) = s.ink.pc.toNat + off.toInt →
      ∀ x ∈ [((0 : BitVec 4), z), (1, !z), (2, c), (3, !c), (4, n), (5, !n), (6, v), (7, !v), (8, c && !z), (9, !c || z),
          (10, n == v), (11, n != v), (12, !z && n == v), (13, z || n != v), (14, true)],
        exec (.bcc e x.1 off) s = .next { s with ink := { s.ink with pc := if x.2 then p else s.ink.pc + 1 } }) ∧
    (∀ off : BitVec 18, ∃ t, exec (.bcc e 15 off) s = .next t ∧ t.ink.state = .halted ∧
      t.get F.INK_FLT.CAUSE = 4 ∧ t.get F.INK_FLT.PC = s.ink.pc.toNat) ∧
    (∀ ra rb : BitVec 4, ∃ t, exec (.sub e 0 ra rb) s = .next t ∧
      let a := s.g ra
      let b := s.g rb
      let holds := condHolds t.ink
      holds 0 = decide (a = b) ∧ holds 1 = decide (a ≠ b) ∧ holds 2 = decide (b.toNat ≤ a.toNat) ∧
      holds 3 = decide (a.toNat < b.toNat) ∧ holds 4 = (a - b).msb ∧ holds 5 = !(a - b).msb ∧
      holds 6 = decide ((a - b).toInt ≠ a.toInt - b.toInt) ∧ holds 7 = decide ((a - b).toInt = a.toInt - b.toInt) ∧
      holds 8 = decide (b.toNat < a.toNat) ∧ holds 9 = decide (a.toNat ≤ b.toNat) ∧
      holds 10 = decide (b.toInt ≤ a.toInt) ∧ holds 11 = decide (a.toInt < b.toInt) ∧
      holds 12 = decide (b.toInt < a.toInt) ∧ holds 13 = decide (a.toInt ≤ b.toInt) ∧ holds 14 = true)

/-- WFE ends at once on an asserted masked line or an empty mask, else the Innkeeper waits on the instruction; WFE_WAKE
ends the wait with the lines found; SEV clears, then sets, software events; WDS sends its word to the Guard. -/
def Obligations.InkEvents : Prop :=
  ∀ (s : State) (e : InkEnv) (rd ra : BitVec 4) (clr set : BitVec 8), s.rested →
    (s.inkGoes e → e.fetch = .clean → s.g ra = 0 ∨ s.epend &&& s.g ra ≠ 0 →
      ∃ t, exec (.wfe e rd ra) s = .next t ∧ regTook s t rd (s.epend &&& s.g ra) ∧
        t = { s with ink := { s.ink with g := t.ink.g, pc := s.ink.pc + 1 } }) ∧
    (s.inkGoes e → e.fetch = .clean → s.g ra ≠ 0 → s.epend &&& s.g ra = 0 →
      ∃ t, exec (.wfe e rd ra) s = .next t ∧
        t = { s with ink := { s.ink with state := .waiting, wfe := some (rd, s.g ra) } }) ∧
    (∀ m, s.ink.state = .waiting → s.ink.wfe = some (rd, m) → s.epend &&& m ≠ 0 →
      ∃ t, exec .wfeWake s = .next t ∧ regTook s t rd (s.epend &&& m) ∧
        t = { s with ink := { s.ink with state := .running, wfe := none, g := t.ink.g, pc := s.ink.pc + 1 } }) ∧
    (s.inkGoes e → e.fetch = .clean →
      ∃ t, exec (.sev e clr set) s = .next t ∧
        t.get F.INK_EVT.SW = ((BitVec.ofNat 8 (s.get F.INK_EVT.SW) &&& ~~~clr) ||| set).toNat ∧
        only [F.INK_EVT.SW] s { s with ink := { s.ink with pc := s.ink.pc + 1 } } t) ∧
    (s.inkGoes e → e.fetch = .clean → s.on 6 = true →
      ∃ t, exec (.wds e ra) s = .next t ∧ t.grd.resp = s.grd.resp ++ [(s.g ra).setWidth 16] ∧
        t.get F.INK_WDC.FRESH = 0 ∧ t.get F.INK_WDC.SENT = (s.get F.INK_WDC.SENT + 1) % 2 ^ F.INK_WDC.SENT.w ∧
        only [F.INK_WDC.FRESH, F.INK_WDC.SENT] s
          { s with grd := { s.grd with resp := t.grd.resp }, ink := { s.ink with pc := s.ink.pc + 1 } } t)

/-- Stopping, resuming and restarting the Innkeeper by INK_CTRL where XLOCK does not bar the path. -/
def Obligations.InkControl : Prop :=
  ∀ (s : State) (p : Path), s.rested → s.on 5 = true → s.inkBarred p = false →
    (s.inkRuns = true → ∃ t, exec (.inkStop p) s = .next t ∧ t.get F.INK_CTRL.RUN = 0 ∧ t.get F.INK_SAFE.SOA = 0 ∧
      t.ink = { s.ink with
        state := .stopped, wfe := none, out := [],
        cpl := s.ink.cpl ++ s.ink.out.map fun x => ⟨x.xid, x.op, 8, 0⟩ } ∧
      only [F.INK_CTRL.RUN, F.INK_SAFE.SOA] s
        { s with ink := t.ink, net := { s.net with requests := t.net.requests } } t) ∧
    (s.ink.state = .stopped → s.inDev [.start, .run, .recover] = true →
      ∃ t, exec (.inkResume p) s = .next t ∧ t.get F.INK_CTRL.RUN = 1 ∧
        only [F.INK_CTRL.RUN] s { s with ink := { s.ink with state := .running } } t) ∧
    (s.ink.state = .stopped ∨ s.ink.state = .halted → s.inDev [.start, .run, .recover] = true →
      ∃ t, exec (.inkRestart p) s = .next t ∧ t.get F.INK_CTRL.RUN = 1 ∧ t.reg A.INK_EVT = 0 ∧
        (∀ n, n < 4 → t.get (F.INK_TMR.EN n) = 0) ∧ (∀ r, t.g r = 0) ∧
        t.ink = { s.ink with
          state := .running, g := t.ink.g, n := false, z := false, c := false, v := false,
          pc := BitVec.ofNat 14 (s.get F.INK_ENTRY.ENTRY), stack := [], wfe := none, out := [], cpl := [] } ∧
        only [F.INK_CTRL.RUN, Fld.whole A.INK_EVT, F.INK_TMR.EN 0, F.INK_TMR.EN 1, F.INK_TMR.EN 2, F.INK_TMR.EN 3] s
          { s with ink := t.ink } t)

/-- Timers and software events: a write of INK_TMRn stores its RW bits and at least 1 in PERIOD; an expiry sets its
event, or its overrun bit where the event is pending, and ends a timer that is not periodic; INK_SWSET sets bits. It
rests on choices of the model besides: log entry 5. -/
def Obligations.InkTimers : Prop :=
  ∀ (s : State) (n : Nat) (v : Word), s.rested → s.on 5 = true → n < 4 →
    (∃ t, exec (.tmrWrite n v) s = .next t ∧
      t.get (F.INK_TMR.PERIOD n) = max 1 ((F.INK_TMR.PERIOD n).read v) ∧
      t.get (F.INK_TMR.EN n) = (F.INK_TMR.EN n).read v ∧ t.get (F.INK_TMR.PERIODIC n) = (F.INK_TMR.PERIODIC n).read v ∧
      only [Fld.whole (A.INK_TMR n)] s s t) ∧
    (s.bit (F.INK_TMR.EN n) = true →
      ∃ t, exec (.tmrExpiry n) s = .next t ∧
        t.rbit A.INK_EVT n = true ∧ t.rbit A.INK_EVT (16 + n) = (s.rbit A.INK_EVT n || s.rbit A.INK_EVT (16 + n)) ∧
        t.get (F.INK_TMR.EN n) = s.get (F.INK_TMR.PERIODIC n) ∧
        only [⟨A.INK_EVT, n, 1⟩, ⟨A.INK_EVT, 16 + n, 1⟩, F.INK_TMR.EN n] s s t) ∧
    (∃ t, exec (.swset v) s = .next t ∧
      t.get F.INK_EVT.SW = s.get F.INK_EVT.SW ||| F.INK_SWSET.SET.read v ∧ only [F.INK_EVT.SW] s s t)

/-- The Innkeeper's halts, with the causes of R301: INK_FLT takes the cause, the PC and the count, INK_FLT_TS the time,
RUN and SOA are cleared, no register and no data word changes, and no transaction is left (R302). Cause 2 is a
program SRAM word that cannot be corrected, 4 an illegal instruction, 9 an instruction at 0x3FFF or a jump above it,
1 a failed check, 3 a data word that cannot be corrected, 5 and 6 a data and an endpoint address, 7 and 8 the call
stack; their order is the model's choice, log entry 53. In RUN the device enters RECOVER with PTR_RCV.INK (R403),
where no thermal shutdown is under way (log entry 29). -/
def Obligations.InkFaults : Prop :=
  ∀ (s : State) (e : InkEnv), s.ink.state = .running → s.ptr.dev = .start ∨ s.ptr.dev = .run ∨ s.ptr.dev = .recover →
    let halts := fun (i : Instr) (cause : Nat) => ∃ t, exec i s = .next t ∧ t.ink.state = .halted ∧
      t.get F.INK_FLT.CAUSE = cause ∧ t.get F.INK_FLT.PC = s.ink.pc.toNat ∧
      t.get F.INK_FLT.COUNT = min (s.get F.INK_FLT.COUNT + 1) (2 ^ F.INK_FLT.COUNT.w - 1) ∧
      t.reg A.INK_FLT_TSL = s.timeNow.extractLsb' 0 32 ∧ t.reg A.INK_FLT_TSH = s.timeNow.extractLsb' 32 32 ∧
      (s.ptr.dev = .run → t.get F.PTR_RCV.INK = 1 ∧ (s.thm.closing = false → t.ptr.dev = .recover)) ∧
      t.get F.INK_CTRL.RUN = 0 ∧ t.get F.INK_SAFE.SOA = 0 ∧ t.ink.pc = s.ink.pc ∧ t.ink.g = s.ink.g ∧
      t.ink.data = s.ink.data ∧ t.ink.out = []
    let fetched := e.fetch ≠ .uncorrectable
    let goes := fetched ∧ s.ink.pc ≠ 0x3FFF
    halts (.illegalInstruction e) (if e.fetch = .uncorrectable then 2 else 4) ∧
    (∀ (rd ra rb : BitVec 4) (imm : BitVec 18), let at' := s.g ra + imm.signExtend 32
      (e.fetch = .uncorrectable → halts (.add e rd ra rb) 2 ∧ halts (.lw e rd ra imm) 2 ∧ halts (.ret e) 2) ∧
      (fetched → s.ink.pc = 0x3FFF → halts (.add e rd ra rb) 9 ∧ halts (.addi e rd ra imm) 9 ∧ halts (.lw e rd ra imm) 9 ∧
        halts (.ste e rd ra imm) 9 ∧ halts (.wfe e rd ra) 9 ∧ halts (.xmod e rd ra rb) 9) ∧
      (goes → e.check = true → halts (.add e rd ra rb) 1 ∧ halts (.xor e rd ra rb) 1 ∧ halts (.addi e rd ra imm) 1 ∧
        halts (.lw e rd ra imm) 1) ∧
      (goes → e.check = false → at'.toNat % 4 ≠ 0 ∨ 0xFFFF < at'.toNat → halts (.lw e rd ra imm) 5 ∧
        halts (.sw e rd ra imm) 5) ∧
      (goes → e.check = false → 0xFFFF < at'.toNat → halts (.lb e rd ra imm) 5 ∧ halts (.sb e rd ra imm) 5) ∧
      (goes → e.check = false → at'.toNat % 4 = 0 → at'.toNat ≤ 0xFFFF →
        e.data = .uncorrectable ∨ at'.toNat / 4 ∈ s.ink.bad → halts (.lw e rd ra imm) 3) ∧
      (goes → e.check = false → 0x3FFF < at'.toNat ∨ isReserved at'.toNat = true → halts (.lde e rd ra imm) 6 ∧
        halts (.ste e rd ra imm) 6)) ∧
    (∀ (ra : BitVec 4) (off : BitVec 26), let goal := (s.ink.pc.toNat : Int) + off.toInt
      (fetched → goal < 0 ∨ 0x3FFF < goal → halts (.jal e off) 9 ∧ (s.ink.stack.length < 16 → halts (.call e off) 9)) ∧
      (fetched → 0x3FFF < (s.g ra).toNat → halts (.jr e ra) 9 ∧ (s.ink.stack.length < 16 → halts (.callr e ra) 9)) ∧
      (fetched → 16 ≤ s.ink.stack.length → halts (.call e off) 7 ∧ halts (.callr e ra) 7)) ∧
    (fetched → e.check = false → s.ink.stack = [] → halts (.ret e) 8)

/-- MEAS_TRIG_WRITE, CH_EN_WRITE, ARRAY_DISABLE, SNAP and CONV_FAIL_CLEAR: what they store, and what clearing ARRAY_EN
makes of the Traveller: a parked one stays parked, a release in progress ends parked, any other step is abandoned
with the factors of before the step, but for an offset check, whose channel has been handed back. It rests on
choices of the model besides: log entry 76. -/
def Obligations.ArrayWrites : Prop :=
  ∀ (s : State) (v : Word), s.rested → s.on 5 = true → s.trv.k < 24 →
    (∃ t, exec (.measTrigWrite v) s = .next t ∧ t.get F.MEAS_TRIG.PHASE = min 99 (F.MEAS_TRIG.PHASE.read v) ∧
      t.get F.MEAS_TRIG.SRC = F.MEAS_TRIG.SRC.read v ∧ only [F.MEAS_TRIG.PHASE, F.MEAS_TRIG.SRC] s s t) ∧
    (∃ t, exec (.chEnWrite v) s = .next t ∧ (∀ n, n < 25 → t.rbit A.MEAS_CH_EN n = v.getLsbD n) ∧
      ((s.rbit A.MEAS_CH_EN s.trv.k = true → v.getLsbD s.trv.k = true) → only [Fld.whole A.MEAS_CH_EN] s s t)) ∧
    (∃ t, exec .arrayDisable s = .next t ∧ t.get F.MEAS_CTRL.ARRAY_EN = 0 ∧
      t.meas = { s.meas with hist := List.replicate 24 [] } ∧
      (s.trv.step ∈ [TrvStep.parked, .fault] → only [F.MEAS_CTRL.ARRAY_EN] s { s with meas := t.meas } t) ∧
      (s.trv.step = .idle →
        only [F.MEAS_CTRL.ARRAY_EN] s { s with meas := t.meas, trv := { s.trv with next := none } } t) ∧
      (s.trv.step = .release → t.trv.step = .parked ∧ t.rbit A.MEAS_CONV_FAIL s.trv.k = true ∧
        t.get F.MEAS_EVT.CONV_FAIL = 1 ∧ t.get F.MEAS_STAT.TRV_STATE = 6 ∧ t.get F.MEAS_STAT.TRV_CH = s.trv.k) ∧
      (s.trv.step ∉ [TrvStep.idle, .parked, .fault, .release] → t.trv.step = .idle ∧ t.get F.MEAS_STAT.TRV_STATE = 0 ∧
        t.get F.MEAS_STAT.TRV_CH = 31 ∧
        (s.trv.step ≠ .offset → t.reg (A.MEAS_GAIN s.trv.k) = s.trv.savedGain ∧
          t.reg (A.MEAS_OFF s.trv.k) = s.trv.savedOff))) ∧
    (s.meas.snapArmed = false → ∃ t, exec .snap s = .next t ∧ t.get F.MEAS_SNAP.DONE = 0 ∧
      only [F.MEAS_SNAP.DONE] s { s with meas := { s.meas with snapArmed := true, snapLeft := 0 } } t) ∧
    (∃ t, exec (.convFailClear v) s = .next t ∧
      (∀ n, n < 24 → t.rbit A.MEAS_CONV_FAIL n = (s.rbit A.MEAS_CONV_FAIL n && !v.getLsbD n)) ∧
      only [Fld.whole A.MEAS_CONV_FAIL] s { s with trv := t.trv } t ∧
      t.trv = { s.trv with releaseWaits := s.trv.releaseWaits ||
        (s.trv.step == .parked && v.getLsbD s.trv.k && s.rbit A.MEAS_CONV_FAIL s.trv.k) })

/-- SAMPLE_TRIGGER at an instant of the grid takes MEAS_TRIG and the base in use, and starts the conversions: of each
enabled cell converter on its own cell, of CI, and of CT on the cell it is connected to; at any other instant a
trigger does nothing. CONVERSION_END ends its converter's conversion and gives a captured one its code; the pair
sample of an overlap goes no further. REF_ENABLE starts the settling, but does nothing while EN is 1; REF_SETTLED
sets REF_OK and its event; REF_DISABLE clears EN and REF_OK at once. It rests on choices of the model besides: log
entries 5 and 7. -/
def Obligations.ArrayTiming : Prop :=
  ∀ s : State, s.rested →
    (s.on 5 = true → s.bit F.MEAS_REF.EN = false → ∃ t, exec .refEnable s = .next t ∧ t.get F.MEAS_REF.EN = 1 ∧
      only [F.MEAS_REF.EN] s { s with meas := { s.meas with settling := true } } t) ∧
    (s.on 5 = true → s.bit F.MEAS_REF.EN = true → exec .refEnable s = .next s) ∧
    (s.on 5 = true → ∃ t, exec .refDisable s = .next t ∧ t.get F.MEAS_REF.EN = 0 ∧ t.get F.MEAS_STAT.REF_OK = 0 ∧
      only [F.MEAS_REF.EN, F.MEAS_STAT.REF_OK] s { s with meas := { s.meas with settling := false } } t) ∧
    (s.meas.settling = true → ∃ t, exec .refSettled s = .next t ∧ t.get F.MEAS_STAT.REF_OK = 1 ∧
      t.get F.MEAS_EVT.REF_OK = 1 ∧
      only [F.MEAS_EVT.REF_OK, F.MEAS_STAT.REF_OK] s { s with meas := { s.meas with settling := false } } t) ∧
    (∀ t0 : Time, s.bit F.MEAS_CTRL.ARRAY_EN = true → s.isTrigger t0 = true → s.timeMay t0 = true →
      (∀ l, s.meas.lastTrig = some l → l.toNat < t0.toNat ∨ s.ptr.time.toNat < l.toNat) → s.trv.step ≠ .takeover ∨ s.trv.released = false →
      ∃ t, exec (.sampleTrigger t0) s = .next t ∧ t.ptr.time = t0 ∧ t.meas.lastTrig = some t0 ∧
        t.meas.trigUse = s.reg A.MEAS_TRIG ∧ t.meas.baseUse = s.nextBase ∧
        let started := fun c => (t.meas.conv.getD c none).map fun x => (x.ch, x.conv, x.time)
        (∀ c, c < 24 → started c = if s.cellConverts c = true then some (c, c, t0) else none) ∧
        started 24 = (if s.ciConverts = true then some (24, 24, t0) else none) ∧
        started 25 = (if s.trvConverts = true then some (s.trv.k, 31, t0) else none)) ∧
    (∀ t0 : Time, s.isTrigger t0 = false → exec (.sampleTrigger t0) s = .next s) ∧
    (∀ (conv code : Nat) (r : Residue), s.meas.conv.getD (convSlot conv) none = none →
      exec (.conversionEnd conv code r) s = .next s) ∧
    (∀ (conv code : Nat) (r : Residue) (tag : RawTag), convSlot conv < 26 →
      s.meas.conv.getD (convSlot conv) none = some tag →
      ∃ t, exec (.conversionEnd conv code r) s = .next t ∧
        t.meas.conv = s.meas.conv.set (convSlot conv) none ∧
        (s.meas.snapLeft.getLsbD (convSlot conv) = true → t.reg (A.MEAS_RAW (convSlot conv)) = rawWord tag code ∧
          (t.meas.snapLeft = 0 → t.get F.MEAS_SNAP.DONE = 1 ∧ t.get F.MEAS_EVT.SNAP_DONE = 1)) ∧
        (tag.live = false → only [Fld.whole (A.MEAS_RAW (convSlot conv)), F.MEAS_SNAP.DONE, F.MEAS_EVT.SNAP_DONE] s
          { s with meas := { s.meas with conv := t.meas.conv, snapLeft := t.meas.snapLeft }, trv := t.trv } t))

/-- CAL_START, CAL_ACCEPT, the two phases' ends, HK_CAL and HK_CAL_DONE: a request in RUN or while a calibration runs is
refused; one whose conditions hold begins, ends the Traveller's step and waits for an injected conversion; one whose
conditions do not hold is held; the phases follow; and every factor measured in range is written, a factor out of
range marked. It rests on choices of the model besides: log entries 6 and 76. -/
def Obligations.ArrayCalibration : Prop :=
  ∀ s : State, s.rested → s.trv.k < 24 →
    let first := if s.meas.injWait = none ∧ s.meas.injRun = none then CalStep.offset else .hkWait
    let begun := fun (u t : State) => t.meas = { u.meas with cal := first, calCut := false } ∧ t.trv.next = none ∧
      (s.trv.step ∈ [TrvStep.idle, .parked, .fault] → t = { u with meas := t.meas, trv := { s.trv with next := none } }) ∧
      (s.trv.step ∉ [TrvStep.idle, .parked, .fault] → t.trv.step = .idle ∧ t.get F.MEAS_STAT.TRV_STATE = 0 ∧
        t.get F.MEAS_STAT.TRV_CH = 31)
    (s.on 5 = true → s.ptr.dev = .run ∨ s.calRuns = true →
      ∃ t, exec .calStart s = .next t ∧ t.get F.MEAS_EVT.CAL_REFUSED = 1 ∧ only [F.MEAS_EVT.CAL_REFUSED] s s t) ∧
    (s.on 5 = true → s.ptr.dev ≠ .run → s.calRuns = false →
      s.bit F.MEAS_STAT.REF_OK = false ∨ s.banks = false →
      ∃ t, exec .calStart s = .next t ∧ t.get F.MEAS_STAT.CAL_BUSY = 1 ∧
        only [F.MEAS_STAT.CAL_BUSY] s { s with meas := { s.meas with cal := .held } } t) ∧
    (s.on 5 = true → s.ptr.dev ≠ .run → s.calRuns = false → s.bit F.MEAS_STAT.REF_OK = true →
      s.banks = true → ∃ t, exec .calStart s = .next t ∧ t.get F.MEAS_STAT.CAL_BUSY = 1 ∧
        begun { s with regs := (s.put F.MEAS_STAT.CAL_BUSY 1).regs } t) ∧
    (s.meas.cal = .held → s.bit F.MEAS_STAT.REF_OK = true → s.banks = true →
      ∃ t, exec .calAccept s = .next t ∧ begun s t) ∧
    (s.meas.cal = .offset → exec .calOffsetPhaseEnd s = .next { s with meas := { s.meas with cal := .gain } }) ∧
    (∀ gains offs : List Int, s.meas.cal = .gain → ∃ t, exec (.calGainPhaseEnd gains offs) s = .next t ∧
      t.get F.MEAS_STAT.CAL_BUSY = 0 ∧ t.get F.MEAS_EVT.CAL_DONE = 1 ∧
      (∀ c, c < 27 → t.getS (F.MEAS_GAIN.GAIN c) =
        if inRange16 (gains.getD c 0) then gains.getD c 0 else s.getS (F.MEAS_GAIN.GAIN c)) ∧
      (∀ c, c < 27 → c ≠ 24 → t.getS (F.MEAS_OFF.OFF c) =
        if inRange16 (offs.getD c 0) then offs.getD c 0 else s.getS (F.MEAS_OFF.OFF c)) ∧
      (∀ c, c < 27 → t.rbit A.MEAS_CAL_ERR c = (s.rbit A.MEAS_CAL_ERR c || !inRange16 (gains.getD c 0) ||
        (c != 24 && !inRange16 (offs.getD c 0)))) ∧
      only ([Fld.whole A.MEAS_CAL_ERR, F.MEAS_STAT.CAL_BUSY, F.MEAS_EVT.CAL_DONE] ++
        (List.range 27).map F.MEAS_GAIN.GAIN ++ (List.range 27).map F.MEAS_OFF.OFF) s
        { s with meas := { s.meas with cal := .none } } t) ∧
    (s.on 5 = true → s.on 3 = true → s.meas.hkCal = .none → s.calRuns = false → s.underScan = false →
      s.meas.injWait = none → s.meas.injRun = none → ∃ t, exec .hkCal s = .next t ∧
        t.get F.MEAS_STAT.HK_CAL_BUSY = 1 ∧
        only [F.MEAS_STAT.HK_CAL_BUSY] s { s with meas := { s.meas with hkCal := .run } } t) ∧
    (s.on 5 = true → s.underScan = true → exec .hkCal s = .next s) ∧
    (∀ gain off : Int, s.meas.hkCal = .run → ∃ t, exec (.hkCalDone gain off) s = .next t ∧
      t.getS (F.MEAS_GAIN.GAIN 26) = (if inRange16 gain then gain else s.getS (F.MEAS_GAIN.GAIN 26)) ∧
      t.getS (F.MEAS_OFF.OFF 26) = (if inRange16 off then off else s.getS (F.MEAS_OFF.OFF 26)) ∧
      t.rbit A.MEAS_CAL_ERR 26 = (s.rbit A.MEAS_CAL_ERR 26 || !inRange16 gain || !inRange16 off) ∧
      t.get F.MEAS_STAT.HK_CAL_BUSY = 0 ∧ t.get F.MEAS_EVT.HK_CAL_DONE = 1 ∧
      only [F.MEAS_GAIN.GAIN 26, F.MEAS_OFF.OFF 26, F.MEAS_STAT.HK_CAL_BUSY, F.MEAS_EVT.HK_CAL_DONE,
        ⟨A.MEAS_CAL_ERR, 26, 1⟩] s { s with meas := { s.meas with hkCal := .none, hkWarm := 0 } } t)

/-- The Traveller: MEAS_TRV_CTRL as stored and the fault's end by MODE 0; a step's start at a boundary, in the rotation
and for a pin, and a pin's handback; the checks of the takeover and of the handback with what they report and count;
the first and the second calibration; the offset check; the start of a release and its check. It rests on choices of
the model besides: log entries 64 and 76. -/
def Obligations.ArrayTraveller : Prop :=
  ∀ s : State, s.rested → s.trv.k < 24 →
    let agrees := decide (-((s.trv.tol : Int) * 6400 * 2 ^ 20) ≤ s.trv.sum ∧ s.trv.sum ≤ (s.trv.tol : Int) * 6400 * 2 ^ 20)
    let shown := [F.MEAS_STAT.TRV_STATE, F.MEAS_STAT.TRV_CH]
    let found := [F.MEAS_TRV_STAT.LAST_DIFF, F.MEAS_TRV_STAT.LAST_K, F.MEAS_TRV_STAT.CONSEC]
    let stored := fun (v : Word) (t : State) =>
      t.get F.MEAS_TRV_CTRL.MODE = (if F.MEAS_TRV_CTRL.MODE.read v = 3 then s.get F.MEAS_TRV_CTRL.MODE else
        F.MEAS_TRV_CTRL.MODE.read v) ∧ t.get F.MEAS_TRV_CTRL.PIN_CH = min 23 (F.MEAS_TRV_CTRL.PIN_CH.read v) ∧
      t.get F.MEAS_TRV_CTRL.FIRST = min 23 (F.MEAS_TRV_CTRL.FIRST.read v) ∧
      t.get F.MEAS_TRV_CTRL.LAST = min 23 (F.MEAS_TRV_CTRL.LAST.read v)
    let taken := fun (k : Nat) => ∃ t, exec .trvStepBoundary s = .next t ∧ t.trv.step = .takeover ∧ t.trv.k = k ∧
      t.trv.tol = s.get F.MEAS_TRV_TOL.TOL ∧ t.trv.savedGain = s.reg (A.MEAS_GAIN k) ∧ t.trv.savedOff = s.reg (A.MEAS_OFF k) ∧
      t.get F.MEAS_STAT.TRV_STATE = 1 ∧ t.get F.MEAS_STAT.TRV_CH = 31 ∧ only shown s { s with trv := t.trv } t
    let parks := fun (t : State) => t.trv.step = .parked ∧ t.rbit A.MEAS_CONV_FAIL s.trv.k = true ∧
      t.get F.MEAS_EVT.CONV_FAIL = 1 ∧ t.get F.MEAS_STAT.TRV_STATE = 6 ∧ t.get F.MEAS_STAT.TRV_CH = s.trv.k
    (∀ v : Word, s.on 5 = true → s.trv.step ≠ .fault → ∃ t, exec (.trvCtrlWrite v) s = .next t ∧ stored v t ∧
      only [Fld.whole A.MEAS_TRV_CTRL] s s t) ∧
    (∀ v : Word, s.on 5 = true → s.trv.step = .fault → F.MEAS_TRV_CTRL.MODE.read v = 0 →
      ∃ t, exec (.trvCtrlWrite v) s = .next t ∧ stored v t ∧ t.trv.step = .idle ∧
        t.get F.MEAS_TRV_STAT.CONSEC = 0 ∧ t.get F.MEAS_STAT.TRV_STATE = 0) ∧
    (∀ k, s.trvMay = true → s.trv.step = .idle → s.get F.MEAS_TRV_CTRL.MODE = 1 → s.trvPick = some k → taken k) ∧
    (∀ k, s.trvMay = true → s.trv.step = .idle → s.get F.MEAS_TRV_CTRL.MODE = 2 → s.trvPin = some k →
      s.rbit A.MEAS_CH_EN k = true → s.rbit A.MEAS_CONV_FAIL k = false → taken k) ∧
    (s.trvMay = true → s.trv.step = .pinned →
      let keeps := s.get F.MEAS_TRV_CTRL.MODE = 2 ∧
        s.get F.MEAS_TRV_CTRL.PIN_CH = F.MEAS_TRV_CTRL.PIN_CH.read s.trv.ctrl ∧ s.trvPin = some s.trv.k
      (keeps → exec .trvStepBoundary s = .next s) ∧
      (¬ keeps → ∃ t, exec .trvStepBoundary s = .next t ∧ t.trv.step = .handback ∧ t.trv.k = s.trv.k ∧
        t.get F.MEAS_STAT.TRV_STATE = 3 ∧ t.get F.MEAS_STAT.TRV_CH = s.trv.k ∧ only shown s { s with trv := t.trv } t)) ∧
    (s.trv.step = .takeover → s.trv.released = false → s.trv.pairs = 64 →
      ∃ t, exec .trvTakeoverCheck s = .next t ∧ t.getS F.MEAS_TRV_STAT.LAST_DIFF = trvDiff s.trv.sum ∧
        t.get F.MEAS_TRV_STAT.LAST_K = s.trv.k ∧
        only (shown ++ found ++ [Fld.whole A.MEAS_TRV_CNT, Fld.whole A.MEAS_EVT]) s { s with trv := t.trv } t ∧
        (agrees = true → t.trv.step = .hold ∧ t.get F.MEAS_TRV_STAT.CONSEC = 0 ∧ t.get F.MEAS_STAT.TRV_CH = s.trv.k ∧
          t.get F.MEAS_TRV_CNT.TAKEOVERS = (s.get F.MEAS_TRV_CNT.TAKEOVERS + 1) % 2 ^ F.MEAS_TRV_CNT.TAKEOVERS.w) ∧
        (agrees = false → t.get F.MEAS_EVT.TRV_MISMATCH = 1 ∧
          t.get F.MEAS_TRV_CNT.MISMATCHES = (s.get F.MEAS_TRV_CNT.MISMATCHES + 1) % 2 ^ F.MEAS_TRV_CNT.MISMATCHES.w ∧
          (s.get F.MEAS_TRV_STAT.CONSEC < 2 → t.trv.step = .idle ∧
            t.get F.MEAS_TRV_STAT.CONSEC = s.get F.MEAS_TRV_STAT.CONSEC + 1) ∧
          (s.get F.MEAS_TRV_STAT.CONSEC = 2 → t.trv.step = .fault ∧ t.get F.MEAS_EVT.TRV_FAULT = 1))) ∧
    (∀ gain off : Int, (s.trv.step = .hold ∧ s.trv.released = false) ∨ s.trv.step = .secondCal →
      ∃ t, exec (.trvCalEnd gain off) s = .next t ∧
      t.getS (F.MEAS_GAIN.GAIN s.trv.k) = (if inRange16 gain then gain else s.getS (F.MEAS_GAIN.GAIN s.trv.k)) ∧
      t.getS (F.MEAS_OFF.OFF s.trv.k) = (if inRange16 off then off else s.getS (F.MEAS_OFF.OFF s.trv.k)) ∧
      t.rbit A.MEAS_CAL_ERR s.trv.k = (s.rbit A.MEAS_CAL_ERR s.trv.k || !inRange16 gain || !inRange16 off) ∧
      t.trv.step = (if s.trv.step = .secondCal then .secondHandback
        else if F.MEAS_TRV_CTRL.MODE.read s.trv.ctrl = 2 then .pinned else .handback) ∧
      only (shown ++ [F.MEAS_GAIN.GAIN s.trv.k, F.MEAS_OFF.OFF s.trv.k, ⟨A.MEAS_CAL_ERR, s.trv.k, 1⟩]) s
        { s with trv := t.trv } t) ∧
    (s.trv.step ∈ [TrvStep.handback, .secondHandback, .release] → s.trv.pairs = 64 →
      ∃ t, exec .trvHandbackCheck s = .next t ∧ t.getS F.MEAS_TRV_STAT.LAST_DIFF = trvDiff s.trv.sum ∧
        t.get F.MEAS_TRV_STAT.LAST_K = s.trv.k ∧
        (agrees = true → t.trv.step = .offset ∧ only (shown ++ found) s { s with trv := t.trv } t) ∧
        (agrees = false → t.get F.MEAS_TRV_CNT.MISMATCHES =
            (s.get F.MEAS_TRV_CNT.MISMATCHES + 1) % 2 ^ F.MEAS_TRV_CNT.MISMATCHES.w ∧
          (s.trv.step = .handback → t.trv.step = .secondCal ∧
            only (shown ++ found ++ [F.MEAS_TRV_CNT.MISMATCHES]) s { s with trv := t.trv } t) ∧
          (s.trv.step = .secondHandback → parks t ∧ t.reg (A.MEAS_GAIN s.trv.k) = s.trv.savedGain ∧
            t.reg (A.MEAS_OFF s.trv.k) = s.trv.savedOff) ∧
          (s.trv.step = .release → parks t))) ∧
    (∀ off : Int, s.trv.step = .offset → ∃ t, exec (.trvOffsetCheckEnd off) s = .next t ∧
      (inRange16 off = true → t.getS (F.MEAS_OFF.OFF 25) = off ∧ t.trv.step = .idle ∧
        only (shown ++ [F.MEAS_OFF.OFF 25]) s { s with trv := t.trv } t) ∧
      (inRange16 off = false → t.rbit A.MEAS_CAL_ERR 25 = true ∧ t.get F.MEAS_EVT.TRV_FAULT = 1 ∧ t.trv.step = .fault)) ∧
    (s.trv.step = .parked → s.trv.releaseWaits = true → s.converts = true → s.banks = true →
      ∃ t, exec .parkReleaseStart s = .next t ∧ t.trv.releaseWaits = false ∧ t.trv.k = s.trv.k ∧
        only shown s { s with trv := t.trv } t ∧
        (s.rbit A.MEAS_CH_EN s.trv.k = true → t.trv.step = .release ∧ t.trv.pairs = 0 ∧
          t.get F.MEAS_STAT.TRV_STATE = 3 ∧ t.get F.MEAS_STAT.TRV_CH = s.trv.k) ∧
        (s.rbit A.MEAS_CH_EN s.trv.k = false → t.trv.step = .offset ∧ t.get F.MEAS_STAT.TRV_CH = 31))

/-- Housekeeping: a round starts with its channels in ascending order, one that falls due in another waits; an entry's
end stores its result and goes on to the next entry or ends the round; an injected request waits and is answered in
MEAS_HK_INJR, a second one meets INJ_BUSY; HK_EN cleared ends the round with the entry in conversion, or at once
while the scan is held. It rests on choices of the model besides: log entry 76. -/
def Obligations.ArrayHousekeeping : Prop :=
  ∀ s : State, s.rested →
    (s.bit F.MEAS_CTRL.HK_EN = true → s.on 3 = true → s.meas.round = none →
      (∃ n, n < 16 ∧ s.rbit A.MEAS_HK_MASK n = true) → ∃ t, exec .hkRoundStart s = .next t ∧
        t.meas.round = some ((List.range 16).filter fun n => s.rbit A.MEAS_HK_MASK n) ∧
        t.get F.MEAS_STAT.HK_ABORT = 0 ∧ only [F.MEAS_STAT.HK_ABORT] s { s with meas := t.meas } t) ∧
    (s.bit F.MEAS_CTRL.HK_EN = true → s.on 3 = true → s.meas.round.isSome →
      exec .hkRoundStart s = .next { s with meas := { s.meas with roundDue := true } }) ∧
    (∀ (value ch : Nat), s.on 3 = true → s.meas.injRun = some ch → ch < 16 → value < 65536 →
      ∃ t, exec (.hkEntryEnd value) s = .next t ∧ t.get (F.MEAS_HK.VALUE ch) = value ∧
        t.get F.MEAS_HK_INJR.VALUE = value ∧ t.reg A.MEAS_HK_INJR = t.reg (A.MEAS_HK ch) ∧
        t.get F.MEAS_EVT.INJ_DONE = 1 ∧ t.get F.MEAS_STAT.INJ_PEND = 0 ∧ t.meas.injRun = none) ∧
    (∀ (value ch : Nat) (rest : List Nat), s.on 3 = true → s.meas.injRun = none → s.hkHeld = false →
      s.meas.round = some (ch :: rest) → ch < 16 → value < 65536 →
      ∃ t, exec (.hkEntryEnd value) s = .next t ∧ t.get (F.MEAS_HK.VALUE ch) = value ∧
        (rest ≠ [] → s.meas.roundEnds = false → t.meas.round = some rest) ∧
        (rest = [] ∨ s.meas.roundEnds = true → t.get F.MEAS_EVT.ROUND_DONE = 1 ∧
          (s.meas.roundDue = false → t.meas.round = none ∧
            (s.meas.roundEnds = true → t.get F.MEAS_STAT.HK_ABORT = 1)))) ∧
    (∀ v : Word, s.on 5 = true → F.MEAS_HK_INJ.GO.read v = 1 → s.meas.injWait = none → s.meas.injRun = none →
      ∃ t, exec (.hkInject v) s = .next t ∧ t.get F.MEAS_STAT.INJ_PEND = 1 ∧
        t.get F.MEAS_HK_INJ.CH = F.MEAS_HK_INJ.CH.read v ∧
        only [F.MEAS_STAT.INJ_PEND, F.MEAS_HK_INJ.CH] s
          { s with meas := { s.meas with injWait := some (F.MEAS_HK_INJ.CH.read v) } } t) ∧
    (∀ v : Word, s.on 5 = true → F.MEAS_HK_INJ.GO.read v = 1 → s.meas.injWait.isSome ∨ s.meas.injRun.isSome →
      ∃ t, exec (.hkInject v) s = .next t ∧ t.get F.MEAS_EVT.INJ_BUSY = 1 ∧ only [F.MEAS_EVT.INJ_BUSY] s s t) ∧
    (s.on 5 = true → s.meas.round = none → ∃ t, exec .hkDisable s = .next t ∧ t.get F.MEAS_CTRL.HK_EN = 0 ∧
      only [F.MEAS_CTRL.HK_EN] s s t) ∧
    (s.on 5 = true → s.hkHeld = false → s.meas.round.isSome → ∃ t, exec .hkDisable s = .next t ∧
      t.get F.MEAS_CTRL.HK_EN = 0 ∧
      only [F.MEAS_CTRL.HK_EN] s { s with meas := { s.meas with roundEnds := true, roundDue := false } } t) ∧
    (s.on 5 = true → s.hkHeld = true → s.meas.round.isSome → ∃ t, exec .hkDisable s = .next t ∧
      t.get F.MEAS_CTRL.HK_EN = 0 ∧ t.get F.MEAS_EVT.ROUND_DONE = 1 ∧ t.get F.MEAS_STAT.HK_ABORT = 1 ∧
      t.meas.round = none ∧ only [F.MEAS_CTRL.HK_EN, F.MEAS_EVT.ROUND_DONE, F.MEAS_STAT.HK_ABORT] s
        { s with meas := t.meas } t)

/-- The open-wire test: one that meets another, or a stopped array, ends at once, as does one of no pin; one with pins
begins its first pass, of the even-numbered pins where it has any; the sinks go on and off; a pass's end judges its
pins by the fall of their neighbours' means and begins the pass of the odd-numbered pins or ends the test. It rests
on choices of the model besides: log entries 64 and 76. -/
def Obligations.ArrayOpenWire : Prop :=
  ∀ s : State, s.rested →
    (∀ v : Word, s.on 5 = true → F.MEAS_OW_CTRL.GO.read v = 1 → s.owRuns = true ∨ s.bit F.MEAS_CTRL.ARRAY_EN = false →
      ∃ t, exec (.owStart v) s = .next t ∧ t.get F.MEAS_EVT.OW_DONE = 1 ∧ only [F.MEAS_EVT.OW_DONE] s s t) ∧
    (∀ v : Word, s.on 5 = true → F.MEAS_OW_CTRL.GO.read v = 1 → s.owRuns = false → s.bit F.MEAS_CTRL.ARRAY_EN = true →
      F.MEAS_OW_CTRL.PINS.read v = 0 → ∃ t, exec (.owStart v) s = .next t ∧ t.get F.MEAS_EVT.OW_DONE = 1 ∧
        t.get F.MEAS_STAT.OW_BUSY = 0 ∧ t.get F.MEAS_OW_CTRL.PINS = 0 ∧ t.reg A.MEAS_OW_RES = 0 ∧ t.ow.step = .none ∧
        only [F.MEAS_EVT.OW_DONE, F.MEAS_STAT.OW_BUSY, F.MEAS_OW_CTRL.PINS, Fld.whole A.MEAS_OW_RES] s
          { s with ow := t.ow } t) ∧
    (∀ v : Word, s.on 5 = true → F.MEAS_OW_CTRL.GO.read v = 1 → s.owRuns = false → s.bit F.MEAS_CTRL.ARRAY_EN = true →
      F.MEAS_OW_CTRL.PINS.read v ≠ 0 → ∃ t, exec (.owStart v) s = .next t ∧ t.get F.MEAS_STAT.OW_BUSY = 1 ∧
        t.get F.MEAS_OW_CTRL.PINS = F.MEAS_OW_CTRL.PINS.read v ∧ t.ow.step = .before ∧
        t.ow.sel = BitVec.ofNat 25 (F.MEAS_OW_CTRL.PINS.read v) ∧
        t.ow.odd = decide (BitVec.ofNat 25 (F.MEAS_OW_CTRL.PINS.read v) &&& 0x1555555 = 0) ∧
        t.ow.pins = pinsOf t.ow.sel t.ow.odd ∧ t.ow.thr = s.get F.MEAS_OW_CFG.THR) ∧
    (s.ow.step = .before → exec .owSinksOn s = .next { s with ow := { s.ow with
      step := .sinks, ref := s.meas.hist, refLive := true, tagged := s.ow.pins } }) ∧
    (s.ow.step = .sinks → exec .owSinksOff s = .next { s with ow := { s.ow with
      step := .after, test := s.meas.hist, testLive := true } }) ∧
    (s.ow.step = .after → ∃ t, exec .owPassEnd s = .next t ∧
      let judged := fun n => s.ow.opens.getLsbD n || (s.ow.pins.getLsbD n &&
        (s.pinMoves n).any fun d => decide ((20 * s.ow.thr : Int) < d))
      (∀ n, n < 25 → t.ow.opens.getLsbD n = judged n) ∧
      (s.ow.odd = false → s.ow.sel &&& 0x0AAAAAA ≠ 0 → t.ow.step = .before ∧ t.ow.odd = true ∧
        t.ow.pins = s.ow.sel &&& 0x0AAAAAA ∧ t.get F.MEAS_STAT.OW_BUSY = s.get F.MEAS_STAT.OW_BUSY) ∧
      (s.ow.odd = true ∨ s.ow.sel &&& 0x0AAAAAA = 0 → t.ow.step = .none ∧ t.get F.MEAS_STAT.OW_BUSY = 0 ∧
        t.get F.MEAS_EVT.OW_DONE = 1 ∧ (∀ n, n < 25 → t.rbit A.MEAS_OW_RES n = judged n) ∧
        ((∃ n, n < 25 ∧ judged n = true) → t.get F.MEAS_EVT.OW_OPEN = 1)))

/-- Writes of the datapath's own registers: a mask or another slot configuration is refused while its slot is enabled; a
slot that is enabled with a mask it may not have is refused and stays off, one with a good mask is enabled with its
NEFF and opens in RUN; a slot that is disabled closes; SDP_CFG refuses a reserved rate and another rate while EN is
1, stores EN and RATE otherwise, and cleared closes every stream; SDP_CH_EN stores its mask, and the slots that
carry a channel it clears are disabled and closed. -/
def Obligations.DatapathWrites : Prop :=
  ∀ (s : State) (n : Nat) (v : Word), s.rested → s.on 5 = true → n < 24 →
    let src := (F.SDP_SCFG.SRC n).read v
    let nsets := nsetsStored ((F.SDP_SCFG.NSETS n).read v)
    let en := (F.SDP_SCFG.EN n).read v = 1
    let chosen := [F.SDP_SCFG.SRC n, F.SDP_SCFG.NSETS n]
    (s.bit (F.SDP_SCFG.EN n) = false → ∃ t, exec (.smaskWrite n v) s = .next t ∧
      t.get (F.SDP_SMASK.MASK n) = (F.SDP_SMASK.MASK n).read v ∧ only [F.SDP_SMASK.MASK n] s s t) ∧
    (s.bit (F.SDP_SCFG.EN n) = true → ∃ t, exec (.smaskWrite n v) s = .next t ∧ t.get F.SDP_EVT.CFG_REFUSED = 1 ∧
      only [F.SDP_EVT.CFG_REFUSED] s s t) ∧
    (2 ≤ src → ∃ t, exec (.scfgWrite n v) s = .next t ∧ t.get F.SDP_EVT.CFG_REFUSED = 1 ∧
      only [F.SDP_EVT.CFG_REFUSED] s s t) ∧
    (src < 2 → s.bit (F.SDP_SCFG.EN n) = false → ¬ en → ∃ t, exec (.scfgWrite n v) s = .next t ∧
      t.get (F.SDP_SCFG.SRC n) = src ∧ t.get (F.SDP_SCFG.NSETS n) = nsets ∧ only chosen s s t) ∧
    (src < 2 → s.bit (F.SDP_SCFG.EN n) = false → en → s.streamBad n src = true →
      ∃ t, exec (.scfgWrite n v) s = .next t ∧ t.get F.SDP_EVT.STRM_REFUSED = 1 ∧ t.get (F.SDP_SCFG.EN n) = 0 ∧
        only (F.SDP_EVT.STRM_REFUSED :: chosen) s s t) ∧
    (src < 2 → s.bit (F.SDP_SCFG.EN n) = false → en → s.streamBad n src = false →
      ∃ t, exec (.scfgWrite n v) s = .next t ∧ t.get (F.SDP_SCFG.EN n) = 1 ∧
        t.get (F.SDP_SCFG.NEFF n) = (if src = 1 then 15 else min nsets (120 / (s.streamMask n).length)) ∧
        (s.ptr.dev = .run → s.sdpRuns = true → t.get (F.SDP_SCFG.OPEN n) = 1) ∧
        only [Fld.whole (A.SDP_SCFG n)] s { s with sdp := t.sdp } t) ∧
    (src < 2 → s.bit (F.SDP_SCFG.EN n) = true → en → ∃ t, exec (.scfgWrite n v) s = .next t ∧
      (src ≠ s.get (F.SDP_SCFG.SRC n) ∨ nsets ≠ s.get (F.SDP_SCFG.NSETS n) →
        t.get F.SDP_EVT.CFG_REFUSED = 1 ∧ only [F.SDP_EVT.CFG_REFUSED] s s t) ∧
      (src = s.get (F.SDP_SCFG.SRC n) → nsets = s.get (F.SDP_SCFG.NSETS n) → t = s)) ∧
    (src < 2 → s.bit (F.SDP_SCFG.EN n) = true → ¬ en → ∃ t, exec (.scfgWrite n v) s = .next t ∧
      t.get (F.SDP_SCFG.EN n) = 0 ∧ t.get (F.SDP_SCFG.OPEN n) = 0 ∧
      (s.bit (F.SDP_SCFG.OPEN n) = true → t.get F.SDP_EVT.STRM_END = 1)) ∧
    (6 ≤ F.SDP_CFG.RATE.read v ∨ (s.bit F.SDP_CFG.EN = true ∧ F.SDP_CFG.RATE.read v ≠ s.get F.SDP_CFG.RATE) → ∃ t, exec (.sdpCfgWrite v) s = .next t ∧ t.get F.SDP_EVT.CFG_REFUSED = 1 ∧
      only [F.SDP_EVT.CFG_REFUSED] s s t) ∧
    (F.SDP_CFG.RATE.read v < 6 → s.bit F.SDP_CFG.EN = false → ∃ t, exec (.sdpCfgWrite v) s = .next t ∧
      t.get F.SDP_CFG.RATE = F.SDP_CFG.RATE.read v ∧ t.get F.SDP_CFG.EN = F.SDP_CFG.EN.read v ∧
      (F.SDP_CFG.EN.read v = 0 → only [F.SDP_CFG.RATE] s s t)) ∧
    (F.SDP_CFG.RATE.read v = s.get F.SDP_CFG.RATE → s.get F.SDP_CFG.RATE < 6 → s.bit F.SDP_CFG.EN = true →
      F.SDP_CFG.EN.read v = 0 → ∃ t, exec (.sdpCfgWrite v) s = .next t ∧ t.get F.SDP_CFG.EN = 0 ∧
        t.get F.SDP_CFG.RATE = s.get F.SDP_CFG.RATE ∧ ∀ k, k < 24 → t.get (F.SDP_SCFG.OPEN k) = 0) ∧
    (∃ t, exec (.sdpChEnWrite v) s = .next t ∧ t.reg A.SDP_CH_EN = v &&& 0x01FFFFFF ∧
      ∀ k, k < 24 →
        let hit := s.get (F.SDP_SCFG.SRC k) = 0 ∧ ∃ c, c < 25 ∧ s.chanOn c = true ∧ v.getLsbD c = false ∧
          s.rbit (A.SDP_SMASK k) c = true
        (hit → t.get (F.SDP_SCFG.EN k) = 0 ∧ t.get (F.SDP_SCFG.OPEN k) = if s.bit (F.SDP_SCFG.EN k) then 0 else
          s.get (F.SDP_SCFG.OPEN k)) ∧
        (¬ hit → t.get (F.SDP_SCFG.EN k) = s.get (F.SDP_SCFG.EN k)))

/-- SET_WRITE at an instant for which every enabled channel's run holds the whole span gives one output per enabled
channel: each valid output that no exclusion bars is added to its accumulator; in RUN the result registers and
SET_TS take the set. At an instant of the grid without such a set, where the staged set has an uncorrectable error,
or while the datapath does not run, no result is written. RES_READ marks a result read; ACC_SNAP stores the
exclusions, and with SNAP freezes the accumulators, and clears them where CLR says so. It rests on choices of the
model besides: log entries 5, 7 and 77. -/
def Obligations.DatapathSets : Prop :=
  ∀ s : State, s.rested → s.sdp.ch.length = 25 →
    (∀ o : SetObs, s.sdpRuns = false → exec (.setWrite o) s = .next s) ∧
    (∀ (ts : Time) (e : Ecc) (r : Nat → Run), e ≠ .uncorrectable → s.sdpRuns = true → s.enabledChans ≠ [] → s.sdp.lastInst.toNat < ts.toNat →
      (∀ n ∈ s.enabledChans, s.chanRun n ts = some (r n)) →
      let out := fun n => outSample (s.get F.SDP_CFG.RATE) ts n (r n)
      ∃ t, exec (.setWrite ⟨ts, e⟩) s = .next t ∧ t.sdp.lastSet = ts ∧ t.sdp.lastInst = ts ∧
        (∀ n ∈ s.enabledChans, ∀ v, (out n).val = some v → s.excluded (out n) = false → (s.chan n).count < accFull →
          (t.chan n).sum = (s.chan n).sum + v ∧ (t.chan n).count = (s.chan n).count + 1) ∧
        (∀ n ∈ s.enabledChans, (out n).val = none ∨ s.excluded (out n) = true →
          (t.chan n).sum = (s.chan n).sum ∧ (t.chan n).count = (s.chan n).count) ∧
        (s.ptr.dev = .run → t.get F.SDP_EVT.SET = 1 ∧ (t.reg A.SDP_SET_TSH ++ t.reg A.SDP_SET_TSL : BitVec 64) = ts ∧
          ∀ n ∈ s.enabledChans, t.reg (A.SDP_RES n) = resWord (out n) ((s.chan n).written && !(s.chan n).read)) ∧
        (s.ptr.dev ≠ .run → t.reg A.SDP_SET_TSL = s.reg A.SDP_SET_TSL ∧ ∀ n, n < 25 →
          t.reg (A.SDP_RES n) = s.reg (A.SDP_RES n))) ∧
    (∀ (ts : Time) (e : Ecc), s.sdpRuns = true → s.sdp.lastInst.toNat < ts.toNat →
      (s.onGrid ts (ratePeriod (s.get F.SDP_CFG.RATE)) = true ∧ (∀ n ∈ s.enabledChans, s.spanOver n ts = true) ∧
        ∃ n ∈ s.enabledChans, s.chanRun n ts = none) ∨
      (e = .uncorrectable ∧ s.enabledChans ≠ [] ∧ ∀ n ∈ s.enabledChans, s.chanRun n ts ≠ none) →
      ∃ t, exec (.setWrite ⟨ts, e⟩) s = .next t ∧ t.sdp.lastSet = s.sdp.lastSet ∧ t.sdp.lastInst = ts ∧
        t.reg A.SDP_SET_TSL = s.reg A.SDP_SET_TSL ∧ ∀ n, n < 25 → t.reg (A.SDP_RES n) = s.reg (A.SDP_RES n) ∧
          (t.chan n).sum = (s.chan n).sum ∧ (t.chan n).count = (s.chan n).count) ∧
    (∀ (p : Path) (n : Nat), s.on 5 = true → n < 25 → ∃ t, exec (.resRead p n) s = .next t ∧ (t.chan n).read = true ∧
      t = { s with sdp := { s.sdp with ch := s.sdp.ch.set n { s.chan n with read := true } } }) ∧
    (∀ v : Word, s.on 5 = true → F.SDP_ACC_CTRL.SNAP.read v = 0 → ∃ t, exec (.accSnap v) s = .next t ∧
      wrote s t A.SDP_ACC_CTRL v ∧ only [Fld.whole A.SDP_ACC_CTRL] s s t) ∧
    (∀ v : Word, s.on 5 = true → F.SDP_ACC_CTRL.SNAP.read v = 1 → ∃ t, exec (.accSnap v) s = .next t ∧
      t.get F.SDP_ACC_CTRL.DONE = 1 ∧ t.get F.SDP_EVT.ACC_DONE = 1 ∧
      (t.reg A.SDP_ACC_TSH ++ t.reg A.SDP_ACC_TSL : BitVec 64) = s.sdp.lastSet ∧
      ∀ n, n < 25 → (t.reg (A.SDP_ACCH n) ++ t.reg (A.SDP_ACCL n) : BitVec 64).toNat = unsign 56 (s.chan n).sum ∧
        t.reg (A.SDP_ACNT n) = Word.ofNat (s.chan n).count ∧
        t.get (F.SDP_MIN.VALID n) = (if (s.chan n).count = 0 then 0 else 1) ∧
        ((s.chan n).count ≠ 0 → t.get (F.SDP_MIN.VALUE n) = unsign 24 (s.chan n).least ∧
          t.get (F.SDP_MAX.VALUE n) = unsign 24 (s.chan n).most) ∧
        (t.chan n).count = (if F.SDP_ACC_CTRL.CLR.read v = 1 then 0 else (s.chan n).count))

/-- Writes of the impedance engine's registers: what each stores where it may, and that a refused one sets CFG_REFUSED
and stores nothing of what is refused; clearing an enable discards the windows that depend on it; a fallback that
starts to run withholds the balancing switches. It rests on choices of the model besides: log entry 61. -/
def Obligations.ImpedanceWrites : Prop :=
  ∀ (s : State) (n c : Nat) (v : Word), s.rested → s.on 5 = true → n < 6 → c < 160 →
    let refused := fun (i : Instr) =>
      ∃ t, exec i s = .next t ∧ t.get F.IMP_EVT.CFG_REFUSED = 1 ∧ only [F.IMP_EVT.CFG_REFUSED] s s t
    let h := max 1 ((F.IMP_TONE.H n).read v)
    let amp := min 128 ((F.IMP_TONE.AMP n).read v)
    let tone := [F.IMP_TONE.H n, F.IMP_TONE.AMP n]
    (s.bit F.IMP_CTRL.EN = false → F.IMP_CTRL.EXC.read v = 3 ∨
      (F.IMP_CTRL.EN.read v = 1 ∧ F.IMP_CTRL.EXC.read v = 1 ∧ s.get F.IMP_RSHUNT.RSH = 0) →
      refused (.impCtrlWrite v)) ∧
    (s.bit F.IMP_CTRL.EN = false → F.IMP_CTRL.EXC.read v ≠ 3 →
      (F.IMP_CTRL.EN.read v = 1 → F.IMP_CTRL.EXC.read v = 1 → s.get F.IMP_RSHUNT.RSH ≠ 0) →
      ∃ t, exec (.impCtrlWrite v) s = .next t ∧ t.get F.IMP_CTRL.EN = F.IMP_CTRL.EN.read v ∧
        t.get F.IMP_CTRL.EXC = F.IMP_CTRL.EXC.read v ∧ (s.bit F.IMP_FB_CTRL.EN = false →
          s.bit F.BAL_STAT.HELD = s.owRuns → only [F.IMP_CTRL.EN, F.IMP_CTRL.EXC] s s t)) ∧
    (s.bit F.IMP_CTRL.EN = true → F.IMP_CTRL.EN.read v = 1 → ∃ t, exec (.impCtrlWrite v) s = .next t ∧
      (F.IMP_CTRL.EXC.read v ≠ s.get F.IMP_CTRL.EXC → t.get F.IMP_EVT.CFG_REFUSED = 1) ∧
      (F.IMP_CTRL.EXC.read v = s.get F.IMP_CTRL.EXC → t = s) ∧ only [F.IMP_EVT.CFG_REFUSED] s s t) ∧
    (s.bit F.IMP_CTRL.EN = true → F.IMP_CTRL.EN.read v = 0 → ∃ t, exec (.impCtrlWrite v) s = .next t ∧
      t.get F.IMP_CTRL.EN = 0 ∧ t.get F.IMP_STAT.FB_BUSY = 0 ∧ ∀ k, k < 160 → (t.ctx k).integ = none) ∧
    (s.bit (F.IMP_TONE.EN n) = true → (F.IMP_TONE.EN n).read v = 1 → refused (.toneWrite n v)) ∧
    (s.bit (F.IMP_TONE.EN n) = false → (F.IMP_TONE.EN n).read v = 0 ∨ s.toneBad n h amp = false →
      ∃ t, exec (.toneWrite n v) s = .next t ∧ t.get (F.IMP_TONE.H n) = h ∧ t.get (F.IMP_TONE.AMP n) = amp ∧
        t.get (F.IMP_TONE.EN n) = (F.IMP_TONE.EN n).read v ∧ only (F.IMP_TONE.EN n :: tone) s s t) ∧
    (s.bit (F.IMP_TONE.EN n) = false → (F.IMP_TONE.EN n).read v = 1 → s.toneBad n h amp = true →
      ∃ t, exec (.toneWrite n v) s = .next t ∧ t.get (F.IMP_TONE.EN n) = 0 ∧ t.get F.IMP_EVT.CFG_REFUSED = 1 ∧
        only (F.IMP_EVT.CFG_REFUSED :: tone) s s t) ∧
    (s.bit (F.IMP_TONE.EN n) = true → (F.IMP_TONE.EN n).read v = 0 → ∃ t, exec (.toneWrite n v) s = .next t ∧
      t.get (F.IMP_TONE.EN n) = 0 ∧ ∀ k cfg, k < 160 → (s.ctx k).integ = some cfg → (F.IMP_CTX_CFG.TONE k).read cfg = n →
        (t.ctx k).integ = none ∧ t.get (F.IMP_CTX_STAT.CAUSE k) = 2 ∧ t.reg (A.IMP_CTX_ZRE k) = invalidWord) ∧
    (s.bit (F.IMP_TONE.EN n) = true → refused (.twinWrite n v)) ∧
    (s.bit (F.IMP_TONE.EN n) = false → ∃ t, exec (.twinWrite n v) s = .next t ∧
      t.get (F.IMP_TWIN.NPER n) = max 1 ((F.IMP_TWIN.NPER n).read v) ∧
      t.get (F.IMP_TWIN.SKIP n) = (F.IMP_TWIN.SKIP n).read v ∧ t.get (F.IMP_TWIN.PH n) = (F.IMP_TWIN.PH n).read v ∧
      only [F.IMP_TWIN.NPER n, F.IMP_TWIN.SKIP n, F.IMP_TWIN.PH n] s s t) ∧
    (s.ctxBad c v = true → refused (.ctxCfgWrite c v)) ∧
    (s.ctxBad c v = false → (F.IMP_CTX_CFG.EN c).read v = 0 → s.imp.ctx.length = 160 → (s.ctx c).integ.isSome →
      ∃ t, exec (.ctxCfgWrite c v) s = .next t ∧ t.get (F.IMP_CTX_CFG.EN c) = 0 ∧ (t.ctx c).integ = none ∧
        t.get (F.IMP_CTX_STAT.CAUSE c) = 1 ∧ t.reg (A.IMP_CTX_ZRE c) = invalidWord ∧
        t.reg (A.IMP_CTX_ZIM c) = invalidWord ∧ t.get F.IMP_EVT.ABORT = 1) ∧
    (s.ctxBad c v = false → (F.IMP_CTX_CFG.EN c).read v = 1 ∨ ((s.ctx c).integ = none ∧ (s.ctx c).ready = none) →
      ∃ t, exec (.ctxCfgWrite c v) s = .next t ∧ t.reg (A.IMP_CTX_CFG c) &&& 0xFEFF001F = v &&& 0xFEFF001F ∧
        only [Fld.whole (A.IMP_CTX_CFG c)] s s t) ∧
    (s.bit F.IMP_FB_CTRL.EN = true → F.IMP_FB_CTRL.EN.read v = 1 → refused (.fbCtrlWrite v)) ∧
    (s.bit F.IMP_FB_CTRL.EN = false → F.IMP_FB_CTRL.EN.read v = 0 ∨ s.fbBad = false →
      ∃ t, exec (.fbCtrlWrite v) s = .next t ∧ t.get F.IMP_FB_CTRL.EN = F.IMP_FB_CTRL.EN.read v ∧
        t.get F.IMP_FB_CTRL.CELL = min 23 (F.IMP_FB_CTRL.CELL.read v) ∧
        t.get F.IMP_FB_CTRL.SKIP = F.IMP_FB_CTRL.SKIP.read v ∧
        t.get F.IMP_FB_CTRL.NPER = max 1 (F.IMP_FB_CTRL.NPER.read v) ∧
        (F.IMP_FB_CTRL.EN.read v = 0 → only [Fld.whole A.IMP_FB_CTRL] s s t) ∧
        (F.IMP_FB_CTRL.EN.read v = 1 → s.impActive = true → s.bit F.BAL_STAT.HELD = false →
          t.get F.BAL_STAT.HELD = 1 ∧ t.get F.BAL_EVT.HELD = 1 ∧ t.get F.BAL_STAT.ON = 0 ∧ t.bal.inSlot = false)) ∧
    (s.bit F.IMP_FB_CTRL.EN = false → F.IMP_FB_CTRL.EN.read v = 1 → s.fbBad = true →
      ∃ t, exec (.fbCtrlWrite v) s = .next t ∧ t.get F.IMP_EVT.CFG_REFUSED = 1 ∧ t.get F.IMP_FB_CTRL.EN = 0 ∧
        only [F.IMP_EVT.CFG_REFUSED, Fld.whole A.IMP_FB_CTRL] s s t) ∧
    (s.bit F.IMP_FB_CTRL.EN = true → F.IMP_FB_CTRL.EN.read v = 0 → ∃ t, exec (.fbCtrlWrite v) s = .next t ∧
      t.get F.IMP_FB_CTRL.EN = 0 ∧ t.get F.IMP_STAT.FB_BUSY = 0 ∧ t.imp.fb.closed = false ∧ t.imp.fb.tone.run = none)

/-- The impedance engine's windows and results: a fundamental boundary starts an enabled tone's excitation and, without
SKIP, its window in every context enabled on it that has none in flight; an ended window whose samples have all come
has its result written from its sums as the rules of its KIND give it, and one with a residue mismatch is invalid
with CAUSE 10; one whose staging has an uncorrectable error is discarded; the fallback toggles BLn at its half
periods and writes its result from its sums once its samples have all come; a block of records that is due leaves
nothing held. It rests on choices of the model besides: log entries 5, 6, 7, 61 and 78. -/
def Obligations.ImpedanceResults : Prop :=
  ∀ s : State, s.rested →
    (∀ t0 : Time, s.bit F.IMP_CTRL.EN = true → s.onGrid t0 s.fundTicks = true → s.timeMay t0 = true →
      ∃ t, exec (.fundamentalBoundary t0) s = .next t ∧ t.ptr.time = t0 ∧ t.imp.boundary = t0 ∧
        ∀ k, k < 6 → s.imp.tones.length = 6 → s.imp.ctx.length = 160 → s.excOk = true → s.sdpRuns = true →
          s.bit (F.IMP_TONE.EN k) = true → s.toneOn k = false → s.get (F.IMP_TWIN.SKIP k) = 0 →
          t.toneOn k = true ∧ t.get F.IMP_STAT.EXC_ON = 1 ∧ t.tone k = ⟨none, some 0, false⟩ ∧
          ∀ c, c < 160 → s.bit (F.IMP_CTX_CFG.EN c) = true → s.get (F.IMP_CTX_CFG.TONE c) = k →
            (s.ctx c).integ = none → (t.ctx c).integ = some (s.reg (A.IMP_CTX_CFG c))) ∧
    (∀ t0 : Time, s.bit F.IMP_CTRL.EN = false → exec (.fundamentalBoundary t0) s = .next s) ∧
    (∀ (c : Nat) (re im : Bool) (o : ResultObs), (s.ctx c).ready = none →
      exec (.impResultWrite c re im o) s = .next s) ∧
    (∀ (c : Nat) (r : WinReady), c < 160 → (s.ctx c).ready = some r → r.needs c ≤ r.acc.got → r.seen.residue = false →
      let kind := (F.IMP_CTX_CFG.KIND c).read r.cfg
      let rsh : Int := s.get F.IMP_RSHUNT.RSH
      let n : Int := r.periods * r.acc.l
      let p := pathResponse r.acc.l r.acc.h
      let writes := fun (re im : Bool) (o : ResultObs) (x y : Word) (cause : Nat) =>
        ∃ t, exec (.impResultWrite c re im o) s = .next t ∧
        t.reg (A.IMP_CTX_ZRE c) = x ∧ t.reg (A.IMP_CTX_ZIM c) = y ∧
        t.get (F.IMP_CTX_STAT.SEQ c) = (s.get (F.IMP_CTX_STAT.SEQ c) + 1) % 16 ∧
        t.get (F.IMP_CTX_STAT.CAUSE c) = cause ∧ t.get (F.IMP_CTX_STAT.NDONE c) = r.periods % 4096 ∧
        t.rbit (A.IMP_NEW (c / 32)) (c % 32) = true ∧ t.get F.IMP_EVT.RESULT = 1 ∧ (t.ctx c).ready = none
      let gives := fun (a b c d num den : Int) => 0 < (c * c + d * d) * den → ∀ o : ResultObs, o.bad = false →
        o.acc ≠ .uncorrectable → o.stage ≠ .uncorrectable →
        let part := fun (v : Int) =>
          BitVec.ofInt 32 (clamp (-2147483647) 2147483647 (roundDiv (v * num) ((c * c + d * d) * den)))
        writes false false o (part (a * c + b * d)) (part (b * c - a * d)) 0
      (∀ (re im : Bool) (o : ResultObs), (re || im || o.bad || o.acc == .uncorrectable) = true →
        o.stage ≠ .uncorrectable → kind ≠ 0 → writes re im o invalidWord invalidWord 10) ∧
      (∀ (re im : Bool) (o : ResultObs), o.stage = .uncorrectable → kind ≠ 0 →
        ∃ t, exec (.impResultWrite c re im o) s = .next t ∧ (t.ctx c).ready = none ∧
          t.reg (A.IMP_CTX_ZRE c) = s.reg (A.IMP_CTX_ZRE c) ∧ t.reg (A.IMP_CTX_ZIM c) = s.reg (A.IMP_CTX_ZIM c) ∧
          t.get (F.IMP_CTX_STAT.SEQ c) = s.get (F.IMP_CTX_STAT.SEQ c) ∧ t.get F.STO_EVT.SRAM_UNCOR = 1) ∧
      (kind = 2 → gives r.acc.re r.acc.im p.1 p.2 2 (16 * n)) ∧
      (kind = 1 → gives r.acc.re r.acc.im p.1 p.2 2000000 (16 * n * rsh)) ∧
      (∀ (rc : Nat) (q : RefResult), kind = 0 → rc = (F.IMP_CTX_CFG.REF c).read r.cfg → (s.ctx rc).ready = none →
        (s.ctx rc).ref = some q → q.w = r.w → q.cause = 0 → gives r.acc.re r.acc.im q.re q.im (-rsh) 1000)) ∧
    (s.fbRuns = true → s.bit F.IMP_STAT.FB_BUSY = true → s.imp.fb.withheld = false →
      exec .fbSwitch s = .next { s with imp := { s.imp with fb := { s.imp.fb with closed := !s.imp.fb.closed } } }) ∧
    (∀ (re im : Bool) (o : ResultObs), (∀ r, s.imp.fb.ready = some r → r.fbLacks = true) →
      exec (.fbResultWrite re im o) s = .next s) ∧
    (∀ (r : WinReady) (re im : Bool) (o : ResultObs), s.imp.fb.ready = some r → r.fbLacks = false →
      (re || im || o.bad || o.acc == .uncorrectable) = true → o.stage ≠ .uncorrectable →
      ∃ t, exec (.fbResultWrite re im o) s = .next t ∧ t.imp.fb.ready = none ∧ t.reg A.IMP_FB_ZRE = invalidWord ∧
        t.reg A.IMP_FB_ZIM = invalidWord ∧ t.get F.IMP_FB_STAT.CAUSE = 10 ∧
        t.get F.IMP_RCNT.MISMATCH = (s.get F.IMP_RCNT.MISMATCH + 1) % 2 ^ F.IMP_RCNT.MISMATCH.w) ∧
    (∀ (r : WinReady) (o : ResultObs), s.imp.fb.ready = some r → r.fbLacks = false → r.seen.residue = false →
      0 < r.acc.sum → o.bad = false → o.acc ≠ .uncorrectable → o.stage ≠ .uncorrectable →
      let part := fun (v : Int) => BitVec.ofInt 32 (clamp (-2147483647) 2147483647
        (roundDiv (v * piNum * s.get F.IMP_FB_RBAL.RBAL * 1000) (r.acc.sum * fixOne * piDen)))
      ∃ t, exec (.fbResultWrite false false o) s = .next t ∧ t.imp.fb.ready = none ∧
        t.reg A.IMP_FB_ZRE = part r.acc.im ∧ t.reg A.IMP_FB_ZIM = part (-r.acc.re) ∧
        t.get F.IMP_FB_STAT.SEQ = (s.get F.IMP_FB_STAT.SEQ + 1) % 16 ∧ t.get F.IMP_FB_STAT.CAUSE = 0 ∧
        t.get F.IMP_EVT.FB_DONE = 1) ∧
    (∀ n : Nat, ∃ t, exec (.impBlockTimeout n) s = .next t ∧ (t.stream n).records = [])

/-- The phase controller's starts and stops: an enable with a missing setting is refused, one with its settings begins a
soft start with the lowest-indexed available phases, or waits for the input where it is low; a disable lets each
active phase complete its cycle, or ends everything at once where none switches; a restart clears THROWS and starts
a latched controller; the start check, with VSET as it was at the start, throws, lets the ramp go on, or ends the
start; a hiccup's end starts again; continuous regulation clears THROWS. It rests on choices of the model besides:
log entries 5, 16, 62, 78 and 79. -/
def Obligations.PhaseStarts : Prop :=
  ∀ s : State, s.rested → s.phc.phases.length = 6 →
    let begun := fun (t : State) (phEn failed : Nat) =>
      let avail := (List.range 6).filter fun x => phEn.testBit x && !failed.testBit x
      t.get F.PHC_STAT.STATE = 1 ∧ t.get F.PHC_STAT.PHEN = 1 ∧ t.get F.PHC_STAT.N_AVAIL = avail.length ∧
        t.get F.PHC_STAT.N_ACT ≤ avail.length ∧ t.phAct = avail.take (t.get F.PHC_STAT.N_ACT) ∧
        min avail.length s.shedLo ≤ t.get F.PHC_STAT.N_ACT ∧
        (s.bit F.PHC_SHED.PIN = true → t.get F.PHC_STAT.N_ACT = min avail.length s.shedPin) ∧ t.phc.checked = false
    let failed := s.get F.PHC_FAIL.SENSE ||| s.get F.PHC_FAIL.OPEN
    let usable := fun (phEn : Nat) => ∃ x, x < 6 ∧ phEn.testBit x = true ∧ failed.testBit x = false
    (∀ v : Word, s.on 5 = true → s.bit F.PHC_CTRL.EN = false → s.phcBad (F.PHC_CTRL.PH_EN.read v) = true →
      ∃ t, exec (.phcEnable v) s = .next t ∧ t.get F.PHC_EVT.CFG_REFUSED = 1 ∧ t.get F.PHC_CTRL.EN = 0 ∧
        t.get F.PHC_CTRL.PH_EN = F.PHC_CTRL.PH_EN.read v ∧ t.get F.PHC_STAT.THROWS = 0 ∧
        only [F.PHC_EVT.CFG_REFUSED, F.PHC_CTRL.PH_EN, F.PHC_STAT.N_AVAIL, F.PHC_STAT.THROWS] s s t) ∧
    (∀ v : Word, s.on 5 = true → s.bit F.PHC_CTRL.EN = false → s.phcBad (F.PHC_CTRL.PH_EN.read v) = false →
      s.phcState = 0 → s.phcPowered = true → usable (F.PHC_CTRL.PH_EN.read v) →
      ∃ t, exec (.phcEnable v) s = .next t ∧ t.get F.PHC_CTRL.EN = 1 ∧
        t.get F.PHC_CTRL.PH_EN = F.PHC_CTRL.PH_EN.read v ∧ t.get F.PHC_STAT.THROWS = 0 ∧
        (s.phc.vinLow = false → begun t (F.PHC_CTRL.PH_EN.read v) failed) ∧
        (s.phc.vinLow = true → t.get F.PHC_STAT.STATE = 5 ∧ t.get F.PHC_EVT.VIN_LOW = 1)) ∧
    (∀ v : Word, s.on 5 = true → s.bit F.PHC_CTRL.EN = true → s.phcState ≠ 4 →
      ∃ t, exec (.phcEnable v) s = .next t ∧ t.get F.PHC_STAT.THROWS = 0 ∧
        (F.PHC_CTRL.PH_EN.read v ≠ s.get F.PHC_CTRL.PH_EN → t.get F.PHC_EVT.CFG_REFUSED = 1) ∧
        only [F.PHC_EVT.CFG_REFUSED, F.PHC_STAT.THROWS] s s t) ∧
    (∀ v : Word, s.on 5 = true → s.bit F.PHC_CTRL.EN = true → ∃ t, exec (.phcDisable v) s = .next t ∧
      t.get F.PHC_CTRL.EN = 0 ∧
      (s.phcSwitching = true → s.bit F.PHC_STAT.BUS_OV = false → s.phAct ≠ [] → t.phc.stopping = true ∧
        (∀ x ∈ s.phAct, (t.phase x).leaving = true) ∧ t.phAct = s.phAct ∧ t.get F.PHC_STAT.PHEN = s.get F.PHC_STAT.PHEN) ∧
      (s.phc.stopping = false → s.phcSwitching = false ∨ s.bit F.PHC_STAT.BUS_OV = true → t.get F.PHC_STAT.STATE = 0 ∧
        (s.phcState ≠ 0 → t.get F.PHC_STAT.PHEN = 0 ∧ t.get F.PHC_STAT.ACT = 0 ∧ t.get F.PHC_STAT.N_ACT = 0))) ∧
    (s.on 5 = true → s.phcState ≠ 4 → ∃ t, exec .phcRestart s = .next t ∧ t.get F.PHC_STAT.THROWS = 0 ∧
      only [F.PHC_STAT.THROWS] s s t) ∧
    (s.on 5 = true → s.phcState = 4 → s.bit F.PHC_CTRL.EN = true → s.phcPowered = true → s.phc.vinLow = false →
      usable (s.get F.PHC_CTRL.PH_EN) →
      ∃ t, exec .phcRestart s = .next t ∧ t.get F.PHC_STAT.THROWS = 0 ∧ begun t (s.get F.PHC_CTRL.PH_EN) failed) ∧
    (∀ o : StartObs, s.phcState ≠ 1 ∨ s.phc.stopping = true → exec (.startCheck o) s = .next s) ∧
    (∀ o : StartObs, s.phcState = 1 → s.phc.stopping = false → s.phc.checked = false →
      (o.vout : Int) * 5000 * s.vtarget.2 ≤ s.vtarget.1 → s.get F.PHC_STAT.THROWS ≠ s.get F.PHC_SS.THROWS_MAX →
      ∃ t, exec (.startCheck o) s = .next t ∧
        t.get F.PHC_STAT.STATE = 3 ∧ t.get F.PHC_EVT.HICCUP = 1 ∧
        t.get F.PHC_STAT.THROWS = (s.get F.PHC_STAT.THROWS + 1) % 8 ∧ t.get F.PHC_STAT.ACT = 0) ∧
    (∀ o : StartObs, s.phcState = 1 → s.phc.stopping = false →
      s.phc.checked = true ∨ s.vtarget.1 < (o.vout : Int) * 5000 * s.vtarget.2 →
      let ref0 := 5 * o.vStart - s.phc.vsetS
      let u := { s with phc := { s.phc with vout := o.vout, ref0 := ref0 } }
      let there := s.phc.checked = true ∨ s.vtarget.1 ≤ ((ref0 + 50 * s.get F.PHC_VSET.VSET : Nat) : Int) * 200 * s.vtarget.2
      (there → ∃ t, exec (.startCheck o) s = .next t ∧ t.get F.PHC_STAT.STATE = 2 ∧
        t.get F.PHC_EVT.REGULATING = 1 ∧ only [F.PHC_STAT.STATE, F.PHC_EVT.REGULATING] s u t) ∧
      (¬ there → exec (.startCheck o) s = .next { u with phc := { u.phc with checked := true } })) ∧
    (s.phcState ≠ 3 → exec .hiccupEnd s = .next s) ∧
    (s.phcState = 3 → s.bit F.PHC_CTRL.EN = true → s.phcPowered = true → s.phc.vinLow = false →
      usable (s.get F.PHC_CTRL.PH_EN) → ∃ t, exec .hiccupEnd s = .next t ∧ begun t (s.get F.PHC_CTRL.PH_EN) failed) ∧
    (s.phcRegulates = true → ∃ t, exec .throwsClear s = .next t ∧ t.get F.PHC_STAT.THROWS = 0 ∧
      only [F.PHC_STAT.THROWS] s s t)

/-- The phase controller's protection: a trim long at a bound sets its event; a collapse throws, or latches where the
throws are used up; the input's fall stops the controller and its return starts it; a high bus holds the switches; a
phase that loses its sense line or is open leaves, marked and captured; four cycles of the fast limit force a trim
and, on every phase, add one; and the first fault is captured with its cause. It rests on choices of the model
besides: log entries 6, 15, 62 and 79. -/
def Obligations.PhaseProtection : Prop :=
  ∀ (s : State) (x : Nat), s.rested → s.phc.phases.length = 6 →
    (16 ≤ (s.phase x).boundRun → ∃ t, exec (.trimSat x) s = .next t ∧ t.get F.PHC_EVT.TRIM_SAT = 1 ∧
      only [F.PHC_EVT.TRIM_SAT] s s t) ∧
    (s.phcRegulates = true → s.get F.PHC_STAT.THROWS ≠ s.get F.PHC_SS.THROWS_MAX →
      ∃ t, exec .outputCollapse s = .next t ∧ t.get F.PHC_STAT.STATE = 3 ∧ t.get F.PHC_EVT.HICCUP = 1 ∧
        t.get F.PHC_STAT.THROWS = (s.get F.PHC_STAT.THROWS + 1) % 8 ∧ t.get F.PHC_STAT.ACT = 0 ∧
        t.get F.PHC_STAT.PHEN = 0 ∧
        (s.get F.PHC_STAT.THROWS = 0 → s.bit F.PHC_FLT.PEND = false → t.get F.PHC_FLT.CAUSE = 3 ∧
          t.get F.PHC_FLT.PHASE = 15 ∧ t.bit F.PHC_FLT.PEND = true ∧ t.led.q11.isSome)) ∧
    (s.phcRegulates = true → s.get F.PHC_STAT.THROWS = s.get F.PHC_SS.THROWS_MAX →
      ∃ t, exec .outputCollapse s = .next t ∧ t.get F.PHC_STAT.STATE = 4 ∧ t.get F.PHC_EVT.LATCHED = 1 ∧
        t.get F.PHC_FLT.CAUSE = 6 ∧ t.get F.PHC_STAT.ACT = 0) ∧
    (s.on 9 = true → s.phcSwitching = true ∨ (s.phcState = 3 ∧ s.phc.stopping = false) →
      ∃ t, exec .inputLow s = .next t ∧ t.get F.PHC_STAT.STATE = 5 ∧
        t.get F.PHC_STAT.VIN_OK = 0 ∧ t.get F.PHC_EVT.VIN_LOW = 1 ∧ t.get F.PHC_STAT.ACT = 0 ∧ t.phc.vinLow = true) ∧
    (s.on 9 = true → s.phcSwitching = false → s.phc.stopping = false → s.phcState ≠ 3 →
      ∃ t, exec .inputLow s = .next t ∧ t.get F.PHC_STAT.VIN_OK = 0 ∧ t.get F.PHC_EVT.VIN_LOW = 1 ∧
        only [F.PHC_STAT.VIN_OK, F.PHC_EVT.VIN_LOW] s { s with phc := { s.phc with vinLow := true } } t) ∧
    (s.phcState ≠ 5 → ∃ t, exec .inputRecover s = .next t ∧ t.get F.PHC_STAT.VIN_OK = 1 ∧
      only [F.PHC_STAT.VIN_OK] s { s with phc := { s.phc with vinLow := false } } t) ∧
    (s.phcState = 5 → s.bit F.PHC_CTRL.EN = true → s.phcPowered = true →
      (∃ y, y < 6 ∧ (s.get F.PHC_CTRL.PH_EN).testBit y = true ∧
        (s.get F.PHC_FAIL.SENSE ||| s.get F.PHC_FAIL.OPEN).testBit y = false) →
      ∃ t, exec .inputRecover s = .next t ∧ t.get F.PHC_STAT.VIN_OK = 1 ∧ t.get F.PHC_STAT.STATE = 1) ∧
    (s.phcRegulates = true → ∃ t, exec .busOv s = .next t ∧ t.get F.PHC_STAT.BUS_OV = 1 ∧ t.get F.PHC_EVT.BUS_OV = 1 ∧
      only [F.PHC_STAT.BUS_OV, F.PHC_EVT.BUS_OV] s
        { s with phc := { s.phc with filt := s.filtNow, offAt := some s.ptr.time } } t) ∧
    (s.phcRegulates = false → exec .busOv s = .next s) ∧
    (s.bit F.PHC_STAT.BUS_OV = true → ∃ t, exec .busOvRelease s = .next t ∧ t.get F.PHC_STAT.BUS_OV = 0 ∧
      t.phc.filt = s.filtNow ∧ t.phc.offAt = none ∧ (∀ y ∈ s.phAct, (t.phase y).exc = s.excSum) ∧
      only [F.PHC_STAT.BUS_OV] s { s with phc := { s.phc with filt := s.filtNow, offAt := none, phases := t.phc.phases } } t) ∧
    (s.bit F.PHC_STAT.BUS_OV = false → exec .busOvRelease s = .next s) ∧
    (s.on 9 = true → x ∈ s.phEn → s.rbit A.PHC_FAIL (8 + x) = false → s.phc.stopping = false →
      (∃ y ∈ s.phAvail, y ≠ x) → ∃ t, exec (.senseLoss x) s = .next t ∧
      t.rbit A.PHC_FAIL (8 + x) = true ∧ t.get F.PHC_EVT.PHASE_FAIL = 1 ∧ x ∉ t.phAct ∧ x ∉ t.phAvail ∧
      (s.bit F.PHC_FLT.PEND = false → t.get F.PHC_FLT.CAUSE = 5 ∧ t.get F.PHC_FLT.PHASE = x ∧ t.get F.PHC_FLT.SUPP = 0 ∧
        t.led.q11.isSome) ∧
      (s.bit F.PHC_FLT.PEND = true → t.get F.PHC_FLT.SUPP = min (s.get F.PHC_FLT.SUPP + 1) 255)) ∧
    (s.phcSwitching = true → x ∈ s.phAct → s.openNeeds ≤ (s.phase x).openRun → (∃ y ∈ s.phAvail, y ≠ x) →
      ∃ t, exec (.openPhase x) s = .next t ∧ t.rbit A.PHC_FAIL x = true ∧ t.get F.PHC_EVT.PHASE_FAIL = 1 ∧
        x ∉ t.phAct ∧ x ∉ t.phAvail ∧ (s.bit F.PHC_FLT.PEND = false → t.get F.PHC_FLT.CAUSE = 4 ∧
          t.get F.PHC_FLT.PHASE = x)) ∧
    (s.phcSwitching = true → x ∈ s.phAct → 4 ≤ (s.phase x).scRun → (s.phase x).forced = false →
      (∃ y ∈ s.phAct, (s.phase y).scAdd < 4) → ∃ t, exec (.scOverride x) s = .next t ∧
        t.trim x = max (-64) (s.trim x - 1) ∧ (t.phase x).forced = true ∧
        only [F.PHC_TRIM.APPLIED x, F.PHC_OVR.TRIM, F.PHC_EVT.OVR] s
          { s with phc := { s.phc with phases := t.phc.phases } } t) ∧
    (s.phcSwitching = true → x ∈ s.phAct → 4 ≤ (s.phase x).scRun → (∀ y ∈ s.phAct, 4 ≤ (s.phase y).scAdd) →
      s.get F.PHC_STAT.N_ACT < s.phAvail.length → ∃ t, exec (.scOverride x) s = .next t ∧
        t.get F.PHC_STAT.N_ACT = s.get F.PHC_STAT.N_ACT + 1 ∧ t.phAct = s.phAvail.take (s.get F.PHC_STAT.N_ACT + 1) ∧
        t.get F.PHC_EVT.SHED = 1 ∧
        (s.shedHi < s.get F.PHC_STAT.N_ACT + 1 → t.get F.PHC_OVR.SHED = 1 ∧ t.get F.PHC_EVT.OVR = 1))

/-- A switching cycle of an active phase: its mean sense voltage, its on-time and its run of fast-limit cycles are kept,
and the fast limit's action is counted; the cycle of the lowest-indexed active phase moves the overload filter by
its exponential and reports V_OUT. The last cycle of a phase that has left completes, and with the last one a
disabled controller is off. A cycle of any other phase, with D9 off, or while the bus voltage holds the switches,
does nothing. It rests on choices of the model besides: log entries 5, 15, 73, 78 and 79. -/
def Obligations.PhaseCycles : Prop :=
  ∀ (s : State) (o : PhcObs), s.rested → s.phc.phases.length = 6 →
    let sense := clamp (-200000) 200000 o.sense
    let counted := fun (t : State) => t.phc.vout = o.vout ∧
      t.get F.PHC_SCCNT.COUNT = (s.get F.PHC_SCCNT.COUNT + o.sc.isSome.toNat) % 2 ^ 32 ∧
      (o.sc.isSome → t.get F.PHC_EVT.SC_ACT = 1)
    (s.on 9 = false ∨ s.bit F.PHC_STAT.BUS_OV = true ∨
      ((s.phase o.x).leaving = false ∧ (s.phcSwitching = false ∨ o.x ∉ s.phAct)) →
      exec (.switchingCycle o) s = .next s) ∧
    (s.on 9 = true → s.bit F.PHC_STAT.BUS_OV = false → (s.phase o.x).leaving = true →
      ∃ t, exec (.switchingCycle o) s = .next t ∧ (t.phase o.x).leaving = false ∧ counted t ∧
        (s.phc.stopping = true → s.bit F.PHC_CTRL.EN = false → (∀ y, y ≠ o.x → (s.phase y).leaving = false) →
          t.get F.PHC_STAT.STATE = 0 ∧ t.get F.PHC_STAT.PHEN = 0 ∧ t.get F.PHC_STAT.ACT = 0 ∧ t.phc.stopping = false)) ∧
    (s.phcSwitching = true → s.on 9 = true → s.bit F.PHC_STAT.BUS_OV = false → (s.phase o.x).leaving = false →
      o.x ∈ s.phAct →
      ∃ t, exec (.switchingCycle o) s = .next t ∧ counted t ∧ t.get F.PHC_STAT.VIN_OK = o.vin.toNat ∧
        (s.phAct.headD 6 ≠ o.x → (t.phase o.x).now = sense ∧ (t.phase o.x).onNs = s.onTime o ∧
          (t.phase o.x).scRun = (if o.sc.isSome then (s.phase o.x).scRun + 1 else 0) ∧ t.phc.cycles = s.phc.cycles) ∧
        (s.phAct.headD 6 = o.x → t.phc.cycles = s.phc.cycles + 1 ∧
          t.get F.PHC_VOUT.VOUT = o.vout % 2 ^ F.PHC_VOUT.VOUT.w ∧
          let iout := sense + ((phases.filter (· != o.x)).map fun y => (s.phase y).now).sum
          let goal := iout * 100 * 2 ^ 40 / s.rsDiv
          t.phc.filt = goal + (s.phc.filt - goal) *
            expNeg 1 (10 * s.get F.PHC_FSW.FSW * s.get F.PHC_OLIM.TAU) / fixOne))

/-- Balancing: a slot closes only requested cells without a fault, no two neighbours and no more than MAXON, and defers
the other requested ones; a pause slot is counted and closes none, nor does one while the switches are withheld; one
that begins in another ends that first; a slot's end counts down the cells it balanced; an overcurrent opens its
switch for good; clearing EN opens all. It rests on choices of the model besides: log entries 5 and 7. -/
def Obligations.BalanceSlots : Prop :=
  ∀ s : State, s.rested →
    (∀ t0 : Time, s.on 5 = true → ((t0.toNat : Int) - s.base.toNat) % 1000000 = 0 → s.timeMay t0 = true →
      s.bal.inSlot = false →
      let p := s.get F.THM_STAT.LEVEL
      let pause := pauseSlot (((t0.toNat : Int) - s.base.toNat) / 1000000 % 8).toNat p
      ∃ t, exec (.slotStart t0) s = .next t ∧ t.ptr.time = t0 ∧ t.bal.inSlot = true ∧ t.bal.start = t0 ∧
        t.get F.BAL_STAT.LEVEL = p ∧ t.bit F.BAL_STAT.PAUSE = pause ∧
        (pause = true → s.balActive = true →
          t.get F.BAL_SLOTS.PAUSED = (s.get F.BAL_SLOTS.PAUSED + 1) % 65536 ∧ t.get F.BAL_STAT.ON = s.get F.BAL_STAT.ON) ∧
        (pause = false → s.fbRuns = true ∨ s.owRuns = true → t.get F.BAL_STAT.ON = s.get F.BAL_STAT.ON ∧
          t.get F.BAL_SLOTS.RUN = s.get F.BAL_SLOTS.RUN) ∧
        (pause = false → s.balActive = true → s.fbRuns = false → s.owRuns = false →
          (∀ n, n < 24 → (t.get F.BAL_STAT.ON).testBit n = true →
            s.rbit A.BAL_REQ n = true ∧ s.rbit A.BAL_FAULT n = false ∧
            (s.bit F.BAL_CTRL.COUNTED = true → s.get (F.BAL_CNT.SLOTS n) ≠ 0) ∧
            (t.get F.BAL_STAT.ON).testBit (n + 1) = false) ∧
          (cells.filter fun n => (t.get F.BAL_STAT.ON).testBit n).length ≤ s.get F.BAL_CTRL.MAXON ∧
          (∀ n ∈ s.balReq, ((t.get F.BAL_STAT.ON).testBit n) = !t.rbit A.BAL_DEF n) ∧
          t.get F.BAL_SLOTS.RUN = (s.get F.BAL_SLOTS.RUN + if t.get F.BAL_STAT.ON = 0 then 0 else 1) % 65536)) ∧
    (∀ t0 : Time, s.on 5 = true → ((t0.toNat : Int) - s.base.toNat) % 1000000 = 0 → s.timeMay t0 = true →
      s.bal.inSlot = true → ∃ u, exec .slotEnd s = .next u ∧ exec (.slotStart t0) s = exec (.slotStart t0) u) ∧
    (∀ t0 : Time, s.on 5 = false ∨ ((t0.toNat : Int) - s.base.toNat) % 1000000 ≠ 0 ∨ s.timeMay t0 = false →
      exec (.slotStart t0) s = .next s) ∧
    (s.bal.inSlot = false → exec .slotEnd s = .next s) ∧
    (s.bal.inSlot = true → ∃ t, exec .slotEnd s = .next t ∧ t.get F.BAL_STAT.ON = 0 ∧ t.bal.inSlot = false ∧
      ∀ n, n < 24 →
        let runs := s.bal.counted = true ∧ (s.get F.BAL_STAT.ON).testBit n = true
        (runs → t.get (F.BAL_CNT.SLOTS n) = s.get (F.BAL_CNT.SLOTS n) - 1 ∧ (s.get (F.BAL_CNT.SLOTS n) ≤ 1 →
          t.rbit A.BAL_REQ n = false ∧ t.rbit A.BAL_DONE n = true ∧ t.get F.BAL_EVT.CELL_DONE = 1)) ∧
        (¬ runs → t.get (F.BAL_CNT.SLOTS n) = s.get (F.BAL_CNT.SLOTS n) ∧ t.rbit A.BAL_REQ n = s.rbit A.BAL_REQ n ∧
          t.rbit A.BAL_DONE n = s.rbit A.BAL_DONE n)) ∧
    (∀ n, n < 24 → s.blClosed n = false → exec (.switchOvercurrent n) s = .next s) ∧
    (∀ n, n < 24 → s.blClosed n = true → ∃ t, exec (.switchOvercurrent n) s = .next t ∧ t.blClosed n = false ∧
      t.rbit A.BAL_FAULT n = true ∧ t.get F.BAL_EVT.SW_FAULT = 1 ∧
      only [⟨A.BAL_FAULT, n, 1⟩, ⟨A.BAL_STAT, n, 1⟩, F.BAL_EVT.SW_FAULT] s { s with imp := t.imp } t) ∧
    (∀ v : Word, s.on 5 = true → ∃ t, exec (.balCtrlWrite v) s = .next t ∧
      t.get F.BAL_CTRL.EN = F.BAL_CTRL.EN.read v ∧ t.get F.BAL_CTRL.COUNTED = F.BAL_CTRL.COUNTED.read v ∧
      t.get F.BAL_CTRL.MAXON = min 12 (max 1 (F.BAL_CTRL.MAXON.read v)) ∧
      (s.bit F.BAL_CTRL.EN = true → F.BAL_CTRL.EN.read v = 0 →
        t.get F.BAL_STAT.ON = 0 ∧ t.reg A.BAL_DEF = 0 ∧ t.bal.inSlot = false) ∧
      (s.bit F.BAL_CTRL.EN = false ∨ F.BAL_CTRL.EN.read v = 1 → only [Fld.whole A.BAL_CTRL] s s t))

/-- Thermal management. After an evaluation LEVEL is the highest of what R193 lists, its change is flagged, and each die
sensor's reading stands in its register. ROR_ACT ends after 1,000 quiet evaluations (R192); LOST_CLR ends LOST_HOLD
unless every sensor has failed, and LEVEL falls at the next evaluation (R196). A trim moves at most its step (the
keeper's, one code), a member's y_i takes the main RC's step with the opposite sign (R247), and without a valid
sensor a trim holds with TC_HOLD (R198). The orderly shutdown ends in STANDBY with G150, its recovery starts START
(R200); the hard limit leaves DORMANT with D0 alone and P165 (R201). It rests on choices of the model besides: log
entries 17 and 63. -/
def Obligations.ThermalLevel : Prop :=
  ∀ s : State, s.rested →
    let listed := fun (t : State) => max (max (t.get F.THM_STAT.CALC) (t.get F.THM_CTRL.FLOOR))
      (max (if t.get F.THM_STAT.ROR_ACT = 1 then t.get F.THM_ROR.RORP else 0)
        (if t.get F.THM_STAT.LOST_HOLD = 1 then t.get F.THM_LIM.LOSTP else 0))
    (∀ ds : List Int, s.on 5 = false → exec (.thmEvaluate ds) s = .next s) ∧
    (∀ ds : List Int, s.on 5 = true → s.thm.sensors.length = 5 → ∃ t, exec (.thmEvaluate ds) s = .next t ∧
      t.get F.THM_STAT.LEVEL = listed t ∧ (t.get F.THM_STAT.LEVEL ≠ s.get F.THM_STAT.LEVEL → t.get F.THM_EVT.LEVEL = 1) ∧
      ∀ i, i < 4 → t.getS (F.THM_DS.TEMP i) = clamp (-32768) 32767 (ds.getD i 0)) ∧
    (s.thm.quiet < 1000 → exec .rorRelease s = .next s) ∧
    (1000 ≤ s.thm.quiet → ∃ t, exec .rorRelease s = .next t ∧ t.get F.THM_STAT.ROR_ACT = 0 ∧
      t.get F.THM_STAT.LEVEL = max (listed t) (if s.thm.easing then s.get F.THM_STAT.LEVEL else 0) ∧ only [F.THM_STAT.ROR_ACT, F.THM_STAT.LEVEL, F.THM_EVT.LEVEL] s s t) ∧
    (s.allFailed = true → exec .lostClr s = .next s) ∧
    (s.on 5 = true → s.allFailed = false → ∃ t, exec .lostClr s = .next t ∧ t.get F.THM_STAT.LOST_HOLD = 0 ∧
      only [F.THM_STAT.LOST_HOLD] s { s with thm := { s.thm with easing := true } } t) ∧
    (s.on 0 = true → ∃ t, exec (.tcTrim .keeper) s = .next t ∧ t.ktrim ≤ s.ktrim + 1 ∧ min s.ktrim 255 ≤ t.ktrim + 1 ∧
      t = { s with free := t.free, ptr := { s.ptr with ktrim := t.ptr.ktrim } }) ∧
    (s.on 5 = true → s.dieValid = true → ∃ t, exec (.tcTrim .mainRc) s = .next t ∧
      t.get F.THM_TC.RCTRIM ≤ s.get F.THM_TC.RCTRIM + Config.tcStep 1 ∧
      s.get F.THM_TC.RCTRIM ≤ t.get F.THM_TC.RCTRIM + Config.tcStep 1 ∧
      only [F.THM_TC.RCTRIM, Fld.whole A.CHN_TIME_FREQ] s { s with free := t.free, net := t.net } t ∧
      (s.net.headNow = true → only [F.THM_TC.RCTRIM] s { s with free := t.free } t) ∧
      (s.net.headNow = false → t.net = { s.net with yi := t.net.yi, y := t.net.y } ∧
        t.net.yi = s.net.yi - Config.rcShift ((t.get F.THM_TC.RCTRIM : Int) - s.get F.THM_TC.RCTRIM))) ∧
    (s.on 5 = true → s.dieValid = false → ∃ t, exec (.tcTrim .mainRc) s = .next t ∧ t.get F.THM_EVT.TC_HOLD = 1 ∧
      only [F.THM_EVT.TC_HOLD] s s t) ∧
    (s.on 5 = true → s.dieValid = true ∨ (s.sensorValue 4).isSome → ∃ t, exec (.tcTrim .reference) s = .next t ∧
      t.get F.THM_TC.REFTRIM ≤ s.get F.THM_TC.REFTRIM + Config.tcStep 2 ∧
      s.get F.THM_TC.REFTRIM ≤ t.get F.THM_TC.REFTRIM + Config.tcStep 2 ∧
      only [F.THM_TC.REFTRIM] s { s with free := t.free } t) ∧
    (s.on 5 = true → s.dieValid = false → s.sensorValue 4 = none → ∃ t, exec (.tcTrim .reference) s = .next t ∧
      t.get F.THM_EVT.TC_HOLD = 1 ∧ only [F.THM_EVT.TC_HOLD] s s t) ∧
    (s.thm.closing = true → ∃ t, exec .thermalShutdownComplete s = .next t ∧ t.ptr.dev = .standby ∧
      t.ptr.dom = s.ptr.dom &&& 0x043 ∧ t.get F.THM_SD.G150 = 1 ∧ t.thm.closing = false ∧ t.thm.cooled = true) ∧
    (s.ptr.dev = .standby → s.thm.cooled = true → ∃ t, exec .thermalRecovery s = .next t ∧ t.ptr.dev = .start ∧
      t.boot.step = .entry ∧ t.thm.cooled = false) ∧
    (s.ptr.dev ≠ .off → ∃ t, exec .porterHardLimit s = .next t ∧ t.ptr.dev = .dormant ∧
      t.ptr.dom = s.ptr.dom &&& 1 ∧ t.get F.THM_SD.P165 = 1 ∧ t.ptr.hardHold = true ∧ (s.led.writing.isSome → t.get F.THM_SD.LDG_ABORT = 1))

/-- The link states of R210, command by command: in which states each of them acts, the state it leaves and the fields
named below; every loss (R227, R228) leaves the port SILENT, with its cause in LCAUSE, one more in LOSSES, EVT.LOST
set and the four counters at 0, and a cleared EN acts as one in every state but SILENT. A tone heard tells the
Porter in HALT, DORMANT and STANDBY (R215). The equaliser moves within LO and HI, in UP by one code at most (R216).
It rests on choices of the model besides: log entries 5 and 48. -/
def Obligations.LinkStates : Prop :=
  ∀ (s : State) (p : Port), s.rested →
    let n := p.idx
    let stays := fun (i : Instr) => exec i s = .next s
    let goes := fun (i : Instr) (st : Nat) (also : State → Prop) => ∃ t, exec i s = .next t ∧ t.linkState p = st ∧ also t
    let lost := fun (i : Instr) (cause : Nat) => goes i 0 fun t => t.get (F.CHN_P_STAT.LCAUSE n) = cause ∧
      t.get (F.CHN_P_EVT.LOST n) = 1 ∧ t.get (F.CHN_P_RTX.LOSSES n) = (s.get (F.CHN_P_RTX.LOSSES n) + 1) % 65536 ∧
      t.reg (A.CHN_P_CNT n) = 0
    let failed := fun (i : Instr) => goes i 0 fun t => t.get (F.CHN_P_EVT.TRAIN_FAIL n) = 1 ∧ (t.port p).quiet = true
    let starts := s.on (portDomain p) = true ∧ s.linkState p = 0
    (s.on 5 = true → s.bit (F.CHN_P_CTRL.EN n) = false →
      goes (.portEnable p) (if starts ∧ s.bit (F.CHN_P_CTRL.TONE n) = true then 1 else s.linkState p) fun t =>
        t.get (F.CHN_P_CTRL.EN n) = 1 ∧ (t.port p).quiet = false) ∧
    (s.on 5 = true → s.bit (F.CHN_P_CTRL.EN n) = true → s.linkState p = 0 →
      goes (.portDisable p) 0 fun t => t.get (F.CHN_P_CTRL.EN n) = 0 ∧ (t.port p).quiet = false) ∧
    (s.on 5 = true → s.bit (F.CHN_P_CTRL.EN n) = true → s.linkState p ≠ 0 → lost (.portDisable p) 6) ∧
    (s.on 5 = false → stays (.portEnable p) ∧ stays (.portDisable p)) ∧
    (s.linkState p ≠ 0 → stays (.silenceEnd p)) ∧
    (starts → goes (.silenceEnd p)
      (if s.bit (F.CHN_P_CTRL.EN n) = true ∧ s.bit (F.CHN_P_CTRL.TONE n) = true then 1 else 0) fun t =>
        (t.port p).quiet = false) ∧
    (s.linkState p = 1 → goes (.wakeToneEnd p) 2 fun t => t.get (F.CHN_P_STAT.RXOK n) = s.get (F.CHN_P_STAT.RXOK n) ∧
      (t.port p).goodBlocks = 0) ∧ (s.linkState p ≠ 1 → stays (.wakeToneEnd p)) ∧
    (starts → s.bit (F.CHN_P_CTRL.EN n) = true → goes (.peerDetected p) 2 fun t => t.get (F.CHN_P_STAT.SIGDET n) = 1) ∧
    (s.linkState p ≠ 0 ∨ s.bit (F.CHN_P_CTRL.EN n) = false → stays (.peerDetected p)) ∧
    (∀ good peerOk : Bool, s.linkState p = 2 →
      let blocks := if good then min 4 ((s.port p).goodBlocks + 1) else 0
      let rxok := s.bit (F.CHN_P_STAT.RXOK n) || blocks == 4
      goes (.trainingBlock p good peerOk) (if good = true ∧ peerOk = true ∧ rxok = true then 3 else 2) fun t =>
        (t.port p).goodBlocks = blocks ∧ t.bit (F.CHN_P_STAT.RXOK n) = rxok ∧ t.get (F.CHN_P_STAT.SIGDET n) = 1) ∧
    (∀ good peerOk : Bool, s.linkState p = 4 → lost (.trainingBlock p good peerOk) 5) ∧
    (∀ good peerOk : Bool, s.linkState p ≠ 2 → s.linkState p ≠ 4 → ∃ t, exec (.trainingBlock p good peerOk) s = .next t ∧
      only [F.CHN_P_STAT.PEER_RXOK n] s s t ∧ t.bit (F.CHN_P_STAT.PEER_RXOK n) =
        if good = true ∧ s.linkState p ≠ 0 then peerOk else s.bit (F.CHN_P_STAT.PEER_RXOK n)) ∧
    (s.linkState p = 2 → failed (.trainTimeout p)) ∧ (s.linkState p ≠ 2 → stays (.trainTimeout p)) ∧
    (s.linkState p = 3 → failed (.alignTimeout p)) ∧ (s.linkState p ≠ 3 → stays (.alignTimeout p)) ∧
    (s.linkState p = 3 → (s.port p).heard = false → (s.port p).peerHeard = false →
      goes (.helloTimer p) 3 fun t => t.get (F.CHN_P_FTX.COUNT n) = (s.get (F.CHN_P_FTX.COUNT n) + 1) % 2 ^ 32 ∧
        ∃ f, (t.port p).line = some f ∧ f.cls = 0 ∧ f.typ = 1 ∧
          f.payload = [s.factoryH, s.factoryL, Word.ofNat (0x01000000 + n * 0x10000), 0]) ∧
    (s.linkState p = 3 → (s.port p).heard = true → (s.port p).peerHeard = true →
      goes (.helloTimer p) 4 fun t => t.get (F.CHN_P_EVT.UP n) = 1) ∧
    (∀ f : Frame, s.linkState p = 3 → frameIs 0 1 f = true → f.crcOk = true → frameMalformed f = false →
      let w := fun k => f.payload.getD k 0
      ((w 2).extractLsb' 24 8 ≠ 1 → goes (.lnkHello p f) 3 fun t => t.get (F.CHN_P_EVT.VER_MISMATCH n) = 1) ∧
      ((w 2).extractLsb' 24 8 = 1 →
        goes (.lnkHello p f)
          (if ((s.port p).peerHeard = true ∨ (w 2).getLsbD 8 = true) ∧ (s.port p).sentHeard = true then 4 else 3) fun t =>
            t.reg (A.CHN_P_PEERH n) = w 0 ∧ t.reg (A.CHN_P_PEERL n) = w 1 ∧ (t.port p).heard = true)) ∧
    (∀ f : Frame, s.portUp p = true → frameIs 0 1 f = true → f.crcOk = true → frameMalformed f = false →
      lost (.lnkHello p f) 5) ∧
    (∃ t, exec (.wakeToneHeard p) s = .next t ∧ t.linkState p = s.linkState p ∧
      (s.on 5 = true → s.linkState p = 0 → t.get (F.CHN_P_EVT.WAKE_HEARD n) = 1) ∧
      (s.inDev [.halt, .dormant, .standby] = true → t.ptr.tones.getLsbD n = true) ∧
      (s.inDev [.halt, .dormant, .standby] = false → t.ptr.tones = s.ptr.tones)) ∧
    (∀ target : Nat, target < 16 → s.linkState p = 2 ∨ s.linkState p = 4 →
      let want := if s.get (F.CHN_P_EQ.PIN n) = 1 then s.get (F.CHN_P_EQ.PINVAL n) else target
      let goal := max (s.get (F.CHN_P_EQ.LO n)) (min (s.get (F.CHN_P_EQ.HI n)) want)
      let now := s.get (F.CHN_P_EQ.APPLIED n)
      goes (.eqAdapt p target) (s.linkState p) fun t => t.get (F.CHN_P_EQ.APPLIED n) =
        if s.linkState p = 2 then goal else if now < goal then now + 1 else if goal < now then now - 1 else now) ∧
    (∀ target : Nat, s.linkState p ≠ 2 → s.linkState p ≠ 4 → stays (.eqAdapt p target)) ∧
    (s.portUp p = true → lost (.lockLoss p) 1) ∧
    (s.portUp p = false → goes (.lockLoss p) (s.linkState p) fun t => t.get (F.CHN_P_STAT.RXOK n) = 0) ∧
    (s.portUp p = true → lost (.frameTimeout p) 2) ∧ (s.portUp p = false → stays (.frameTimeout p)) ∧
    (s.portUp p = true → 16 ≤ (s.port p).discards → lost (.discardLimit p) 3) ∧
    (s.portUp p = false ∨ (s.port p).discards < 16 → stays (.discardLimit p))

/-- Frames on a port: what a good LNK_IDLE and STREAM frame make of the expected numbers and the gaps (R226), what
FRAME_DISCARDED counts (R221, R230), an error in a receive room (R373), what IDLE_SEND and FRAME_TRANSMIT put on the
line, a counter spent for each new frame (R220, R223 to R225), and the expiry of the oldest unacknowledged frame
(R225). It rests on choices of the model besides: log entries 5, 48 and 68. -/
def Obligations.LinkFrames : Prop :=
  ∀ (s : State) (p : Port), s.rested →
    let n := p.idx
    let q := s.port p
    let good := fun (f : Frame) => s.portUp p = true ∧ f.crcOk = true ∧ frameMalformed f = false
    let counted := fun (t : State) => t.get (F.CHN_P_FRX.COUNT n) = (s.get (F.CHN_P_FRX.COUNT n) + 1) % 2 ^ 32
    let sent := fun (t : State) => t.get (F.CHN_P_FTX.COUNT n) = (s.get (F.CHN_P_FTX.COUNT n) + 1) % 2 ^ 32
    (∀ f : Frame, good f → frameIs 0 0 f = true → ∃ t, exec (.lnkIdle p f) s = .next t ∧ counted t ∧
      let w := f.payload.headD 0
      (t.port p).rxStream = w.extractLsb' 8 8 ∧ (t.port p).rxBulk = w.extractLsb' 0 8 ∧
      t.get (F.CHN_P_GAP.STREAM n) =
        (s.get (F.CHN_P_GAP.STREAM n) + (w.extractLsb' 8 8 - q.rxStream).toNat) % 65536 ∧
      t.get (F.CHN_P_GAP.BULK n) = (s.get (F.CHN_P_GAP.BULK n) + (w.extractLsb' 0 8 - q.rxBulk).toNat) % 65536) ∧
    (∀ f : Frame, s.portUp p = true → f.cls = 2 → f.crcOk = false → ∃ t, exec (.streamFrame p f) s = .next t ∧
      t.get (F.CHN_P_ERR.CRC n) = (s.get (F.CHN_P_ERR.CRC n) + 1) % 65536 ∧ t.get (F.CHN_P_EVT.CRC_ERR n) = 1 ∧
      (t.port p).discards = q.discards + 1 ∧ (t.port p).rxStream = q.rxStream) ∧
    (∀ f : Frame, good f → f.cls = 2 → f.seq < 256 → ∃ t, exec (.streamFrame p f) s = .next t ∧ counted t ∧
      (t.port p).rxStream = BitVec.ofNat 8 (f.seq + 1) ∧ (t.port p).discards = 0 ∧
      t.get (F.CHN_P_GAP.STREAM n) =
        (s.get (F.CHN_P_GAP.STREAM n) + (BitVec.ofNat 8 f.seq - q.rxStream).toNat) % 65536 ∧
      (f.ecc.room = .uncorrectable → t.get F.STO_EVT.SRAM_UNCOR = 1)) ∧
    (∀ why : DiscardWhy, 3 ≤ s.linkState p → ∃ t, exec (.frameDiscarded p why) s = .next t ∧
      (why = .crc → t.get (F.CHN_P_ERR.CRC n) = (s.get (F.CHN_P_ERR.CRC n) + 1) % 65536 ∧
        t.get (F.CHN_P_EVT.CRC_ERR n) = 1) ∧
      (why ≠ .crc → t.get (F.CHN_P_ERR.FMT n) = (s.get (F.CHN_P_ERR.FMT n) + 1) % 65536) ∧
      (why = .fmt → t.get (F.CHN_P_EVT.FMT_ERR n) = 1) ∧
      (why = .violation → t.get (F.CHN_P_EVT.FMT_ERR n) = s.get (F.CHN_P_EVT.FMT_ERR n)) ∧
      (t.port p).discards = q.discards + if why = .violation then 0 else 1) ∧
    (∀ why : DiscardWhy, s.linkState p < 3 → exec (.frameDiscarded p why) s = .next s) ∧
    (s.portUp p = true → s.txNext p = none → ∃ t, exec (.idleSend p) s = .next t ∧ sent t ∧
      ∃ f, (t.port p).line = some f ∧ f.cls = 0 ∧ f.typ = 0 ∧
        f.payload = [Word.ofNat (q.txStream.toNat * 256 + q.txBulk.toNat)] ∧ f.ack = q.ack ∧
        f.crd = q.released.map (· % 16)) ∧
    (s.portUp p = false ∨ s.txNext p ≠ none → exec (.idleSend p) s = .next s) ∧
    (s.portUp p = false ∨ s.txNext p = none → exec (.frameTransmit p) s = .next s) ∧
    (∀ x i, s.portUp p = true → s.txNext p = some (x, i) → ∃ t, exec (.frameTransmit p) s = .next t ∧ sent t ∧
      (∃ f, (t.port p).line = some f ∧ f.payload = x.frame.payload ∧ f.cls = x.frame.cls ∧ f.typ = x.frame.typ ∧
        f.src = x.frame.src ∧ f.dst = x.frame.dst ∧ f.ack = q.ack ∧ f.crd = q.released.map (· % 16)) ∧
      (x.stage = .resend → t.get (F.CHN_P_RTX.RETX n) = (s.get (F.CHN_P_RTX.RETX n) + 1) % 65536 ∧
        t.get (F.CHN_P_EVT.RETRY n) = 1) ∧
      (x.stage = .new → t.get (countField p x.frame.cls) = s.get (countField p x.frame.cls) - 1 ∧
        (x.frame.cls < 2 → (t.port p).txSeq = q.txSeq + 1))) ∧
    (∀ x i, s.portUp p = true → q.oldest (fun y => y.stage != .new) = some (x, i) → x.stage = .sent →
      (7 ≤ x.expiries → ∃ t, exec (.retryTimer p) s = .next t ∧ t.linkState p = 0 ∧
        t.get (F.CHN_P_STAT.LCAUSE n) = 4 ∧ t.get (F.CHN_P_EVT.LOST n) = 1) ∧
      (x.expiries < 7 → s.grd.noteWaits = false → ∃ t, exec (.retryTimer p) s = .next t ∧
        (t.port p).tx = q.tx.map fun y => if y.stage = .new then y else
          { y with stage := .resend, expiries := y.expiries + 1 })) ∧
    (s.portUp p = false → exec (.retryTimer p) s = .next s)

/-- Network frames at a member, and the head's own steps. At a member a NET_SEARCH going out counts the hop and has the
participant's bit cleared (R238, R239), a NET_ASSIGN gives the slot to the device with that number (R241), a set
brings GEN, the routes, the base in use and the schedule of the next one (R238, R250), and a NET_LINK of a break at
a known position records it (R236). SRCH starts the first step of a search in an idle head (R240); a step that fails
counts GEN up (R243); SCHED is refused less than 1.0 ms ahead and is sent, at once or at the search's end (R250); NB
comes into use at the first trigger from ACT on (R250). It rests on choices of the model besides: log entries 5, 49
and 50. -/
def Obligations.NetworkSteps : Prop :=
  ∀ s : State, s.rested →
    let arrives := fun (p : Port) (typ : Nat) (f : Frame) => inOrder s p f ∧ frameIs 0 typ f = true ∧ f.dst = 0x7F
    let member := s.net.headNow = false
    (∀ (p : Port) (f : Frame), arrives p 0x08 f → member → frameDir f = false → f.payload.length = 11 →
      s.portUp p.opp = true → ∃ t, exec (.netSearch p f) s = .next t ∧ (t.port p).rxSeq = (s.port p).rxSeq + 1 ∧
        ∃ g, leaving t p.opp g ∧ frameHops g = (frameHops f + 1) % 64 ∧ frameDir g = false ∧
          ∀ v, v < 256 → (presOf g).getLsbD v = ((presOf f).getLsbD v && !(s.takesPart f &&
            v == s.factory.getD ((f.payload.headD 0).extractLsb' 16 3).toNat 0))) ∧
    (∀ (p : Port) (f : Frame), arrives p 0x09 f → member → frameDir f = false → s.bit F.CHN_NET_STAT.SLOTV = false →
      f.payload.getD 1 0 = s.factoryH → f.payload.getD 2 0 = s.factoryL →
      ∃ t, exec (.netAssign p f) s = .next t ∧ t.get F.CHN_NET_STAT.SLOTV = 1 ∧
        t.get F.CHN_NET_STAT.SLOT = ((f.payload.headD 0).extractLsb' 16 6).toNat ∧ t.get F.CHN_NET_EVT.ASSIGNED = 1) ∧
    (∀ (p : Port) (f : Frame), arrives p 0x0A f → member → frameDir f = false → (f.payload.headD 0).getLsbD 23 = true →
      f.payload.length = 23 → f.gen < 16 → ∃ t, exec (.netRoute p f) s = .next t ∧
        let w := fun k => f.payload.getD k 0
        t.get F.CHN_NET_STAT.GEN = f.gen ∧ t.get F.CHN_NET_STAT.D = ((w 0).extractLsb' 16 7).toNat ∧
        t.bit F.CHN_NET_STAT.BRKV = (w 0).getLsbD 15 ∧ t.get F.CHN_NET_STAT.BRK = ((w 0).extractLsb' 8 6).toNat ∧
        (∀ k, k < 16 → t.reg (A.CHN_POS k) = w (7 + k)) ∧ t.reg A.CHN_EPOCH_BH = w 1 ∧ t.reg A.CHN_EPOCH_BL = w 2 ∧
        t.reg A.CHN_EPOCH_NBH = w 3 ∧ t.reg A.CHN_EPOCH_NBL = w 4 ∧ t.reg A.CHN_EPOCH_ACTH = w 5 ∧
        t.reg A.CHN_EPOCH_ACTL = w 6 ∧ t.net.basePending = true) ∧
    (∀ (p : Port) (f : Frame), arrives p 0x0B f → member → s.ownLink f = false → (f.payload.headD 0).getLsbD 31 = false →
      f.src < 64 → s.pos f.src < 64 → ∃ t, exec (.netLink p f) s = .next t ∧ t.get F.CHN_NET_STAT.BRKV = 1 ∧
        t.get F.CHN_NET_STAT.BRK = s.linkAt (s.pos f.src) ((f.payload.headD 0).getLsbD 30) % 64) ∧
    (s.on 5 = true → s.net.headNow = true → s.bit F.CHN_NET_STAT.SRCH_BUSY = false →
      s.portUp .north = true ∨ s.portUp .south = true → ∃ t, exec .srch s = .next t ∧
        t.get F.CHN_NET_STAT.SRCH_BUSY = 1 ∧ t.net.search.step = .search ∧ t.net.search.prefixNow = [] ∧
        t.net.search.full = true ∧ t.net.search.copies = (if s.portUp .north && s.portUp .south then 2 else 1)) ∧
    (member ∨ s.on 5 = false ∨ s.bit F.CHN_NET_STAT.SRCH_BUSY = true → exec .srch s = .next s) ∧
    (s.net.headNow = true → s.net.search.step ≠ .idle → 0 < s.net.search.copies →
      ∃ t, exec .netStepTimeout s = .next t ∧ t.get F.CHN_NET_STAT.GEN = (s.get F.CHN_NET_STAT.GEN + 1) % 16 ∧
        t.get F.CHN_NET_EVT.TOPO = 1 ∧ (s.net.search.full = true → t.get F.CHN_NET_EVT.SRCH_RESTART = 1)) ∧
    (member ∨ s.net.search.step = .idle → exec .netStepTimeout s = .next s) ∧
    (s.on 5 = true → s.net.headNow = true → s.actAt.toNat < s.timeNow.toNat + 100000 →
      ∃ t, exec .sched s = .next t ∧ t.get F.CHN_NET_EVT.CFG_REFUSED = 1 ∧ t.net.basePending = s.net.basePending) ∧
    (s.on 5 = true → s.net.headNow = true → s.timeNow.toNat + 100000 ≤ s.actAt.toNat →
      ∃ t, exec .sched s = .next t ∧ t.net.basePending = true ∧
        (s.net.search.step = .idle → s.portUp .north = true ∨ s.portUp .south = true → t.net.search.step = .route) ∧
        (s.net.search.step ≠ .idle → t.net.search.again = true)) ∧
    (member ∨ s.on 5 = false → exec .sched s = .next s) ∧
    (∀ t0 : Time, s.net.basePending = true → s.isTrigger t0 = true → s.on 4 = true → s.actAt.toNat ≤ t0.toNat → s.timeMay t0 = true →
      ∃ t, exec (.baseApply t0) s = .next t ∧ t.ptr.time = t0 ∧ t.reg A.CHN_EPOCH_BH = s.reg A.CHN_EPOCH_NBH ∧
        t.reg A.CHN_EPOCH_BL = s.reg A.CHN_EPOCH_NBL ∧ t.get F.CHN_NET_EVT.BASE = 1 ∧ t.net.basePending = false) ∧
    (∀ t0 : Time, s.net.basePending = false ∨ s.isTrigger t0 = false ∨ t0.toNat < s.actAt.toNat →
      exec (.baseApply t0) s = .next s)

/-- Chain time: the request of R245, its answer, and the delay, the offset and PEER_LOCK its response gives (R246); the
EPOCH a device in LOCK sends on each port in UP (R247); what a received one makes of ERR and of y_i, and of LOCK
after 32 small and after four large errors (R247, R248); the loss of LOCK after 120 µs without one (R248). A
GRD_NOTE sets its sender's bit and merges its status (R316). It rests on choices of the model besides: log entries
5, 19 and 51. -/
def Obligations.ChainTime : Prop :=
  ∀ s : State, s.rested →
    let good := fun (p : Port) (f : Frame) => s.portUp p = true ∧ f.crcOk = true ∧ frameMalformed f = false
    let member := s.net.headNow = false
    (∀ p : Port, s.timePort = some p → ∃ t, exec .rttTimer s = .next t ∧
      ∃ f frac, (t.port p).line = some f ∧ frac < 256 ∧ f.cls = 0 ∧ f.typ = 2 ∧
        f.payload = [Word.ofNat frac, s.timeNow.extractLsb' 32 32] ∧
        t.net.rttSent = some (p, ((s.timeNow.toNat * 256 + frac : Nat) : Int))) ∧
    (s.timePort = none → exec .rttTimer s = .next s) ∧
    (∀ (p : Port) (f : Frame) (rxFrac : Nat), good p f → frameIs 0 2 f = true → f.len = 8 → rttKind f = 0 →
      ∃ t, exec (.lnkRttRequest p f rxFrac) s = .next t ∧ ∃ g w0, (t.port p).line = some g ∧
        g.payload = [w0, s.timeNow.extractLsb' 32 32, s.timeNow.extractLsb' 32 32, s.timeNow.extractLsb' 0 32] ∧
        w0.extractLsb' 30 2 = 1 ∧ w0.getLsbD 29 = s.lock ∧ (w0.extractLsb' 8 8).toNat = rxFrac % 256) ∧
    (∀ (p : Port) (f : Frame) (t1 t4 : Int), member → good p f → frameIs 0 2 f = true → f.len = 16 → rttKind f = 1 →
      s.net.rttSent = some (p, t1) →
      let w := fun k => f.payload.getD k 0
      let t3 : Int := ((w 1).toNat * 2 ^ 32 + f.time % 2 ^ 32) * 256 + ((w 0).extractLsb' 0 8).toNat
      let t2 : Int := ((w 2).toNat * 2 ^ 32 + (w 3).toNat) * 256 + ((w 0).extractLsb' 8 8).toNat
      ∃ t, exec (.lnkRttResponse p f t4) s = .next t ∧ t.net.rttSent = none ∧ t.net.t2 = t2 ∧
        (((t4 - t1) - (t3 - t2)) % 2 = 0 → t.get F.CHN_TIME_DLY.DLY = unsign 24 (((t4 - t1) - (t3 - t2)) / 2)) ∧
        (((t2 - t1) - (t4 - t3)) % 2 = 0 → t.net.theta = ((t2 - t1) - (t4 - t3)) / 2) ∧
        t.bit F.CHN_TIME_STAT.PEER_LOCK = (w 0).getLsbD 29 ∧
        ((w 0).getLsbD 29 = false → t.get F.CHN_TIME_STAT.LOCK = 0)) ∧
    (∀ t0 : Time, s.lock = true → t0.toNat % 3000 = 0 → s.timeMay t0 = true → s.on 4 = true →
      ∃ t, exec (.epochSend t0) s = .next t ∧ t.ptr.time = t0 ∧ ∀ p : Port,
        (t.port p).epoch = if s.portUp p = true then some t0 else (s.port p).epoch) ∧
    (∀ t0 : Time, s.lock = false → exec (.epochSend t0) s = .next s) ∧
    (∀ (p : Port) (e k : Int), s.timePort = some p → e.natAbs ≤ 100 * 256 →
      ∃ t, exec (.epoch p (3000 * 256 * k + s.get F.CHN_TIME_DLY.DLY + e)) s = .next t ∧ t.ptr.time = s.ptr.time ∧
        t.get F.CHN_TIME_STAT.ERR = unsign 16 (clamp (-32768) 32767 e) ∧
        t.net.yi = clamp (-freqMax) freqMax (s.net.yi - 2604 * e) ∧
        (10 * e.natAbs ≤ 256 → s.net.lockRun = 31 → s.bit F.CHN_TIME_STAT.LOCK = false →
          s.peerLock = true → t.get F.CHN_TIME_STAT.LOCK = 1 ∧ t.get F.CHN_NET_EVT.LOCK = 1) ∧
        (256 < 2 * e.natAbs → s.net.unlockRun = 3 → t.get F.CHN_TIME_STAT.LOCK = 0)) ∧
    (∀ (p : Port) (trx : Int), s.timePort ≠ some p → exec (.epoch p trx) s = .next s) ∧
    (member → ∃ t, exec .epochTimeout s = .next t ∧ t.get F.CHN_TIME_STAT.LOCK = 0 ∧ t.net.lockRun = 0 ∧
      (s.bit F.CHN_TIME_STAT.LOCK = true → t.get F.CHN_NET_EVT.UNLOCK = 1)) ∧
    (∀ (p : Port) (f : Frame), inOrder s p f → frameIs 0 0x10 f = true → f.dst = 0x7F → s.ownFrame f = false → ∃ t, exec (.grdNote p f) s = .next t ∧
        t.get F.INK_SLATG.GST = s.get F.INK_SLATG.GST ||| (f.payload.headD 0).toNat % 16 ∧
        (f.src < 64 → t.slotBit A.INK_SLATL A.INK_SLATH f.src = true) ∧
        (f.src = 0x7F → t.get F.INK_SLATG.UNSLOT = 1))

/-- READ, WRITE and MODIFY for this device, as frames in order of another slot, on a register whose writes take by its
fields' access codes. With a buffer for the response in the transmit room of its route, and no frame waiting before
it (R22): a request whose form, GEN and TAG are right is executed on its endpoint and answered with STATUS 0 and
what it read (R252, R253); a WRITE with another GEN is answered with STATUS 3, one with a TAG accepted before with
STATUS 5, and neither is executed (R253, R254). With no such buffer a request stays in the receive room and is not
executed (R22). It rests on choices of the model besides: log entries 45 and 55. -/
def Obligations.RemoteAccesses : Prop :=
  ∀ (s : State) (p q : Port) (f : Frame) (a tag : Nat), s.rested → inOrder s p f → f.cls = 1 →
    s.bit F.CHN_NET_STAT.SLOTV = true → f.dst = s.get F.CHN_NET_STAT.SLOT → f.src < 64 → s.route f.src none = some q →
    a ∈ codeRegs → f.payload.headD 0 = requestWord tag 1 a → tag < 256 →
    let old := s.view .chain a
    let fresh := f.gen = s.get F.CHN_NET_STAT.GEN
    let room := (s.port p).rx = [] ∧ s.canAnswer f = true
    let answered := fun (t : State) (status : Nat) (ws : List Word) => ∃ g, leaving t q g ∧ g.cls = 1 ∧
      g.typ = f.typ + 32 ∧ g.dst = f.src ∧ g.payload = responseWord tag status ws.length a :: ws
    (room → f.typ = 0 → f.len = 4 → fresh → ∃ t, exec (.read p f) s = .next t ∧ answered t 0 [old] ∧ t.reg a = s.reg a) ∧
    (∀ v, room → f.typ = 1 → f.len = 8 → f.payload = [requestWord tag 1 a, v] → fresh → s.tagSeen f.src tag = false →
      ∃ t, exec (.write p f) s = .next t ∧ answered t 0 [] ∧ wrote s t a v ∧ t.tagSeen f.src tag = true) ∧
    (∀ m v, room → f.typ = 2 → f.len = 12 → f.payload = [requestWord tag 1 a, m, v] → fresh → s.tagSeen f.src tag = false →
      ∃ t, exec (.modify p f) s = .next t ∧ answered t 0 [old] ∧ wrote s t a ((old &&& ~~~m) ||| (v &&& m))) ∧
    (room → f.typ = 1 → f.len = 8 → ¬ fresh → ∃ t, exec (.write p f) s = .next t ∧ answered t 3 [] ∧ t.reg a = s.reg a ∧
      t.get F.CHN_NET_CNT.STALE = (s.get F.CHN_NET_CNT.STALE + 1) % 65536) ∧
    (room → f.typ = 1 → f.len = 8 → fresh → s.tagSeen f.src tag = true → ∃ t, exec (.write p f) s = .next t ∧
      answered t 5 [] ∧ t.reg a = s.reg a) ∧
    ((goodFrame p f s).canAnswer f = false →
      let waits := fun (i : Instr) => ∃ t, exec i s = .next t ∧ ⟨f, none⟩ ∈ (t.port p).rx ∧ t.reg a = s.reg a
      (f.typ = 0 → waits (.read p f)) ∧ (f.typ = 1 → waits (.write p f)) ∧ (f.typ = 2 → waits (.modify p f)))

/-- Bulk transfers and the requester's side. With a buffer for the response and no frame waiting before it (R22), a
BULK_OPEN of a stretch of the Ledger stands as a transfer with its region, start and length, a BULK_NAK moves a
transfer back to the offset it names, and a BULK_CLOSE ends it; a BULK frame in order adds its bytes (R256). A
response with STATUS 0 ends the host's READ with its data, a request that times out is due again until
CHN_NET_CFG.RETRY resends, then ends with STATUS 6 (R254), and a mirror range in the head asks every slot but 0 that
is assigned and not lost (R258). It rests on choices of the model besides: log entries 5, 44, 47 and 80. -/
def Obligations.RemoteTransfers : Prop :=
  ∀ s : State, s.rested →
    let mine := fun (f : Frame) => s.bit F.CHN_NET_STAT.SLOTV = true ∧ f.dst = s.get F.CHN_NET_STAT.SLOT ∧ f.src < 64
    let asked := fun (p : Port) (f : Frame) (typ : Nat) => inOrder s p f ∧ mine f ∧ frameIs 1 typ f = true ∧
      f.gen = s.get F.CHN_NET_STAT.GEN ∧ s.tagSeen f.src (wordTag (f.payload.headD 0)) = false ∧
      wordCount (f.payload.headD 0) = 0 ∧ (s.port p).rx = [] ∧ s.canAnswer f = true
    (∀ (p : Port) (f : Frame) (w0 w1 start len : Word), asked p f 3 → f.len = 16 → f.payload = [w0, w1, start, len] →
      w1.extractLsb' 16 4 = 1 → start.toNat + len.toNat ≤ 16384 → ∃ t, exec (.bulkOpen p f) s = .next t ∧
        ∃ b ∈ t.net.bulkOut, b.dst = f.src ∧ b.xid = wordTag w1 ∧ b.region = 1 ∧ b.start = start.toNat ∧
          b.length = len.toNat) ∧
    (∀ (p : Port) (f : Frame) (w0 w1 : Word), asked p f 4 → f.len = 8 → f.payload = [w0, w1] →
      ∃ t, exec (.bulkNak p f) s = .next t ∧ (t.port p).rxSeq = (s.port p).rxSeq + 1 ∧
        t.tagSeen f.src (wordTag w0) = true ∧
        (∀ b ∈ s.net.bulkOut, b.dst = f.src → b.xid = wordTag w1 → b.region = 1 → s.route f.src none = none →
          (w1.extractLsb' 0 24).toNat ≤ b.length →
          ∃ x ∈ t.net.bulkOut, x.dst = b.dst ∧ x.xid = b.xid ∧ x.offset = (w1.extractLsb' 0 24).toNat)) ∧
    (∀ (p : Port) (f : Frame) (w0 w1 : Word), asked p f 5 → f.len = 8 → f.payload = [w0, w1] →
      ∃ t, exec (.bulkClose p f) s = .next t ∧ ∀ b ∈ t.net.bulkOut, ¬ (b.dst = f.src ∧ b.xid = wordTag w1)) ∧
    (∀ (p : Port) (f : Frame) (b : BulkIn), s.portUp p = true → f.ecc.room ≠ .uncorrectable → f.crcOk = true → frameMalformed f = false → mine f →
      frameIs 3 0 f = true → 8 ≤ f.len →
      (s.net.bulkIn.find? fun x => x.src == f.src && x.xid == wordTag (f.payload.headD 0)) = some b →
      ((f.payload.headD 0).extractLsb' 0 24).toNat = b.next → ∃ t, exec (.bulkData p f) s = .next t ∧
        ∃ x ∈ t.net.bulkIn, x.src = f.src ∧ x.xid = wordTag (f.payload.headD 0) ∧ x.next = b.next + (f.len - 8) ∧
          x.data = b.data ++ (wordsSent (f.payload.drop 2)).take (f.len - 8) ∧
          x.last = (f.payload.getD 1 0).getLsbD 31) ∧
    (∀ (p : Port) (f : Frame) (r : Request) (htag : Nat), inOrder s p f → mine f → f.cls = 1 →
      s.requestAt f.src (wordTag (f.payload.headD 0)) = some r → r.who = .host htag → r.typ = 0 → f.typ = 32 →
      wordStatus (f.payload.headD 0) = 0 → ∃ t, exec (.controlResponse p f) s = .next t ∧
        t.host.results = s.host.results ++ [⟨htag, 0, (f.payload.drop 1).take (wordBack (f.payload.headD 0))⟩] ∧
        t.get F.CHN_NET_EVT.HOST_RES = 1) ∧
    (∀ (dst tag : Nat) (r : Request), s.requestAt dst tag = some r → r.due = false →
      r.tries < s.get F.CHN_NET_CFG.RETRY → ∃ t, exec (.requestTimeout dst tag) s = .next t ∧
        ∃ due, { r with tries := r.tries + 1, due := due } ∈ t.net.requests) ∧
    (∀ dst tag : Nat, s.requestAt dst tag = none → exec (.requestTimeout dst tag) s = .next s) ∧
    (∀ (dst tag htag : Nat) (r : Request), s.requestAt dst tag = some r → r.due = false →
      s.get F.CHN_NET_CFG.RETRY ≤ r.tries →
      r.who = .host htag → ∃ t, exec (.requestTimeout dst tag) s = .next t ∧
        t.host.results = s.host.results ++ [⟨htag, 6, []⟩]) ∧
    (∀ n : Nat, n < 16 → s.net.headNow = true → s.bit (F.CHN_MIR_A.EN n) = true →
      ∃ t, exec (.mirrorRefresh n) s = .next t ∧ ∀ d, 0 < d → d < 64 → s.assigned d = true → s.lost d = false →
        ∃ r ∈ t.net.requests, r.who = .mirror n ∧ r.dst = d ∧ r.typ = 0 ∧ r.addr = s.get (F.CHN_MIR_A.ADDR n) ∧
          r.count = s.get (F.CHN_MIR_A.COUNT n)) ∧
    (∀ n : Nat, s.net.headNow = false ∨ (n < 16 ∧ s.bit (F.CHN_MIR_A.EN n) = false) →
      exec (.mirrorRefresh n) s = .next s)

/-- The host port of the head: an MREAD of slot 0 and one of a slot in the mirror are answered with their words; posted
commands get the next HTAG and become requests, or with BWRITE a broadcast; RESULT gives the oldest completion and
removes it once its response is whole, as RREAD moves a ring's read pointer; HSTAT gives its two words. A full
queue, a WRITE whose authentication fails, an unknown CMD and a wrong COUNT of LREAD are answered with their status
and do nothing. A command whose room shows an uncorrectable error is accepted and lost (R373); an MREAD of a mailbox
word that cannot be read gives 0x19 (R291). The order of the checks, what is there at slot 0 and at lost slots, and
errors behind the mailbox rest on log entries 41, 42 and 56. -/
def Obligations.HostPort : Prop :=
  ∀ (s : State) (r : HostReq), s.rested → s.on 5 = true → s.net.headNow = true → s.loader = false → r.crcOk = true →
    r.flags < 2 →
    let htag := (s.host.htag + 1) % 256
    let answered := fun (i : Instr) (status tag : Nat) (ws : List Word) (also : State → Prop) =>
      ∃ t, exec i s = .next t ∧ t.host.resp = some ⟨status, tag, ws⟩ ∧ also t
    let refused := fun (i : Instr) (status : Nat) => answered i status 0 [] fun t => t.get F.CHN_NET_EVT.HOST_ERR = 1 ∧
      t.net.requests = s.net.requests ∧ t.host.results = s.host.results ∧ t.host.htag = s.host.htag
    let slot := r.addr / 16384 % 64
    let reached := slot ≠ 0 ∧ s.assigned slot = true ∧ s.lost slot = false
    let asks := fun (typ : Nat) (data : List Word) (t : State) => ∃ q ∈ t.net.requests, q.who = .host htag ∧
      q.dst = slot ∧ q.typ = typ ∧ q.addr = r.addr % 16384 ∧ q.count = r.count ∧ q.data = data
    let open' := s.hostPending < 8 ∧ s.hostFull = false
    let room := open' ∧ r.ecc.room ≠ .uncorrectable
    let free := s.get F.CHN_HOST_CFG.AUTH_REQ = 0
    (r.cmd = 1 → r.count = 1 → slot = 0 → r.addr % 16384 ∈ codeRegs →
      answered (.mread r) 0 0 [s.view .host (r.addr % 16384)] fun _ => True) ∧
    (r.cmd = 1 → 0 < r.count → r.count ≤ 1024 → r.addr % 16384 + r.count ≤ 16384 → reached → s.celReady = true →
      answered (.mread r) 0 0 (Mem.words 0 s.cel.mem (s.mirrorAddr slot (r.addr % 16384)) r.count) fun _ => True) ∧
    (r.cmd = 2 → r.count = 0 ∨ 63 < r.count → refused (.lread r) 2) ∧
    (r.cmd = 2 → 0 < r.count → r.count ≤ 63 → room → reached →
      answered (.lread r) 0 htag [] fun t => t.host.htag = htag ∧ asks 0 [] t) ∧
    (r.cmd = 2 → 0 < r.count → r.count ≤ 63 → room → slot ≠ 0 → s.assigned slot = false ∨ s.lost slot = true →
      answered (.lread r) 0 htag [] fun t => t.host.results = s.host.results ++ [⟨htag, 5, []⟩]) ∧
    (r.cmd = 2 → 0 < r.count → r.count ≤ 63 → ¬ open' → answered (.lread r) 3 0 [] fun t => t.host.htag = s.host.htag) ∧
    (r.cmd = 2 → 0 < r.count → r.count ≤ 63 → open' → r.ecc.room = .uncorrectable → answered (.lread r) 0 htag [] fun t =>
      t.get F.STO_EVT.SRAM_UNCOR = 1 ∧ t.net.requests = s.net.requests ∧ t.host.results = s.host.results) ∧
    (r.cmd = 1 → r.count = 1 → slot = 0 → isMailbox (r.addr % 16384) = true → isReserved (r.addr % 16384) = false →
      r.ecc.data = .uncorrectable → answered (.mread r) 0x19 0 [] fun t => t.ink.data = s.ink.data) ∧
    (r.cmd = 3 → 0 < r.count → r.count ≤ 63 → free → room → reached → r.data.length = r.count →
      answered (.hostWrite r) 0 htag [] fun t => asks 1 r.data t) ∧
    (r.cmd = 3 → 0 < r.count → r.count ≤ 63 → ¬ free → s.authOk r r.count = false → refused (.hostWrite r) 4) ∧
    (r.cmd = 4 → r.count = 1 → free → room → reached → r.data.length = 2 →
      answered (.hostModify r) 0 htag [] fun t => asks 2 r.data t) ∧
    (∀ (x : HostResult) (xs : List HostResult), r.cmd = 5 → r.count = 0 → s.host.results = x :: xs →
      answered (.result r) x.status x.htag x.data fun t => t.host.results = if r.whole then xs else x :: xs) ∧
    (r.cmd = 5 → r.count = 0 → s.host.results = [] → answered (.result r) 7 0 [] fun _ => True) ∧
    (r.cmd = 6 → 0 < r.count → r.count ≤ 1024 →
      let n := r.addr % 16
      let k := min r.count (s.ringUnread n)
      answered (.rread r) 0 0 ((List.range k).map fun i => s.ringWord n (s.ringRd n + 4 * i)) fun t =>
        (r.whole = false → t.cel = s.cel ∧ t.ringRd n = s.ringRd n) ∧
        (r.whole = true → t.ringRd n = (s.ringRd n + 4 * k) % s.ringSize n ∨ k = 0)) ∧
    (r.cmd = 7 → r.count = 0 → answered (.hstat r) 0 0 [s.hostStatView, s.netEvt] fun _ => True) ∧
    (∀ v, r.cmd = 8 → r.count = 1 → free → room → r.data = [v] → r.addr % 16384 ∈ codeRegs →
      answered (.bwrite r) 0 htag [] fun t => wrote s t (r.addr % 16384) v ∧
        t.host.results = s.host.results ++ [⟨htag, 0, []⟩] ∧
        ∀ p ∈ s.bcastPorts, ∃ g, leaving t p g ∧ g.dst = 0x7F ∧ g.cls = 1 ∧ g.typ = 1 ∧
          g.payload = [requestWord (s.nextTag 0x7F) 1 (r.addr % 16384), v]) ∧
    (8 < r.cmd → r.cmd < 0x40 → refused (.hostUnknownCmd r) 2) ∧
    (exec .hcsAbort s = .next { s with host := { s.host with waits := none } })

/-- Loader mode and the flash: LSTAT and FREAD answer, an erase, a program and a reboot need the host key where one is
programmed and an idle flash, a write-enable goes out before an erase or a program, and an operation's end leaves
the sector erased or the bytes programmed. That REBOOT puts ERRA and ERRB back to not judged is the model's choice,
log entry 39; the flash and its authentication rest besides on log entries 28 and 41. -/
def Obligations.LoaderFlash : Prop :=
  ∀ (s : State) (r : HostReq), s.rested → s.on 5 = true →
    let here := s.loader = true ∧ r.crcOk = true ∧ r.flags < 2
    let answered := fun (i : Instr) (status : Nat) (ws : List Word) (also : State → Prop) =>
      ∃ t, exec i s = .next t ∧ t.host.resp = some ⟨status, 0, ws⟩ ∧ also t
    let guarded := fun (i : Instr) (n : Nat) (ok : State → Prop) =>
      (s.tru.hostKey ≠ .blank → s.authOk r n = false → answered i 4 [] fun t =>
        t.get F.STO_LDR_STAT.AUTHF = 1 ∧ t.boot = s.boot) ∧
      (s.tru.hostKey = .blank ∨ s.authOk r n = true → s.boot.flashOp.isSome → answered i 3 [] fun t => t.boot = s.boot) ∧
      (s.tru.hostKey = .blank ∨ s.authOk r n = true → s.boot.flashOp = none → answered i 0 [] fun t => ok t ∧
        (s.tru.hostKey ≠ .blank → t.get F.CHN_HOST_CNT.COUNT = r.counter % 2 ^ 32))
    let a := r.addr % flashSize
    let begun := fun (op : FlashOp) (t : State) => t.boot = { s.boot with flashOp := some op, flashSent := [.writeEnable, .op op] } ∧
      t.get F.STO_LDR_STAT.FBUSY = 1
    (here → r.cmd = 0x40 → r.count = 0 → answered (.lstat r) 0
      [s.reg A.STO_BOOT_STAT, s.reg A.STO_BOOT_INIT, s.reg A.STO_LDR_STAT, s.factoryH, s.factoryL] fun _ => True) ∧
    (here → r.cmd = 0x41 → r.count = 0 → a % 4096 = 0 → guarded (.ferase r) 0 (begun (.erase a))) ∧
    (here → r.cmd = 0x42 → 0 < r.count → r.count ≤ 64 → a % 4 = 0 → a % 256 + 4 * r.count ≤ 256 →
      r.data.length = r.count → guarded (.fwrite r) r.count (begun (.program a r.data))) ∧
    (here → r.cmd = 0x43 → 0 < r.count → r.count ≤ 1024 → a + 4 * r.count ≤ flashSize →
      answered (.fread r) 0 (s.flashWords a r.count) fun t => t.boot = s.boot) ∧
    (here → r.cmd = 0x44 → r.count = 0 → guarded (.reboot r) 0 fun t => t.boot = { s.boot with step := .copyA } ∧
      t.get F.STO_BOOT_STAT.ERRA = 1 ∧ t.get F.STO_BOOT_STAT.ERRB = 1) ∧
    (∀ err : Bool, s.boot.flashOp = none → exec (.flashDone err) s = .next s) ∧
    (∀ b : Nat, s.boot.flashOp = some (.erase b) → ∃ t, exec (.flashDone false) s = .next t ∧ t.boot.flashOp = none ∧
      t.get F.STO_LDR_STAT.FBUSY = 0 ∧ ∀ x, Mem.byte 0xFF t.boot.flash x =
        if b ≤ x ∧ x < b + 4096 then 0xFF else Mem.byte 0xFF s.boot.flash x) ∧
    (∀ (b : Nat) (ws : List Word), s.boot.flashOp = some (.program b ws) → ∃ t, exec (.flashDone false) s = .next t ∧
      t.boot.flashOp = none ∧ t.get F.STO_LDR_STAT.FBUSY = 0 ∧ ∀ x, Mem.byte 0xFF t.boot.flash x =
        if b ≤ x ∧ x < b + 4 * ws.length then Mem.byte 0xFF s.boot.flash x &&& (wordsBytes ws).getD (x - b) 0
        else Mem.byte 0xFF s.boot.flash x)

/-- The start sequence: the entry switches D4 on, the lock of the PLL switches D1, D5 and D6 on and reads the OTP, a
copy that fails is followed by the next or by loader mode, a copy that passes with empty lists starts the Innkeeper
at its entry, and TIME becomes valid. It rests on choices of the model besides: log entries 5 and 40. -/
def Obligations.StartSequence : Prop :=
  ∀ s : State, s.rested →
    let j := fun (second : Bool) (e : Ecc) => (copyJudge (copyBase second) (e == .uncorrectable) s).1
    let h := fun (second : Bool) => s.flashWords (copyBase second) 20
    (s.ptr.dev = .start → s.boot.step = .entry → s.ptr.nrstLow = false → ∃ t, exec .startEntry s = .next t ∧
      t.ptr.dom = s.ptr.dom ||| 0x010 ∧ t.boot = { s.boot with step := .pll }) ∧
    (s.boot.step ≠ .entry → exec .startEntry s = .next s) ∧
    (∀ vpp : Bool, s.boot.step = .pll → ∃ t, exec (.pllLock vpp) s = .next t ∧ t.ptr.dom = s.ptr.dom ||| 0x062 ∧
      t.tru.vpp = vpp ∧ t.boot.mark = none ∧
      (t.boot.step = .copyA ∧ t.get F.STO_BOOT_STAT.LO_VALID = 1 ∨
        t.boot.step = .selfTest ∧ t.get F.STO_BOOT_STAT.SELFTEST = 1 ∧ t.tru.item = 1)) ∧
    (∀ vpp : Bool, s.boot.step ≠ .pll → exec (.pllLock vpp) s = .next s) ∧
    (∀ e : Ecc, s.loading = false → exec (.copyJudged e) s = .next s) ∧
    (∀ e : Ecc, s.boot.step = .copyA → j false e ≠ 0 → ∃ t, exec (.copyJudged e) s = .next t ∧ t.boot.step = .copyB ∧
      t.get F.STO_BOOT_STAT.ERRA = j false e) ∧
    (∀ e : Ecc, s.boot.step = .copyB → j true e ≠ 0 → ∃ t, exec (.copyJudged e) s = .next t ∧ t.boot.step = .loader ∧
      t.get F.STO_BOOT_STAT.ERRB = j true e ∧ t.get F.STO_BOOT_STAT.LOADER = 1 ∧ t.get F.CHN_HOST_STAT.LOADER = 1 ∧
      t.ink.prog = [] ∧ t.ink.data = []) ∧
    (∀ (second : Bool) (e : Ecc), s.boot.step = (if second then .copyB else .copyA) → j second e = 0 → s.ptr.dev = .start →
      secLen (h second) 0 = 0 → secLen (h second) 4 = 0 → secLen (h second) 5 = 0 →
      ∃ t, exec (.copyJudged e) s = .next t ∧ t.boot.step = .done ∧
        t.get F.STO_BOOT_STAT.COPY = (if second then 2 else 1) ∧ t.get F.STO_BOOT_STAT.LOADER = 0 ∧
        t.reg A.STO_BOOT_VER = (h second).getD 4 0 ∧ t.ink.state = .running ∧
        t.ink.pc = BitVec.ofNat 14 ((h second).getD 5 0).toNat ∧ t.ink.stack = [] ∧
        t.ink.prog = Mem.setWords 0 [] 0 (s.section (copyBase second) (h second) 1) ∧
        t.ink.data = Mem.setWords 0 [] 0 (s.section (copyBase second) (h second) 2)) ∧
    (s.on 4 = true → s.on 5 = true → ∃ t, exec .timeLoad s = .next t ∧ t.get F.PTR_STAT.TVALID = 1 ∧
      only [F.PTR_STAT.TVALID] s s t)

/-- Satellite transactions: a program request starts with its bytes, or is held while a round's work is under way; an
entry that is not valid, a short, a bus that does not run, and a silent bus each end one with their result; a reply
with its right CRC-8 is stored with it, a bad one is tried again and at last stored too; and a write while another
is under way, or of a broadcast that asks for a reply, is refused. It rests on choices of the model besides: log
entry 65. -/
def Obligations.SatTransactions : Prop :=
  ∀ s : State, s.rested →
    let x := s.sat
    let taken := x.work = .xact ∨ x.search.isSome
    let begun := fun (v : Word) (bytes : List Byte) (t : State) => t.sat.work = .xact ∧ t.sat.tries = 0 ∧
      t.sat.sent = bytes ++ satRequest (BitVec.ofNat 8 (F.SAT_XCTL.FUNC.read v))
        (s.xdat.take (min 8 (F.SAT_XCTL.NPAR.read v))) ∧ t.get F.SAT_STAT.BUSY = 1 ∧ t.sat.xcfg = s.reg A.SAT_CFG
    let silent := ∃ o, x.due = some o ∧ o.present = false ∧ o.attn = false
    let ends := fun (i : Instr) (res : Nat) (also : State → Prop) => ∃ t, exec i s = .next t ∧
      (¬ silent → t.get F.SAT_XSTAT.RES = res) ∧ t.get F.SAT_EVT.XDONE = 1 ∧ also t
    let nrep := s.get F.SAT_XCTL.NREP
    (∀ v, s.on 5 = true → F.SAT_XCTL.GO.read v = 1 → ¬ taken →
      ¬ (F.SAT_XCTL.BC.read v = 1 ∧ F.SAT_XCTL.NREP.read v ≠ 0) →
      (s.bit F.SAT_STAT.SHORT = true → ends (.satTransaction v) 5 fun _ => True) ∧
      (s.bit F.SAT_STAT.SHORT = false → s.satMay = false → ends (.satTransaction v) 4 fun _ => True) ∧
      (s.satRuns = true → x.work = .idle → x.round = none → F.SAT_XCTL.BC.read v = 1 →
        ∃ t, exec (.satTransaction v) s = .next t ∧ begun v [0xC9] t) ∧
      (s.satRuns = true → x.work = .idle → x.round = none → F.SAT_XCTL.BC.read v = 0 →
        s.podValid (F.SAT_XCTL.POD.read v) = true →
        ∃ t, exec (.satTransaction v) s = .next t ∧ begun v (0xC5 :: s.podBytes (F.SAT_XCTL.POD.read v)) t) ∧
      (s.satRuns = true → x.work = .idle → x.round = none → F.SAT_XCTL.BC.read v = 0 →
        s.podValid (F.SAT_XCTL.POD.read v) = false → ends (.satTransaction v) 1 fun _ => True)) ∧
    (∀ v, s.on 5 = true → F.SAT_XCTL.GO.read v = 1 → s.satRuns = true → ¬ taken →
      ¬ (F.SAT_XCTL.BC.read v = 1 ∧ F.SAT_XCTL.NREP.read v ≠ 0) → x.work ≠ .idle ∨ x.round.isSome →
      ∃ t, exec (.satTransaction v) s = .next t ∧ only [Fld.whole A.SAT_XCTL] s
        { s with sat := { x with xactHeld := true } } t) ∧
    (∀ v, s.on 5 = true → F.SAT_XCTL.GO.read v = 0 → ¬ taken → ∃ t, exec (.satTransaction v) s = .next t ∧
      t.get F.SAT_XCTL.NREP = F.SAT_XCTL.NREP.read v ∧ t.get F.SAT_XCTL.NPAR = min 8 (F.SAT_XCTL.NPAR.read v) ∧
      t.get F.SAT_XCTL.FUNC = F.SAT_XCTL.FUNC.read v ∧ t.get F.SAT_XCTL.POD = F.SAT_XCTL.POD.read v ∧
      only [Fld.whole A.SAT_XCTL] s s t) ∧
    (∀ v, s.on 5 = true → taken ∨ (F.SAT_XCTL.GO.read v = 1 ∧ F.SAT_XCTL.BC.read v = 1 ∧ F.SAT_XCTL.NREP.read v ≠ 0) →
      ∃ t, exec (.satTransaction v) s = .next t ∧ t.get F.SAT_EVT.CFG_REFUSED = 1 ∧
        only [F.SAT_EVT.CFG_REFUSED] s s t) ∧
    (∀ o : SatObs, x.work = .xact → x.spu = false → x.xactHeld = false →
      let heard := o.present = true ∨ o.attn = true
      let reply := padTo 0xFF (nrep + 1) o.reply
      let good := crc8 (reply.take nrep) = reply.getD nrep 0 ∧ ∃ b ∈ reply, b ≠ 0xFF
      let stored := fun (t : State) => t.xdat = reply ++ s.xdat.drop (nrep + 1)
      (¬ heard → ends (.satTransactionEnd o) 3 fun _ => True) ∧
      (heard → nrep ≠ 0 → good → ends (.satTransactionEnd o) 0 stored) ∧
      (heard → nrep ≠ 0 → ¬ good → x.tries < F.SAT_CFG.RETRY.read x.xcfg →
        ∃ t, exec (.satTransactionEnd o) s = .next t ∧ t.sat = { x with tries := x.tries + 1 } ∧
          t.get F.SAT_CNT.CRC = (s.get F.SAT_CNT.CRC + 1) % 65536 ∧ t.get F.SAT_STAT.ATTN = o.attn.toNat) ∧
      (heard → nrep ≠ 0 → ¬ good → F.SAT_CFG.RETRY.read x.xcfg ≤ x.tries → ends (.satTransactionEnd o) 2 stored) ∧
      (heard → nrep = 0 → s.bit F.SAT_XCTL.SPU = false → ends (.satTransactionEnd o) 0 fun _ => True) ∧
      (heard → nrep = 0 → s.bit F.SAT_XCTL.SPU = true → s.satRuns = true →
        ∃ t, exec (.satTransactionEnd o) s = .next t ∧ t.sat = { x with spu := true })) ∧
    (x.work = .xact → x.spu = true → x.xactHeld = false → ends .spuEnd 0 fun _ => True) ∧
    (x.spu = false → exec .spuEnd s = .next s)

/-- Poll rounds and the bus's ends: a round starts with ALL and SAMPLE and reads each valid entry, and one that falls
due in other work waits; a good READ_MEAS is filed, one without reply counts as missed and loses the pod at LOSTN, a
found pod's attention is cleared next, a short and a disable end the work, a retry shows presence and attention and
ends the short where it finds the bus high, and freeing empties entries. It rests on choices of the model besides:
log entries 5 and 65. -/
def Obligations.SatPolls : Prop :=
  ∀ s : State, s.rested →
    let x := s.sat
    let good := fun (o : SatObs) => (o.present = true ∨ o.attn = true) ∧
      crc8 ((padTo 0xFF 7 o.reply).take 6) = (padTo 0xFF 7 o.reply).getD 6 0 ∧ ∃ b ∈ padTo 0xFF 7 o.reply, b ≠ 0xFF
    let filed := fun (n : Nat) (o : SatObs) (t : State) =>
      let b := fun k => ((padTo 0xFF 7 o.reply).getD k 0).toNat
      t.reg (A.SAT_RD n) = Word.ofNat ((b 4 * 256 + b 5) * 65536 + b 2 * 256 + b 3) ∧ t.get (F.SAT_RS.FLAGS n) = b 0 ∧
      t.get (F.SAT_RS.SEQ n) = b 1 ∧ t.get (F.SAT_RS.MISS n) = 0 ∧ t.rbit A.SAT_LOSTP n = false
    (∀ o : SatObs, s.satRuns = true → s.bit F.SAT_CTRL.POLL = true → x.work = .idle → x.round = none →
      o.present = true ∨ o.attn = true → ∃ t, exec (.pollRound o) s = .next t ∧ t.sat.work = .sample ∧
        t.sat.spu = true ∧ t.sat.round = some s.pods ∧ t.sat.sent = 0xC9 :: satRequest 0x12 [] ∧
        t.get F.SAT_STAT.PRESENT = o.present.toNat ∧ t.get F.SAT_STAT.ATTN = o.attn.toNat) ∧
    (∀ o : SatObs, s.satRuns = true → s.bit F.SAT_CTRL.POLL = true → s.satActive = true →
      exec (.pollRound o) s = .next { s with sat := { x with due := some o } }) ∧
    (∀ o : SatObs, s.satRuns = true → s.bit F.SAT_CTRL.POLL = true → x.work = .idle → x.round = none → x.xactHeld = false →
      o.present = false → o.attn = false → ∃ t, exec (.pollRound o) s = .next t ∧ t.get F.SAT_XSTAT.RES = 3) ∧
    (∀ o : SatObs, s.satRuns = false ∨ s.bit F.SAT_CTRL.POLL = false → exec (.pollRound o) s = .next s) ∧
    (∀ (ns rest : List Nat) (n : Nat), s.satRuns = true → x.work = .sample → x.spu = true → x.xactHeld = false →
      x.round = some ns → ns.filter s.podValid = n :: rest → ∃ t, exec .spuEnd s = .next t ∧ t.sat.work = .read n ∧
        t.sat.spu = false ∧ t.sat.round = some rest ∧ t.sat.sent = s.satSelect n 0x21 []) ∧
    (∀ (o : SatObs) (n : Nat), x.work = .read n → n < 32 → good o →
      ∃ t, exec (.podReadEnd o) s = .next t ∧ filed n o t) ∧
    (∀ (o : SatObs) (n : Nat), x.work = .read n → n < 32 → o.present = false → o.attn = false →
      ∃ t, exec (.podReadEnd o) s = .next t ∧ t.get (F.SAT_RS.MISS n) = min (s.get (F.SAT_RS.MISS n) + 1) 15 ∧
        (x.xactHeld = false → t.get F.SAT_XSTAT.RES = 3) ∧
        (s.get (F.SAT_RS.MISS n) < 15 → t.get (F.SAT_RS.MISS n) = F.SAT_CFG.LOSTN.read x.cfg →
          t.rbit A.SAT_LOSTP n = true ∧ t.get F.SAT_EVT.LOST = 1)) ∧
    (∀ (o : SatObs) (n : Nat), x.work = .found n → n < 32 → s.satRuns = true → good o → ∃ t, exec (.podReadEnd o) s = .next t ∧
      filed n o t ∧ t.sat.work = .clear n ∧ t.sat.sent = s.satSelect n 0x56 [] ∧ t.rbit A.SAT_ATTN n = true ∧
      (((padTo 0xFF 7 o.reply).getD 0 0).getLsbD 0 = true → t.get F.SAT_EVT.NEWPOD = 1) ∧
      (((padTo 0xFF 7 o.reply).getD 0 0).getLsbD 1 = true → t.get F.SAT_EVT.ALARM = 1)) ∧
    (s.satRuns = true → ∃ t, exec .satShort s = .next t ∧ t.get F.SAT_STAT.SHORT = 1 ∧ t.get F.SAT_EVT.SHORT = 1 ∧
      t.sat.work = .idle ∧ t.sat.round = none ∧ t.sat.spu = false ∧ t.get F.SAT_STAT.BUSY = 0 ∧
      (x.work = .xact → t.get F.SAT_XSTAT.RES = 5 ∧ t.get F.SAT_EVT.XDONE = 1)) ∧
    (∀ o : RetryObs, s.satMay = true → s.bit F.SAT_STAT.SHORT = true →
      ∃ t, exec (.shortRetry o) s = .next t ∧ t.get F.SAT_STAT.SHORT = (if o.high then 0 else 1) ∧
        t.get F.SAT_STAT.PRESENT = o.reset.present.toNat ∧ t.get F.SAT_STAT.ATTN = o.reset.attn.toNat ∧
        (o.reset.attn = true → t.get F.SAT_EVT.ATTN = 1) ∧
        only [F.SAT_STAT.SHORT, F.SAT_STAT.PRESENT, F.SAT_STAT.ATTN, F.SAT_EVT.ATTN] s s t) ∧
    (∀ o : RetryObs, s.satMay = false ∨ s.bit F.SAT_STAT.SHORT = false →
      exec (.shortRetry o) s = .next s) ∧
    (s.on 5 = true → s.bit F.SAT_CTRL.EN = true → ∃ t, exec .satDisable s = .next t ∧ t.get F.SAT_CTRL.EN = 0 ∧
      t.sat.round = none ∧ t.sat.search = none ∧ t.sat.spu = false ∧
      (x.work = .xact → x.spu = true → t.get F.SAT_XSTAT.RES = 4 ∧ t.get F.SAT_EVT.XDONE = 1)) ∧
    (∀ v : Word, s.on 5 = true → ∃ t, exec (.podFree v) s = .next t ∧ ∀ n, n < 32 →
      (v.getLsbD n = true → s.podValid n = true → t.podValid n = false ∧ t.reg (A.SAT_POD_H n) = 0 ∧
        t.reg (A.SAT_POD_L n) = 0 ∧ t.rbit A.SAT_LOSTP n = false ∧ t.rbit A.SAT_ATTN n = false) ∧
      (v.getLsbD n = false → t.podValid n = s.podValid n ∧ t.reg (A.SAT_POD_H n) = s.reg (A.SAT_POD_H n) ∧
        t.reg (A.SAT_POD_L n) = s.reg (A.SAT_POD_L n)))

/-- Satellite searches: SRCH and ASRCH start one from the empty prefix, hold it while a round's work is under way,
refuse it while other work of the program is, and abort it where the bus does not run, which is the model's choice
(log entry 65); a pass that reaches the end of its last branch files the pod and ends the search with SRCH_FAIL and
SRCH_BUSY 0; a pass that meets no answer starts the search again, and beyond RSTMAX ends it with SRCH_FAIL 1. -/
def Obligations.SatSearches : Prop :=
  ∀ s : State, s.rested →
    let x := s.sat
    let taken := x.work = .xact ∨ x.search.isSome
    let asked := fun (i : Instr) (attn : Bool) =>
      (s.on 5 = true → s.satRuns = true → ¬ taken → x.work = .idle → x.round = none → ∃ t, exec i s = .next t ∧
        t.sat.work = .search ∧ t.sat.search = some ⟨attn, false, [[]], [], 0⟩ ∧ t.get F.SAT_STAT.SRCH_BUSY = 1 ∧
        t.get F.SAT_STAT.BUSY = 1 ∧ t.sat.sent = [if attn then 0xA6 else 0xA3]) ∧
      (s.on 5 = true → s.satRuns = true → ¬ taken → x.work ≠ .idle ∨ x.round.isSome →
        exec i s = .next { s with sat := { x with searchHeld :=
          (if attn ∈ x.searchHeld then x.searchHeld else x.searchHeld ++ [attn]) } }) ∧
      (s.on 5 = true → taken → ∃ t, exec i s = .next t ∧ t.get F.SAT_EVT.CFG_REFUSED = 1 ∧
        only [F.SAT_EVT.CFG_REFUSED] s s t) ∧
      (s.on 5 = true → s.satRuns = false → ¬ taken → ∃ t, exec i s = .next t ∧ t.get F.SAT_STAT.SRCH_ABORT = 1 ∧
        t.get F.SAT_STAT.SRCH_FAIL = 0 ∧ t.get F.SAT_EVT.SRCH_DONE = 1 ∧ t.sat = x)
    let last := x.searchHeld = [] ∧ x.attn = false
    asked .satSrch false ∧ asked .satAsrch true ∧
    (∀ (o : SatObs) (cells : List (BitVec 16)) (q : SatSearch) (id : List (BitVec 4)), x.work = .search →
      x.search = some q → searchSteps (padTo (BitVec.allOnes 16) 16 cells) (q.branches.headD []) [] q.branches.tail =
        some (id, []) →
      let hi := nibblesWord (id.take 8)
      let lo := nibblesWord (id.drop 8)
      let bytes := (wordBytes hi).reverse ++ (wordBytes lo).reverse
      crc8 (bytes.take 7) = bytes.getD 7 0 → (∃ n, n < 32 ∧ s.podValid n = false) →
      ∃ t, exec (.searchPassEnd o cells) s = .next t ∧ t.get F.SAT_EVT.SRCH_DONE = 1 ∧
        t.get F.SAT_STAT.SRCH_FAIL = 0 ∧ (last → t.get F.SAT_STAT.SRCH_BUSY = 0) ∧
        ∃ n, n < 32 ∧ t.podValid n = true ∧ t.reg (A.SAT_POD_H n) = hi ∧ t.reg (A.SAT_POD_L n) = lo) ∧
    (∀ (o : SatObs) (cells : List (BitVec 16)) (q : SatSearch), x.work = .search → x.search = some q →
      searchSteps (padTo (BitVec.allOnes 16) 16 cells) (q.branches.headD []) [] q.branches.tail = none →
      ∃ t, exec (.searchPassEnd o cells) s = .next t ∧ t.get F.SAT_EVT.SRCH_RESTART = 1 ∧
        t.get F.SAT_CNT.RESTARTS = (s.get F.SAT_CNT.RESTARTS + 1) % 65536 ∧
        (q.restarts < F.SAT_CFG.RSTMAX.read x.cfg →
          t.sat.search = some { q with restarts := q.restarts + 1, branches := [[]] }) ∧
        (F.SAT_CFG.RSTMAX.read x.cfg ≤ q.restarts → t.get F.SAT_EVT.SRCH_DONE = 1 ∧
          (last → t.get F.SAT_STAT.SRCH_FAIL = 1 ∧ t.get F.SAT_STAT.SRCH_BUSY = 0)))

/-- The Guard's faults: a sample that shows a judged condition and brings its filter's count to N latches its bit and
its source, stamps TIME and takes the permits away, in every state in which its comparator runs; any other sample
moves the count alone (R345, R346). A check of GCLK out of ±12.5 %, a discrepancy counter at K and a bad readback
latch theirs. A write of 1 clears a bit whose cause has ended, and is refused otherwise, after what the samples up
to it bring (R364). It rests on choices of the model besides: log entries 5, 58 and 83. -/
def Obligations.GuardFaults : Prop :=
  ∀ s : State, s.rested → s.on 6 = true →
    let latched := fun (i : Instr) (bit : Nat) (src : State → Prop) => ∃ t, exec i s = .next t ∧
      t.rbit A.GRD_FLT bit = true ∧ src t ∧ t.lp = false ∧ t.grdOk = false ∧
      (s.rbit A.GRD_FLT bit = false → t.get F.GRD_EVT.FAULT = 1 ∧ t.reg A.GRD_FLT_TSL = s.grdTime.extractLsb' 0 32 ∧
        t.reg A.GRD_FLT_TSH = s.grdTime.extractLsb' 32 32)
    let any := fun (_ : State) => True
    let trips := fun (m : GuardSample) (bit : Nat) (src : State → Prop) => s.grdWatches m.c = true → s.grdJudges m.c = true →
      s.grdShows 0 m = true → s.filtCount m.c + 1 = s.filtNeeds m.c → latched (.guardFilterTrip [m]) bit src
    (∀ n x y, n < 24 → trips ⟨.ov n, x, y⟩ 0 (fun t => t.rbit A.GRD_OVC n = true) ∧
      trips ⟨.uv n, x, y⟩ 1 (fun t => t.rbit A.GRD_UVC n = true)) ∧
    (∀ k x y, k < 4 → trips ⟨.th k, x, y⟩ 2 fun t => t.rbit A.GRD_FSRC (8 + k) = true) ∧
    (∀ (pos : Bool) (x y : Int), trips ⟨.oc pos, x, y⟩ 3 fun t => t.rbit A.GRD_FSRC (if pos then 0 else 1) = true) ∧
    (∀ x y, trips ⟨.die, x, y⟩ 4 any) ∧
    (∀ m : GuardSample, s.grdWatches m.c = true → s.filtTrips m = false → ∃ t, exec (.guardFilterTrip [m]) s = .next t ∧
      t = { s with grd := { s.grd with filt := t.grd.filt } } ∧ t.filtOf m.c = some ⟨m, if s.grdJudges m.c = false then 0
        else if s.grdShows 0 m = true then min (s.filtNeeds m.c) (s.filtCount m.c + 1) else s.filtCount m.c - 1⟩) ∧
    (∀ m : GuardSample, s.grdWatches m.c = false → exec (.guardFilterTrip [m]) s = .next s) ∧
    (∀ n : Nat, n < 875000 ∨ 1125000 < n → latched (.gclkCheck n) 12 any) ∧
    (∀ n : Nat, 875000 ≤ n → n ≤ 1125000 →
      exec (.gclkCheck n) s = .next { s with grd := { s.grd with gclkGood := min 4 (s.grd.gclkGood + 1) } }) ∧
    (∀ k, s.grdJudging = true → s.pairEn k = true → k < 4 → s.discLimit k ≤ s.grd.disc.getD k 0 →
      latched (.discFault k) 5 fun t => t.rbit A.GRD_FSRC (24 + k) = true) ∧
    (s.soaExpected = false → latched (.readbackMismatch .soa true) 10 fun t => t.soaPin = true) ∧
    (s.grdOk = false → latched (.readbackMismatch .sob true) 11 fun t => t.sobPin = true) ∧
    (s.soaExpected = true → ∃ t, exec (.readbackMismatch .soa false) s = .next t ∧ t.get F.GRD_STAT.SOA_DEAD = 1 ∧
      t.get F.GRD_EVT.OUT_DEAD = 1 ∧ t.reg A.GRD_FLT = s.reg A.GRD_FLT ∧ t.soaPin = false) ∧
    (s.grdOk = true → ∃ t, exec (.readbackMismatch .sob false) s = .next t ∧ t.get F.GRD_STAT.SOB_DEAD = 1 ∧
      t.get F.GRD_EVT.OUT_DEAD = 1 ∧ t.reg A.GRD_FLT = s.reg A.GRD_FLT ∧ t.sobPin = false) ∧
    (∃ t, exec (.readbackAgree .soa) s = .next t ∧ t.get F.GRD_STAT.SOA_DEAD = 0 ∧ t.soaPin = s.soaDriven) ∧
    (∃ t, exec (.readbackAgree .sob) s = .next t ∧ t.get F.GRD_STAT.SOB_DEAD = 0 ∧ t.sobPin = s.grdOk) ∧
    (∀ v : Word, s.on 5 = true → ∃ t, exec (.grdFltClear v []) s = .next t ∧ ∀ b, b < 13 →
      t.rbit A.GRD_FLT b = (s.rbit A.GRD_FLT b && !(v.getLsbD b && s.grdEnded b)) ∧
      (v.getLsbD b = true → s.rbit A.GRD_FLT b = true → s.grdEnded b = true → t.get F.GRD_EVT.CLEARED = 1) ∧
      (v.getLsbD b = true → s.rbit A.GRD_FLT b = true → s.grdEnded b = false → t.get F.GRD_EVT.CLR_REFUSED = 1)) ∧
    (∀ (v : Word) (ms : List GuardSample), ∃ u, exec (.guardFilterTrip ms) s = .next u ∧
      exec (.grdFltClear v ms) s = exec (.grdFltClear v []) u)

/-- The Guard's inputs and outputs: a level held for the debounce time opens or closes its channel, a shorter one does
not; a demand that begins sets DEMAND, removes LP where ROLE is set and latches where LATCH is; the 1 ms tick counts
discrepancies and the both-open runs, latches a counter at K and, at 21 ticks, passes the start-up test; losing the
loop takes GRD_OK away; and a STANDBY condition found twice latches. In every state: any latched fault takes both
permits away, the part drives SOA exactly while INK_SAFE.SOA, a running Innkeeper and GRD_OK hold (R313), SOB
follows GRD_OK (R341), and with D6 off no permit holds. It rests on choices of the model besides: log entries 5, 58,
69 and 83. -/
def Obligations.GuardInputs : Prop :=
  (∀ s : State, (s.on 6 = false → s.lp = false ∧ s.grdOk = false) ∧
    (∀ b, s.rbit A.GRD_FLT b = true → s.lp = false ∧ s.grdOk = false ∧ s.soaDriven = false) ∧
    (s.soaDriven = true ↔ s.get F.INK_SAFE.SOA = 1 ∧ (s.ink.state = .running ∨ s.ink.state = .waiting) ∧
      s.grdOk = true) ∧
    (s.grd.sobRead = none → s.sobPin = s.grdOk) ∧ (s.grd.soaRead = none → s.soaPin = s.soaDriven)) ∧
  ∀ s : State, s.rested →
    let held := fun (k : Nat) (b : Bool) (o : SiObs) =>
      (if s.grd.si.getLsbD (2 * k + b.toNat) = o.level then s.grd.held.getD (2 * k + b.toNat) 0 else 0) + o.cycles
    (∀ (k : Nat) (b : Bool) (o : SiObs), s.grdJudging = true → s.pairEn k = true → k < 4 → held k b o < s.siNeeds k →
      ∃ t, exec (.siDebounce k b o) s = .next t ∧ t = { s with grd := { s.grd with
        si := t.grd.si, held := s.grd.held.set (2 * k + b.toNat) (held k b o) } } ∧
        t.grd.si.getLsbD (2 * k + b.toNat) = o.level) ∧
    (∀ (k : Nat) (b : Bool) (o : SiObs), s.grdJudging = true → s.pairEn k = true → k < 4 → s.siNeeds k ≤ held k b o →
      ∃ t, exec (.siDebounce k b o) s = .next t ∧
        t.siOpen k b = (o.level == (b && (s.grdWord (8 + k)).getLsbD 28)) ∧ t.siOpen k (!b) = s.siOpen k (!b) ∧
        (s.demanding k = false → t.siOpen k b = true → t.get F.GRD_EVT.DEMAND = 1 ∧
          (s.pairRole k = true → t.lp = false ∧ t.grdOk = false) ∧
          (s.pairRole k = true → s.pairLatch k = true → t.rbit A.GRD_FLT 6 = true ∧ t.rbit A.GRD_FSRC (16 + k) = true))) ∧
    (∀ (k : Nat) (b : Bool) (o : SiObs), s.grdJudging = false ∨ s.pairEn k = false → ∃ t,
      exec (.siDebounce k b o) s = .next t ∧ t = { s with grd := { s.grd with si := t.grd.si, held := t.grd.held } }) ∧
    (s.on 6 = true → s.grdJudging = true → ∃ t, exec (.guardTick []) s = .next t ∧
      t.grd.cycles = 4000 * (s.grd.cycles / 4000 + 1) ∧
      let sut := if s.pairEn 0 ∧ s.pairOpen 0 then min 21 (s.grd.sutRun + 1) else 0
      let disc := fun k => if s.disagreeing k then s.grd.disc.getD k 0 + 1 else 0
      t.grd.sutRun = sut ∧ (sut = 21 → t.get F.GRD_STAT.SUT_DONE = 1 ∧ (s.bit F.GRD_STAT.SUT_DONE = false →
        t.get F.GRD_EVT.SUT_PASS = 1)) ∧
      (∀ k, k < 4 → t.grd.disc.getD k 0 = disc k ∧ (s.pairEn k = true → s.discLimit k ≤ disc k →
        t.rbit A.GRD_FLT 5 = true ∧ t.rbit A.GRD_FSRC (24 + k) = true ∧ t.lp = false)) ∧
      ((∀ k, k < 4 → s.pairEn k = true → disc k < s.discLimit k) → sut < 21 → t.regs = s.regs)) ∧
    (s.on 6 = false → exec (.guardTick []) s = .next s) ∧
    (s.grdJudging = true → s.grd.sutRun = 21 → s.bit F.GRD_STAT.SUT_DONE = false → ∃ t, exec .sutPass s = .next t ∧
      t.get F.GRD_STAT.SUT_DONE = 1 ∧ t.get F.GRD_EVT.SUT_PASS = 1) ∧
    (s.grd.sutRun ≠ 21 → exec .sutPass s = .next s) ∧
    (s.on 6 = true → s.bit F.GRD_STAT.FLI_OK = true → ∃ t, exec .loopLost s = .next t ∧ t.get F.GRD_STAT.FLI_OK = 0 ∧
      t.get F.GRD_EVT.LOOP_LOST = 1 ∧ t.get F.GRD_LOOP.LOSSES = (s.get F.GRD_LOOP.LOSSES + 1) % 65536 ∧
      t.grdOk = false ∧ t.reg A.GRD_FLT = s.reg A.GRD_FLT ∧ (s.grdOk = true → t.get F.GRD_EVT.OK_CHANGE = 1)) ∧
    (s.on 6 = true → s.bit F.GRD_STAT.FLI_OK = false → ∃ t, exec .loopOk s = .next t ∧ t.get F.GRD_STAT.FLI_OK = 1 ∧
      t.get F.GRD_EVT.LOOP_OK = 1) ∧
    (s.on 6 = true → s.ptr.dev = .standby →
      exec .standbyCheck s = .next { s with grd := { s.grd with checking := true } }) ∧
    (s.ptr.dev ≠ .standby → exec .standbyCheck s = .next s) ∧
    (∀ ms : List GuardSample, s.on 6 = true → s.grd.checking = true →
      let twice := fun c => (∃ m ∈ ms, m.c = c ∧ s.grdShows 0 m = true) ∧ c ∈ s.grd.found
      ∃ t, exec (.standbyCheckEnd ms) s = .next t ∧ t.grd.checking = false ∧
        (∀ n, n < 24 → (s.grdWord 2).getLsbD n = true → twice (.ov n) →
          t.rbit A.GRD_FLT 0 = true ∧ t.rbit A.GRD_OVC n = true ∧ t.get F.GRD_EVT.STBY_FAULT = 1) ∧
        (∀ n, n < 24 → (s.grdWord 2).getLsbD n = true → twice (.uv n) →
          t.rbit A.GRD_FLT 1 = true ∧ t.rbit A.GRD_UVC n = true ∧ t.get F.GRD_EVT.STBY_FAULT = 1) ∧
        (∀ k, k < 4 → (s.grdWord 4).getLsbD k = true → twice (.th k) →
          t.rbit A.GRD_FLT 2 = true ∧ t.rbit A.GRD_FSRC (8 + k) = true ∧ t.get F.GRD_EVT.STBY_FAULT = 1) ∧
        (twice .die → t.rbit A.GRD_FLT 4 = true ∧ t.get F.GRD_EVT.STBY_FAULT = 1)) ∧
    (∀ ms : List GuardSample, s.grd.checking = false → exec (.standbyCheckEnd ms) s = .next s)

/-- The windowed watchdog: a window opens with the next challenge, which INK_WDC shows as FRESH; a correct response in
it arms the watchdog and closes the window; an early, a wrong and a missing response latch their fault, disarm it
and take GRD_OK away; while it is disarmed a wrong one only counts. It rests on choices of the model besides: log
entry 5. -/
def Obligations.GuardWatchdog : Prop :=
  ∀ s : State, s.rested →
    let faulted := fun (i : Instr) (bit : Nat) => ∃ t, exec i s = .next t ∧ t.rbit A.GRD_FLT bit = true ∧
      t.get F.GRD_WD.FAILS = min (s.get F.GRD_WD.FAILS + 1) 255 ∧ t.get F.GRD_WD.STATE = 0 ∧
      t.get F.GRD_STAT.WD_ARMED = 0 ∧ t.grd.window = false ∧ t.lp = false ∧ t.grdOk = false
    (∀ n : Nat, s.wdRuns = true → s.wdState ≠ 2 → ∃ t, exec (.wdWindowOpen n) s = .next t ∧
      t.grd.chal = lfsrSteps n s.grd.lfsr ∧ t.grd.lfsr = lfsrSteps n s.grd.lfsr ∧ t.grd.window = true ∧
      t.get F.INK_WDC.CHAL = (lfsrSteps n s.grd.lfsr).toNat ∧ t.get F.INK_WDC.FRESH = 1 ∧
      t.wdState = (if s.wdState = 1 then 2 else s.wdState) ∧
      t.get F.GRD_WD.FAILS = (if s.wdState = 0 ∧ s.grd.window = true ∧ s.bit F.INK_WDC.FRESH = true then
        min (s.get F.GRD_WD.FAILS + 1) 255 else s.get F.GRD_WD.FAILS)) ∧
    (∀ n : Nat, s.wdRuns = false ∨ s.wdState = 2 → exec (.wdWindowOpen n) s = .next s) ∧
    (s.wdRuns = true → s.wdState = 2 → faulted .wdLate 8) ∧
    (s.wdRuns = false ∨ s.wdState ≠ 2 → exec .wdLate s = .next s) ∧
    (s.grd.resp = [] → exec .wdResponse s = .next s) ∧
    (∀ (r : BitVec 16) (rs : List (BitVec 16)), s.grd.resp = r :: rs → s.wdRuns = true →
      let right := s.grd.window = true ∧ r = wdAnswer s.grd.chal
      (s.wdState = 1 → faulted .wdResponse 7) ∧
      (s.wdState = 2 → ¬ right → faulted .wdResponse 9) ∧
      (s.wdState = 0 ∨ s.wdState = 2 → right → ∃ t, exec .wdResponse s = .next t ∧ t.wdState = 1 ∧
        t.get F.GRD_STAT.WD_ARMED = 1 ∧ t.get F.GRD_WD.OKS = (s.get F.GRD_WD.OKS + 1) % 65536 ∧
        t.grd.window = false ∧ t.grd.resp = rs ∧ t.reg A.GRD_FLT = s.reg A.GRD_FLT) ∧
      (s.wdState = 0 → ¬ right → ∃ t, exec .wdResponse s = .next t ∧ t.wdState = 0 ∧
        t.get F.GRD_WD.FAILS = min (s.get F.GRD_WD.FAILS + 1) 255 ∧ t.reg A.GRD_FLT = s.reg A.GRD_FLT))

/-- The commit: the unlock is remembered with its Guard time; within 10 ms of Guard time from it, 40,000 cycles of GCLK,
a write of GRD_PCRC's value with a valid block not yet committed requests the record and stands in COMMIT 3; any
other write to GRD_COMMIT sets COMMIT_ERR and changes nothing else. Each write stands somewhere in the present
millisecond of Guard time (the model's choice, log entry 69). The same holds of a write on any path and of STE. -/
def Obligations.GuardCommit : Prop :=
  ∀ (s : State) (v : Word), s.rested → s.on 5 = true → s.on 6 = true →
    let present := fun (c : Nat) => s.grd.cycles ≤ c ∧ c / 4000 = s.grd.cycles / 4000
    let accepted := fun (c : Nat) => (∃ u, s.grd.unlockedAt = some u ∧ c ≤ u + 40000) ∧ s.get F.GRD_STAT.BLK = 1 ∧
      (s.get F.GRD_STAT.COMMIT = 0 ∨ s.get F.GRD_STAT.COMMIT = 2) ∧ v = s.reg A.GRD_PCRC
    (∃ t, exec (.grdUnlk v) s = .next t ∧ present t.grd.cycles ∧ t = { s with free := t.free, grd := { s.grd with
      cycles := t.grd.cycles
      unlockedAt := if F.GRD_UNLK.KEY.read v = 0xC011 then some t.grd.cycles else s.grd.unlockedAt } }) ∧
    (∃ t, exec (.grdCommit v) s = .next t ∧ let c := t.grd.cycles
      present c ∧
      (accepted c → t.get F.GRD_STAT.COMMIT = 3 ∧ t.grd.commitPrev = s.get F.GRD_STAT.COMMIT ∧
        t.led.q21 = some (padTo 0 62 (v :: timeWords s.timeNow ++ [s.grdWord 14])) ∧ t.lp = false) ∧
      (¬ accepted c → t.get F.GRD_EVT.COMMIT_ERR = 1 ∧
        only [F.GRD_EVT.COMMIT_ERR] s { s with free := t.free, grd := { s.grd with cycles := c } } t)) ∧
    (∀ p : Path, exec (.registerWrite p A.GRD_UNLK v) s = exec (.grdUnlk v) s ∧
      exec (.registerWrite p A.GRD_COMMIT v) s = exec (.grdCommit v) s) ∧
    (∀ (e : InkEnv) (rd ra : BitVec 4) (imm : BitVec 18), s.inkGoes e → e.fetch = .clean → s.g rd = v →
      let a := s.g ra + imm.signExtend 32
      let u := { s with ink := { s.ink with pc := s.ink.pc + 1 } }
      (a = Word.ofNat A.GRD_UNLK → exec (.ste e rd ra imm) s = exec (.grdUnlk v) u) ∧
      (a = Word.ofNat A.GRD_COMMIT → exec (.ste e rd ra imm) s = exec (.grdCommit v) u))

/-- The Cellar: EN starts an initialisation with every byte 0, whose end writes only the mirror words that waited;
clearing EN loses the content and what is staged, each staged block with a loss of its ring; SIZE keeps its value
while EN is 1, the scrub walks the usable space and counts what it finds, and a refresh is counted. It rests on
choices of the model besides: log entries 5 and 57. -/
def Obligations.CellarState : Prop :=
  ∀ s : State, s.rested →
    let en := s.bit F.STO_CEL_CTRL.EN
    let next := if s.cel.scrub + 8 < s.celUse then s.cel.scrub + 8 else 0
    (∀ v, s.on 5 = true → en = false → F.STO_CEL_CTRL.EN.read v = 1 → ∃ t, exec (.celEnable v) s = .next t ∧
      t.get F.STO_CEL_CTRL.EN = 1 ∧ t.get F.STO_CEL_STAT.INIT = 1 ∧ t.get F.STO_CEL_STAT.READY =
        s.get F.STO_CEL_STAT.READY ∧ t.get F.STO_CEL_CTRL.SIZE = F.STO_CEL_CTRL.SIZE.read v ∧
      t.get F.STO_CEL_STAT.BLOCKS = celUse (F.STO_CEL_CTRL.SIZE.read v) / 8192 ∧ t.cel.mem = []) ∧
    (∀ v, s.on 5 = true → en = true → F.STO_CEL_CTRL.EN.read v = 1 →
      F.STO_CEL_CTRL.SIZE.read v ≠ s.get F.STO_CEL_CTRL.SIZE → ∃ t, exec (.celEnable v) s = .next t ∧
        t.get F.STO_EVT.CFG_REFUSED = 1 ∧ only [F.STO_EVT.CFG_REFUSED, F.STO_CEL_CTRL.SCRUB] s s t) ∧
    (∀ v, s.on 5 = true → en = true → F.STO_CEL_CTRL.EN.read v = 0 → ∃ t, exec (.celDisable v) s = .next t ∧
      t.get F.STO_CEL_CTRL.EN = 0 ∧ t.get F.STO_CEL_STAT.INIT = 0 ∧ t.get F.STO_CEL_STAT.READY = 0 ∧
      t.cel.mem = [] ∧ t.cel.staged = [] ∧ t.cel.blocks = [] ∧ ∀ n, n < 16 →
        t.get (F.STO_RING_LOSS.COUNT n) = (s.get (F.STO_RING_LOSS.COUNT n) +
          (s.cel.blocks.filter (·.ring == n)).length) % 2 ^ (F.STO_RING_LOSS.COUNT n).w) ∧
    (s.bit F.STO_CEL_STAT.INIT = true → ∃ t, exec .celReady s = .next t ∧ t.get F.STO_CEL_STAT.INIT = 0 ∧
      t.get F.STO_CEL_STAT.READY = 1 ∧ t.get F.STO_EVT.CEL_READY = 1 ∧ t.cel.staged = [] ∧ t.host.waits = none ∧
      (s.cel.staged = [] → t.cel.mem = s.cel.mem)) ∧
    (s.bit F.STO_CEL_STAT.INIT = false → s.host.waits = none → exec .celReady s = .next s) ∧
    (∀ e : Ecc, s.celReady = true → s.bit F.STO_CEL_CTRL.SCRUB = true → ∃ t, exec (.backgroundScrub e) s = .next t ∧
      t.cel.scrub = next ∧ t.cel.mem = s.cel.mem ∧
      t.get F.STO_CEL_ECC.COR = (s.get F.STO_CEL_ECC.COR + if e = .corrected then 1 else 0) % 65536 ∧
      t.get F.STO_CEL_ECC.UNCOR = (s.get F.STO_CEL_ECC.UNCOR + if e = .uncorrectable then 1 else 0) % 65536 ∧
      (e = .corrected → t.get F.STO_EVT.CEL_COR = 1) ∧
      (e = .uncorrectable → t.get F.STO_EVT.CEL_UNCOR = 1 ∧ t.reg A.STO_CEL_ADDR = Word.ofNat s.cel.scrub)) ∧
    (∀ e : Ecc, s.celReady = false ∨ s.bit F.STO_CEL_CTRL.SCRUB = false → exec (.backgroundScrub e) s = .next s) ∧
    (en = true → exec .celRefresh s = .next { s with cel := { s.cel with refreshes := s.cel.refreshes + 1 } }) ∧
    (en = false → exec .celRefresh s = .next s)

/-- Rings: a ring that fits is enabled with its pointers at 0, one that does not, or while the Cellar is not ready, is
refused, and an enabled one takes its other fields; RD moves forward to WR at most, and OLD alone follows it. A
STREAM frame in the head is staged as a record with its source, or waits for a staging buffer; the oldest staged
record that fits goes into its ring at WR, which moves past it, and STB_STAT counts it (R257, R381). When the
staging drains is the model's choice, log entry 3. -/
def Obligations.Rings : Prop :=
  ∀ (s : State) (n : Nat) (v : Word), s.rested → s.on 5 = true → n < 16 →
    let fits := s.celReady = true ∧ s.get (F.STO_RING_SIZE.SIZE n) ≠ 0 ∧ ringClash s n = false
    let size := s.ringSize n
    let off := (F.STO_RING_RD.OFF n).read v
    let may := off % 4 = 0 ∧ off < size ∧
      ringDist size (s.ringRd n) off ≤ ringDist size (s.ringRd n) (s.ringWr n)
    let refused := fun (i : Instr) => ∃ t, exec i s = .next t ∧ t.get F.STO_EVT.CFG_REFUSED = 1 ∧
      only [F.STO_EVT.CFG_REFUSED] s s t
    let cfg := fun (t : State) => t.get (F.STO_RING_CFG.THR n) = (F.STO_RING_CFG.THR n).read v ∧
      t.get (F.STO_RING_CFG.POLICY n) = (F.STO_RING_CFG.POLICY n).read v
    (s.bit (F.STO_RING_CFG.EN n) = false → (F.STO_RING_CFG.EN n).read v = 1 → fits →
      ∃ t, exec (.ringCfgWrite n v) s = .next t ∧ t.get (F.STO_RING_CFG.EN n) = 1 ∧ cfg t ∧ t.ringWr n = 0 ∧
        t.ringRd n = 0 ∧ t.ringOld n = 0) ∧
    (s.bit (F.STO_RING_CFG.EN n) = false → (F.STO_RING_CFG.EN n).read v = 1 → ¬ fits → refused (.ringCfgWrite n v)) ∧
    ((F.STO_RING_CFG.EN n).read v = 0 → ∃ t, exec (.ringCfgWrite n v) s = .next t ∧
      t.get (F.STO_RING_CFG.EN n) = 0 ∧ cfg t ∧ t.ringWr n = s.ringWr n ∧ t.ringRd n = s.ringRd n) ∧
    (s.bit (F.STO_RING_CFG.EN n) = true → (F.STO_RING_CFG.EN n).read v = 1 → ∃ t, exec (.ringCfgWrite n v) s = .next t ∧
      t.get (F.STO_RING_CFG.EN n) = 1 ∧ cfg t ∧ only [F.STO_RING_CFG.THR n, F.STO_RING_CFG.POLICY n] s s t) ∧
    (may → ∃ t, exec (.ringRdWrite n v) s = .next t ∧ t.ringRd n = off ∧
      only [F.STO_RING_RD.OFF n, F.STO_RING_OLD.OFF n] s s t) ∧
    (¬ may → refused (.ringRdWrite n v)) ∧
    (∀ (p : Port) (f : Frame), s.net.headNow = true → s.portUp p = true → f.crcOk = true → frameMalformed f = false →
      f.cls = 2 → f.dst ≠ 0x7F → s.mine f = true → f.src ≠ 0x7F → f.strm < 24 → (s.port p).rx = [] →
      f.ecc.room = .clean → f.ecc.entry = .clean →
      let e := 24 * f.src + f.strm
      let w0 := Word.ofNat (f.src % 64 * 2 ^ 26 + f.strm * 2 ^ 21 + f.len % 512 * 2 ^ 12 + f.gen % 16 * 2 ^ 8)
      ∃ t, exec (.streamFrame p f) s = .next t ∧
        (s.stageRoom = true → s.bit (F.STB_CFG.EN e) = true → ∃ more, t.cel.blocks = s.cel.blocks ++ ⟨e, s.get (F.STB_CFG.RING e),
          w0 :: Word.ofNat e :: timeWords s.timeNow ++ f.payload, (f.payload.getD 1 0).toNat / 0x1000 % 0x1000⟩ :: more) ∧
        (s.stageRoom = true → s.bit (F.STB_CFG.EN e) = false → t.get F.CHN_NET_EVT.STRM_UNK = 1) ∧
        (s.stageRoom = false → ⟨f, none⟩ ∈ (t.port p).rx ∧ t.cel = s.cel)) ∧
    (∀ (b : StagedBlock) (bs : List StagedBlock), s.pending = [] → s.ink.state ≠ .running → s.ink.state ≠ .waiting →
      s.ptr.dev ≠ .off → s.cel.blocks = b :: bs → b.ring < 16 → ∃ t, step s = .next t ∧ t.cel.blocks = bs ∧
      t.get (F.STB_STAT.BLK b.entry) = (s.get (F.STB_STAT.BLK b.entry) + 1) % 2 ^ (F.STB_STAT.BLK b.entry).w ∧
      let size := s.ringSize b.ring
      let stands := s.bit (F.STO_RING_CFG.EN b.ring) = true ∧ s.celReady = true
      (¬ stands → t.cel.mem = s.cel.mem ∧ t.get (F.STO_RING_LOSS.COUNT b.ring) =
        (s.get (F.STO_RING_LOSS.COUNT b.ring) + 1) % 2 ^ (F.STO_RING_LOSS.COUNT b.ring).w) ∧
      (stands → s.ringWr b.ring % 4 = 0 → size ≤ 2 ^ (F.STO_RING_WR.OFF b.ring).w →
        s.ringHeld b.ring + 4 * b.words.length + 4 ≤ size →
        t.ringWr b.ring = (s.ringWr b.ring + 4 * b.words.length) % size ∧ t.ringRd b.ring = s.ringRd b.ring ∧
        t.ringOld b.ring = s.ringOld b.ring ∧
        ∀ i, i < b.words.length → t.ringWord b.ring (s.ringWr b.ring + 4 * i) = b.words.getD i 0))

/-- The Ledger writer: the first of the queued records is written with the next sequence number where its area has a
position, a verified write leaves the record in the array and nothing else changed, a failed one leaves no valid
record, one whose queue entry cannot be corrected is discarded (R373), and an erase leaves its sector erased. It
rests on choices of the model besides: log entries 5, 9 and 66. -/
def Obligations.LedgerWriter : Prop :=
  ∀ s : State, s.rested →
    let m := s.led.flash
    let stays := s.ptr.haltStep ≠ .final
    (∀ (typ : Nat) (c : List Word) (p : Nat), s.on 5 = true → s.thm.closing = false → s.led.writing = none →
      s.led.erasing = none → s.led.retry = [] → ledFront s = some (typ, c) → positionFor s (areaOf typ) = some p →
      ∃ t, exec .ledgerWriteStart s = .next t ∧ t.get F.STO_LDG_STAT.BUSY = 1 ∧ t.led.flash = m ∧
        t.led.writing = some ⟨.record typ, recBuild typ (ledSeqMax m + 1) (ledFill s (.record typ) typ c), p, 0⟩) ∧
    (s.on 5 = false ∨ s.thm.closing = true → exec .ledgerWriteStart s = .next s) ∧
    (∀ (w : LedWrite) (e : Ecc), e ≠ .uncorrectable → s.led.writing = some w → w.words.length = 64 →
      ∃ t, exec (.ledgerWriteDone ⟨true, e⟩) s = .next t ∧
      ledPos t.led.flash w.pos = w.words ∧ (∀ p, p ≠ w.pos → ledPos t.led.flash p = ledPos m p) ∧
      t.led.writing = none ∧ (stays → w.item ≠ .record 0x31 → t.get F.STO_EVT.LDG_DONE = 1) ∧
      (stays → w.item = .record 0x11 → t.get F.PHC_EVT.REC_DONE = 1) ∧
      (stays → w.item = .record 0x21 → t.get F.GRD_STAT.COMMIT = 1 ∧ t.get F.GRD_EVT.COMMIT_DONE = 1 ∧
        t.reg A.GRD_COMMIT = w.words.getD 1 0) ∧
      (w.item = .record 0x31 → t.boot.mark = some s.tru.recAt)) ∧
    (∀ (w : LedWrite) (e : Ecc), e ≠ .uncorrectable → s.led.writing = some w → w.attempt = 0 →
      ∃ t, exec (.ledgerWriteDone ⟨false, e⟩) s = .next t ∧ t.led.writing = none ∧ t.led.retry = s.led.retry ++ [w.item] ∧ recValid (ledPos t.led.flash w.pos) = false ∧
      (stays → t.get F.STO_LDG_STAT.VFAIL = min (s.get F.STO_LDG_STAT.VFAIL + 1) 255)) ∧
    (∀ (w : LedWrite) (e : Ecc), e ≠ .uncorrectable → s.led.writing = some w → w.attempt ≠ 0 → w.item ≠ .record 0x31 →
      ∃ t, exec (.ledgerWriteDone ⟨false, e⟩) s = .next t ∧ t.led.writing = none ∧ (stays → t.get F.STO_EVT.LDG_FAIL = 1) ∧
        recValid (ledPos t.led.flash w.pos) = false) ∧
    (∀ (w : LedWrite) (ok : Bool) (typ : Nat), s.led.writing = some w → w.item = .record typ → typ ≠ 0x31 →
      ∃ t, exec (.ledgerWriteDone ⟨ok, .uncorrectable⟩) s = .next t ∧ t.led.writing = none ∧
        (stays → t.get F.STO_EVT.LDG_FAIL = 1 ∧ t.get F.STO_EVT.SRAM_UNCOR = 1) ∧ t.led.flash = m) ∧
    (∀ o : WriteObs, s.led.writing = none → exec (.ledgerWriteDone o) s = .next s) ∧
    (∀ sec : Nat, s.led.erasing = some sec → ∃ t, exec .sectorEraseDone s = .next t ∧
      (stays → t.get F.STO_LDG_STAT.ERASES = min (s.get F.STO_LDG_STAT.ERASES + 1) 255) ∧
      ∀ a, Mem.byte 0xFF t.led.flash a =
        if 4096 * sec ≤ a ∧ a < 4096 * sec + 4096 then 0xFF else Mem.byte 0xFF m a) ∧
    (s.led.erasing = none → exec .sectorEraseDone s = .next s) ∧
    (∀ p : Path, s.on 5 = true → ∃ t, exec (.ldgRdRead p) s = .next t ∧
      t.get F.STO_LDG_RA.ADDR = (s.get F.STO_LDG_RA.ADDR + 1) % 4096 ∧ only [F.STO_LDG_RA.ADDR] s s t)

/-- The check units: a configuration or INIT = 1 starts a unit at its initial value, data absorbs a word's four bytes
least significant first or one byte, a saved STATE comes back as it was saved, and RES is the running value with the
final XOR. It rests on choices of the model besides: log entry 10. -/
def Obligations.CheckUnits : Prop :=
  ∀ (s : State) (u : Nat) (v : Word), s.rested → s.on 5 = true → u < 4 →
    let ran := fun (i : Instr) (k : CrcKind) (c : Word) => ∃ t, exec i s = .next t ∧ t.crcKind u = k ∧ t.crcRun u = c ∧
      t.reg (A.STO_CRC_RES u) = (c ^^^ k.final) &&& k.bits ∧
      only [F.STO_CRC_CFG.POLY u, Fld.whole (A.STO_CRC_STATE u), Fld.whole (A.STO_CRC_RES u)] s s t
    let new := CrcKind.ofPoly ((F.STO_CRC_CFG.POLY u).read v)
    let k := s.crcKind u
    ran (.crcCfg u v) new new.init ∧
    ((F.STO_CRC_CFG.INIT u).read v = 1 → ran (.crcInit u v) new new.init) ∧
    ((F.STO_CRC_CFG.INIT u).read v = 0 → exec (.crcInit u v) s = .next s) ∧
    ran (.crcData u v) k (k.absorb (s.crcRun u) [v.extractLsb' 0 8, v.extractLsb' 8 8, v.extractLsb' 16 8,
      v.extractLsb' 24 8]) ∧
    ran (.crcDatab u v) k (k.byte (s.crcRun u) (v.extractLsb' 0 8)) ∧
    (∃ t, exec (.crcStateWrite u v) s = .next t ∧ t.reg (A.STO_CRC_STATE u) = v &&& k.bits ∧
      (v &&& k.bits = v → v ^^^ s.crcMask u = t.crcRun u) ∧
      only [Fld.whole (A.STO_CRC_STATE u), Fld.whole (A.STO_CRC_RES u)] s s t)

/-- Requests to the Porter: RUN from START or RECOVER, RECOVER from RUN and HALT from the three active states are
entered where R402 and R403 allow it, and refused with their reason where they do not, or where they lose to another
change of the same cycle (R404; what a cycle is here is the model's choice, log entry 29); a cause that lost takes
effect at the entry to RUN; a write of 1 clears a RECOVER cause whose condition has ended and is refused otherwise. -/
def Obligations.PorterRequests : Prop :=
  ∀ (s : State) (v : Word), s.rested → s.on 5 = true →
    let key := F.PTR_REQ.KEY.read v = 0x5E
    let target := F.PTR_REQ.TARGET.read v
    let dev := s.ptr.dev
    let entered := fun (i : Instr) (d : DevState) (also : State → Prop) => ∃ t, exec i s = .next t ∧ t.ptr.dev = d ∧
      t.ptr.prev = dev ∧ t.get F.PTR_EVT.STATE = 1 ∧ also t
    let refused := fun (i : Instr) (code : Nat) => ∃ t, exec i s = .next t ∧ t.get F.PTR_STAT.REFUSE = code ∧
      t.get F.PTR_EVT.REQ_REFUSED = 1 ∧ t.ptr = s.ptr ∧ keeps [F.PTR_STAT.REFUSE, F.PTR_EVT.REQ_REFUSED] s t
    let ready := s.bit F.TRU_STAT.OTP_INCOMPLETE = false ∧ s.inkRuns = true
    let began := fun (t : State) => t.ptr.haltStep = .drain ∧ t.ptr.haltTo = (F.PTR_REQ.TO.read v == 1) ∧
      t.ptr.haltLo = (F.PTR_REQ.LO.read v == 1) ∧ t.on 2 = true ∧ t.on 3 = true ∧
      (s.inkRuns = true → t.ink.state = .stopped ∧ t.get F.INK_CTRL.RUN = 0) ∧ t.tru.rstAtHalt = s.reg A.PTR_RST ∧
      t.lp = false ∧ t.get F.GRD_WD.STATE = 0 ∧ t.boot.step = .none
    let calm := s.thm.closing = false ∧ s.ptr.won.map (·.2) ≠ some s.ptr.time
    let runs := fun (i : Instr) =>
      (s.ptr.owedInk = false → s.ptr.owedGrd = false → entered i .run fun t => t.reg A.PTR_RCV = 0) ∧
      (s.ptr.owedInk = true ∨ s.ptr.owedGrd = true → ∃ t, exec i s = .next t ∧ t.ptr.dev = .recover ∧ t.ptr.prev = .run ∧
        t.bit F.PTR_RCV.INK = s.ptr.owedInk ∧ t.bit F.PTR_RCV.GRD = s.ptr.owedGrd)
    (∀ row : Nat, key → s.thm.closing = false → s.ptr.won = some (row, s.ptr.time) →
      (∀ tst : Bool, target = 4 → row < 8 → refused (.reqRun v tst) 6) ∧
      (target = 5 → row < 9 → refused (.reqRecover v) 6) ∧ (target = 7 → row < 7 → refused (.reqHalt v) 6)) ∧
    (∀ tst : Bool, target = 4 →
      (key → calm → dev = .start → ready → tst = false → runs (.reqRun v tst)) ∧
      (key → calm → dev = .recover → s.bit F.PTR_RCV.INK = false → s.bit F.PTR_RCV.GRD = false → runs (.reqRun v tst)) ∧
      (¬ key → refused (.reqRun v tst) 4) ∧
      (key → s.thm.closing = true → refused (.reqRun v tst) 6) ∧
      (key → calm → dev = .start →
        (s.bit F.TRU_STAT.OTP_INCOMPLETE = true → refused (.reqRun v tst) 1) ∧
        (s.bit F.TRU_STAT.OTP_INCOMPLETE = false → s.inkRuns = false → refused (.reqRun v tst) 2) ∧
        (ready → tst = true → refused (.reqRun v tst) 5)) ∧
      (key → calm → dev = .recover → s.bit F.PTR_RCV.INK = true ∨ s.bit F.PTR_RCV.GRD = true →
        refused (.reqRun v tst) 3) ∧
      (key → calm → dev = .halt → refused (.reqRun v tst) 4)) ∧
    (target = 5 → key → calm →
      (dev = .run → entered (.reqRecover v) .recover fun t => t.get F.PTR_RCV.PROG = 1) ∧
      (dev = .start ∨ dev = .halt → refused (.reqRecover v) 4)) ∧
    (target = 7 → key → calm → dev = .start ∨ dev = .run ∨ dev = .recover →
      entered (.reqHalt v) .halt began) ∧
    (target ≠ 4 → target ≠ 5 → target ≠ 7 → refused (.reqBadTarget v) 4) ∧
    (∃ t, exec (.rcvClear v) s = .next t ∧
      (∀ x ∈ [(F.PTR_RCV.INK, s.inkRuns), (F.PTR_RCV.GRD, s.reg A.GRD_FLT == 0), (F.PTR_RCV.PROG, true)],
        t.bit x.1 = (s.bit x.1 && !(x.1.read v == 1 && x.2)) ∧
        (x.1.read v = 1 → s.bit x.1 = true → x.2 = false → t.get F.PTR_STAT.REFUSE = 3 ∧
          t.get F.PTR_EVT.REQ_REFUSED = 1)) ∧
      keeps [Fld.whole A.PTR_RCV, F.PTR_STAT.REFUSE, F.PTR_EVT.REQ_REFUSED] s t)

/-- Domains: a request is stored for the domains PTR_DOM controls and flags a missing prerequisite, a switch-on
completes only where the domain is asked for, allowed and ready, a switch-off only where it is not to be on, and
both change that domain alone. It rests on choices of the model besides: log entries 5, 32 and 33. -/
def Obligations.PorterDomains : Prop :=
  ∀ s : State, s.rested →
    let others := fun (d : Nat) (t : State) => ∀ x, x < 10 → x ≠ d → t.on x = s.on x
    (∀ v : Word, s.on 5 = true → ∃ t, exec (.domRequest v) s = .next t ∧ t.ptr.dom = s.ptr.dom ∧
      (∀ d, d < 10 → t.rbit A.PTR_DOM d = (domSet.contains d && v.getLsbD d)) ∧
      ((∃ d ∈ domSet, v.getLsbD d = true ∧ s.rbit A.PTR_DOM d = false ∧ s.domMay d = true ∧ s.domReady d = false) →
        t.get F.PTR_EVT.DEP_ERR = 1) ∧
      ((∀ d ∈ domSet, v.getLsbD d = true → s.rbit A.PTR_DOM d = true ∨ s.domMay d = false ∨ s.domReady d = true) →
        t.get F.PTR_EVT.DEP_ERR = s.get F.PTR_EVT.DEP_ERR)) ∧
    (∀ d ∈ domSet, s.on d = false → s.domWant d = true → s.domReady d = true →
      ∃ t, exec (.domainOn d) s = .next t ∧ t.on d = true ∧ others d t) ∧
    (∀ d, d ∉ domSet ∨ s.on d = true ∨ s.domWant d = false ∨ s.domReady d = false →
      exec (.domainOn d) s = .next s) ∧
    (∀ d ∈ domSet, s.on d = true → s.domWant d = false → s.ptr.dev ≠ .test →
      ∃ t, exec (.domainOff d) s = .next t ∧ t.on d = false ∧ others d t ∧
        (d = 7 → t.linkState .north = 0) ∧ (d = 8 → t.linkState .south = 0)) ∧
    (∀ d, d ∉ domSet ∨ s.on d = false ∨ s.domWant d = true ∨ s.ptr.dev = .test →
      exec (.domainOff d) s = .next s)

/-- The shut-down sequence: a drained Ledger leads to last orders where LO asked for them, else to DORMANT or STANDBY
with their domains, or to START where a wake was held; the items follow each other with their results; and STANDBY
gives way to DORMANT when its time is up. It rests on choices of the model besides: log entries 5, 35 and 66. -/
def Obligations.PorterShutdown : Prop :=
  ∀ s : State, s.rested →
    let drained := s.ptr.dev = .halt ∧ s.ptr.haltStep = .drain ∧ s.thm.closing = false ∧ s.ledIdle = true
    let keep : BitVec 10 := if s.ptr.haltTo then 0x043 else 0x001
    let k := s.tru.item
    let bit : BitVec 6 := BitVec.ofNat 6 (2 ^ (k - 1))
    let ends := fun (ran failed : Bool) (det : Word) (t : State) =>
      t.tru.run = (if ran then s.tru.run ||| bit else s.tru.run) ∧
      t.tru.fail = (if ran && failed then s.tru.fail ||| bit else s.tru.fail) ∧
      t.tru.detail = s.tru.detail.set (k - 1) (if ran && failed then det else 0)
    (drained → s.ptr.haltLo = true → ∃ t, exec .haltLedgerDrained s = .next t ∧ t.ptr.dev = .halt ∧
      t.ptr.haltStep = .lastOrders ∧ t.tru.item = 1 ∧ t.tru.run = 0 ∧ t.tru.fail = 0 ∧ t.ptr.dom = s.ptr.dom) ∧
    (drained → s.on 5 = true → s.ptr.haltLo = false → s.ptr.wakeHeld = none → ∃ t, exec .haltLedgerDrained s = .next t ∧
      t.ptr.dev = (if s.ptr.haltTo then .standby else .dormant) ∧ t.ptr.dom = s.ptr.dom &&& keep ∧
      t.ptr.haltStep = .none ∧ t.ink.state = .notStarted ∧ t.led.flash = s.led.flash ∧ t.boot.flash = s.boot.flash) ∧
    (drained → s.ptr.haltLo = false → s.ptr.wakeHeld ≠ none → ∃ t, exec .haltLedgerDrained s = .next t ∧
      t.ptr.dev = .start ∧ t.ptr.dom = s.ptr.dom &&& keep ∧ t.ptr.wakeHeld = none ∧ t.boot.step = .entry) ∧
    (¬ drained → exec .haltLedgerDrained s = .next s) ∧
    (∀ o : WriteObs, s.ptr.dev = .halt → s.ptr.haltStep = .final → s.thm.closing = false → s.led.writing.isSome →
      ∃ t, exec (.ledgerWriteDone o) s = .next t ∧ (t.ptr.dev = .halt ∨
        t.ptr.dev = if s.ptr.wakeHeld.isSome then .start else if s.ptr.haltTo then .standby else .dormant)) ∧
    (∀ (ran failed : Bool) (det : Word), k = 0 → exec (.selftestItemEnd ran failed det) s = .next s) ∧
    (∀ (ran failed : Bool) (det : Word), 0 < k → k < 6 → ∃ t, exec (.selftestItemEnd ran failed det) s = .next t ∧
      ends ran failed det t ∧ t.tru.item = (if s.boot.step = .selfTest ∧ k = 4 then 6 else k + 1) ∧
      (k = 2 → s.boot.step ≠ .selfTest → t.ink.prog = [] ∧ t.ink.data = [])) ∧
    (∀ (ran failed : Bool) (det : Word), k = 6 → ∃ t, exec (.selftestItemEnd ran failed det) s = .next t ∧
      ends (ran && (s.boot.step == .selfTest || s.portsSilent)) failed det t ∧ t.tru.item = 0 ∧
      (s.boot.step = .selfTest → t.boot.step = .copyA ∧ t.get F.TRU_ST.VALID = 1 ∧ t.get F.TRU_ST.SRC = 1 ∧
        t.get F.TRU_ST.PASS = (if t.tru.run = 0x2F ∧ t.tru.fail = 0 then 1 else 0) ∧
        t.get F.TRU_ST.RUN = t.tru.run.toNat ∧ t.get F.TRU_ST.FAIL = t.tru.fail.toNat ∧
        t.get F.TRU_EVT.ST_DONE = 1) ∧
      (s.boot.step ≠ .selfTest → s.ptr.dev = .halt → t.ptr.haltStep = .record ∧ t.led.q31.isSome = true ∧
        t.tru.recAt = s.timeNow)) ∧
    (s.ptr.dev = .standby → s.get F.PTR_CFG.STBY_MAX ≠ 0 → s.thm.closing = false → ∃ t, exec .stbyTimeout s = .next t ∧
      t.ptr.dev = .dormant ∧ t.ptr.dom = s.ptr.dom &&& 0x001) ∧
    (s.ptr.dev ≠ .standby ∨ s.get F.PTR_CFG.STBY_MAX = 0 → exec .stbyTimeout s = .next s)

/-- Wakes: in DORMANT and STANDBY an enabled source that is asserted starts the device and is recorded, in HALT the
first is held; with none asserted, and after the Porter hard limit until its sensor has read cool, nothing wakes;
the sources are the WAKE pin high for WDEB samples, one a KCLK edge, the window, the tones and the alarm as they
stand, and in STANDBY the Guard's request; the window check remembers whether VSTK is out of its window; and VSTK's
return after an undervoltage is a wake of its own. It rests on choices of the model besides: log entries 5, 31 and
72. -/
def Obligations.PorterWakes : Prop :=
  ∀ s : State, s.rested →
    let sleeps := s.ptr.dev = .dormant ∨ s.ptr.dev = .standby
    let free := fun (cool : Bool) => s.ptr.nrstLow = false ∧ s.thm.closing = false ∧
      (s.ptr.hardHold = false ∨ cool = true)
    let begun := fun (i : Instr) (src : BitVec 6) => ∃ t, exec i s = .next t ∧ t.ptr.dev = .start ∧
      t.ptr.prev = s.ptr.dev ∧ t.get F.PTR_WAKE_CAUSE.CAUSE = src.toNat ∧ t.boot.step = .entry ∧
      t.boot.wAt = s.ptr.time ∧ t.ptr.dom = s.ptr.dom ∧ t.ptr.wakeHeld = none ∧ t.ptr.windowOut = false
    let out := fun (mv : Nat) => mv < 500 * s.get F.PTR_WCFG.VLO ∨ 500 * s.get F.PTR_WCFG.VHI < mv
    let counts := sleeps ∨ s.ptr.dev = .halt
    let seen := fun (o : WakeObs) => { s.ptr with wakeHigh := if o.pin then s.ptr.wakeHigh + 1 else 0 }
    let src := fun (o : WakeObs) => { s with ptr := seen o }.wakeSources
    (∀ o : WakeObs, sleeps → free o.cool → s.ptr.wakeHeld = none → src o ≠ 0 → begun (.wakeAccept o) (src o)) ∧
    (∀ o : WakeObs, s.ptr.dev = .halt → free o.cool → s.ptr.wakeHeld = none → src o ≠ 0 →
      ∃ t, exec (.wakeAccept o) s = .next t ∧
      t.ptr = { seen o with wakeHeld := some (src o), tones := 0, hardHold := false } ∧
      t.get F.PTR_WAKE_CAUSE.CAUSE = (src o).toNat ∧ t.get F.PTR_EVT.WAKE_HELD = 1) ∧
    (∀ o : WakeObs, counts → ¬ free o.cool ∨ s.ptr.wakeHeld.isSome ∨ src o = 0 →
      exec (.wakeAccept o) s = .next { s with ptr := { seen o with hardHold := s.ptr.hardHold && !o.cool } }) ∧
    (∀ o : WakeObs, ¬ counts → exec (.wakeAccept o) s = .next { s with ptr := { s.ptr with
      hardHold := s.ptr.hardHold && !o.cool } }) ∧
    (∀ i, i < 6 → s.wakeSources.getLsbD i =
      ((BitVec.ofNat 6 (s.get F.PTR_WAKE_EN.EN)).getLsbD i &&
        if i = 0 then decide (s.get F.PTR_WCFG.WDEB ≤ s.ptr.wakeHigh) else if i = 1 then s.ptr.windowOut
        else if i = 4 then s.alarmed
        else if i = 5 then s.ptr.dev == .standby && s.grd.wakeReq else s.ptr.tones.getLsbD (i - 2))) ∧
    (∀ mv : Nat, sleeps ∨ s.ptr.dev = .halt → exec (.vstkWindowCheck mv) s = .next { s with ptr :=
      { s.ptr with windowOut := decide (out mv) } }) ∧
    (∀ mv : Nat, s.ptr.dev = .run → exec (.vstkWindowCheck mv) s = .next s) ∧
    (s.ptr.dev = .dormant → s.ptr.uvWake = true → s.ptr.nrstLow = false → s.ptr.hardHold = false →
      begun .vstkRecoverWake s.wakeSources) ∧
    (s.ptr.dev ≠ .dormant ∨ s.ptr.uvWake = false ∨ s.ptr.nrstLow = true ∨ s.ptr.hardHold = true →
      exec .vstkRecoverWake s = .next s)

/-- The supply of VDD5 (R410), abrupt ends and resets: the source of VDD5 is noted, the supply limit and the
undervoltage end in DORMANT with their mark, power rises into START with POR and every register at its reset value,
power lost leaves what the flashes and the OTP hold, and NRST leaves three registers and holds the device at the
entry to START until it rises. It rests on choices of the model besides: log entries 1, 5, 30, 33 and 34. -/
def Obligations.PorterResets : Prop :=
  ∀ s : State, s.rested →
    let dev := s.ptr.dev
    let dormant := fun (i : Instr) (also : State → Prop) => ∃ t, exec i s = .next t ∧ t.ptr.dev = .dormant ∧
      t.ptr.prev = dev ∧ t.ptr.dom = s.ptr.dom &&& 0x001 ∧ t.ink.state = .notStarted ∧ t.ptr.haltStep = .none ∧
      t.led.q41 = [] ∧ also t
    let kept := [A.PTR_RST, A.PTR_WAKE_CAUSE, A.THM_SD]
    (dev ≠ .off → dev ≠ .dormant → s.ptr.vsup = false → s.on 5 = true →
      dormant .supplyLimit fun t => t.get F.PTR_RST.SUP_LIM = 1) ∧
    (dev = .off ∨ dev = .dormant ∨ s.ptr.vsup = true → exec .supplyLimit s = .next s) ∧
    (∀ b : Bool, exec (.vdd5SourceChange b) s = .next { s with ptr := { s.ptr with vsup := b } }) ∧
    (dev ≠ .off → dev ≠ .dormant → s.on 5 = true →
      dormant .vstkUndervoltage fun t => t.get F.PTR_RST.VSTK_UV = 1 ∧ t.ptr.uvWake = true) ∧
    (dev = .off ∨ dev = .dormant → exec .vstkUndervoltage s = .next s) ∧
    (dev = .off → ∃ t, exec .powerOn s = .next t ∧ t.ptr.dev = .start ∧ t.ptr.dom = 1 ∧ t.boot.step = .entry ∧
      (∀ a, t.reg a = Reg.reset a) ∧ t.get F.PTR_RST.POR = 1 ∧ t.ptr.time = 0 ∧ t.led.flash = s.led.flash ∧
      t.boot.flash = s.boot.flash ∧ t.tru.otp = s.tru.otp ∧ t.tru.fuses = s.tru.fuses ∧ t.pending = s.pending) ∧
    (dev ≠ .off → exec .powerOn s = .next s) ∧
    (dev ≠ .off → s.led.writing = none → s.led.erasing = none → s.tru.burn = none → ∃ t, exec .powerLoss s = .next t ∧
      t.ptr.dev = .off ∧ t.ptr.prev = dev ∧ t.ptr.dom = 0 ∧ t.led.flash = s.led.flash ∧ t.boot.flash = s.boot.flash ∧
      t.tru.otp = s.tru.otp ∧ t.tru.weak = s.tru.weak ∧ t.tru.fuses = s.tru.fuses ∧ t.cel.mem = [] ∧ t.ink.prog = []) ∧
    (dev = .off → exec .powerLoss s = .next s) ∧
    (dev ≠ .off → s.ptr.nrstLow = false → ∃ t, exec .nrst s = .next t ∧ t.ptr.dev = .start ∧ t.ptr.nrstLow = true ∧
      t.ptr.dom = s.ptr.dom &&& 0x001 ∧ (∀ a, a ∉ kept → t.reg a = Reg.reset a) ∧
      t.reg A.PTR_WAKE_CAUSE = s.reg A.PTR_WAKE_CAUSE ∧ t.reg A.THM_SD = s.reg A.THM_SD ∧
      t.get F.PTR_RST.NRST = 1 ∧ t.get F.PTR_RST.COUNT = min (s.get F.PTR_RST.COUNT + 1) 255 ∧
      (∀ i, i < 8 → i ≠ 1 → t.rbit A.PTR_RST i = s.rbit A.PTR_RST i) ∧ t.boot.flash = s.boot.flash) ∧
    (dev = .off ∨ s.ptr.nrstLow = true → exec .nrst s = .next s) ∧
    (s.ptr.nrstLow = true → ∃ t, exec .nrstRelease s = .next t ∧ t.ptr.nrstLow = false ∧ t.ptr.dev = .start ∧
      t.boot.step = .entry ∧ t.boot.wAt = s.ptr.time) ∧
    (s.ptr.nrstLow = false → exec .nrstRelease s = .next s) ∧
    (s.ptr.nrstLow = true → ∃ t, exec .nrstStuck s = .next t ∧ t.get F.PTR_RST.NRST_STUCK = 1 ∧
      only [F.PTR_RST.NRST_STUCK] s s t) ∧
    (s.ptr.nrstLow = false → exec .nrstStuck s = .next s)

/-- OTP: a word or a fuse is programmed where R434 and R435 let it be and refused with their code where they do not; a
verified burn stands in the array with its check bits, or in the fuses; a failed one gives RES 7; and a read of
TRU_OTP_DATA moves its path's address on and leaves the marks of the word in TRU_OTP_CHK. It rests on choices of the
model besides: log entries 5, 22 and 60. -/
def Obligations.OtpCommands : Prop :=
  ∀ s : State, s.rested →
    (∀ (p : Path) (v : Word) (vpp : Bool), s.on 5 = true → F.TRU_PRG_CTRL.GO.read v = 1 →
      let a := (s.otpAddr p).toNat
      let r := a / 64
      let f := F.TRU_PRG_CTRL.REGION.read v
      let may := s.ptr.dev = .start ∧ vpp = true ∧ s.bit F.TRU_PRG_STAT.BUSY = false
      let begun := fun (i : Instr) (b : Burn) => ∃ t, exec i s = .next t ∧ t.tru.burn = some b ∧
        t.get F.TRU_PRG_STAT.BUSY = 1 ∧ t.get F.TRU_STAT.PRG_BUSY = 1 ∧ t.tru.otp = s.tru.otp ∧ t.tru.fuses = s.tru.fuses
      let refused := fun (i : Instr) (code : Nat) => ∃ t, exec i s = .next t ∧ t.get F.TRU_PRG_STAT.RES = code ∧
        t.tru.burn = s.tru.burn ∧ t.tru.otp = s.tru.otp ∧ t.tru.fuses = s.tru.fuses
      let locked := (s.get F.OTP_LOCK.PL).testBit r = true ∨ s.tru.fuses.getLsbD r = true
      let blank := s.otpRaw a = 0 ∧ s.otpWeak a = 0
      let unready := fun (i : Instr) => (s.ptr.dev ≠ .start → refused i 1) ∧
        (s.ptr.dev = .start → vpp = false → refused i 2) ∧
        (s.ptr.dev = .start → vpp = true → s.bit F.TRU_PRG_STAT.BUSY = true → refused i 3)
      (F.TRU_PRG_CTRL.FUSE.read v = 0 → unready (.otpProgram p v vpp) ∧
        (may → 4 ≤ r → ¬ locked → blank → begun (.otpProgram p v vpp) (.word a (s.reg A.TRU_PRG_DATA))) ∧
        (may → r < 4 → refused (.otpProgram p v vpp) 5) ∧
        (may → 4 ≤ r → locked → refused (.otpProgram p v vpp) 4) ∧
        (may → 4 ≤ r → ¬ locked → ¬ blank → refused (.otpProgram p v vpp) 6)) ∧
      (F.TRU_PRG_CTRL.FUSE.read v = 1 → unready (.fuseBlow p v vpp) ∧
        (may → s.reg A.TRU_PRG_DATA = 0x0000F05E → s.tru.fuses.getLsbD f = false →
          (s.get F.OTP_LOCK.PL).testBit f = false → begun (.fuseBlow p v vpp) (.fuse f)) ∧
        (may → s.reg A.TRU_PRG_DATA = 0x0000F05E → s.tru.fuses.getLsbD f = false →
          (s.get F.OTP_LOCK.PL).testBit f = true → refused (.fuseBlow p v vpp) 4) ∧
        (may → s.reg A.TRU_PRG_DATA ≠ 0x0000F05E → refused (.fuseBlow p v vpp) 8) ∧
        (may → s.reg A.TRU_PRG_DATA = 0x0000F05E → s.tru.fuses.getLsbD f = true → refused (.fuseBlow p v vpp) 9))) ∧
    (∀ (a : Nat) (v : Word), s.tru.burn = some (.word a v) → ∃ t, exec (.prgDone true) s = .next t ∧
      t.tru.burn = none ∧ t.otpRaw a = otpEncode v ∧ t.otpWeak a = 0 ∧ t.get F.TRU_PRG_STAT.RES = 0 ∧
      t.get F.TRU_PRG_STAT.BUSY = 0 ∧ t.get F.TRU_EVT.PRG_DONE = 1 ∧ (∀ b, b ≠ a → t.otpRaw b = s.otpRaw b) ∧
      (a < 256 ∨ 384 ≤ a → t.otpWord a = v)) ∧
    (∀ r, r < 16 → s.tru.burn = some (.fuse r) → ∃ t, exec (.prgDone true) s = .next t ∧ t.tru.burn = none ∧
      (∀ i, i < 16 → t.tru.fuses.getLsbD i = (s.tru.fuses.getLsbD i || i == r)) ∧
      t.get F.TRU_LOCKF.LF = t.tru.fuses.toNat ∧ t.get F.TRU_PRG_STAT.RES = 0 ∧ t.get F.TRU_EVT.PRG_DONE = 1) ∧
    (s.tru.burn ≠ none → ∃ t, exec (.prgDone false) s = .next t ∧ t.tru.burn = none ∧ t.get F.TRU_PRG_STAT.RES = 7 ∧
      t.get F.TRU_PRG_STAT.BUSY = 0 ∧ t.get F.TRU_EVT.PRG_DONE = 1) ∧
    (∀ ok : Bool, s.tru.burn = none → exec (.prgDone ok) s = .next s) ∧
    (∀ p : Path, s.on 5 = true → ∃ t, exec (.otpDataRead p) s = .next t ∧ t.otpAddr p = s.otpAddr p + 1 ∧
      t.reg A.TRU_OTP_CHK = (if s.readLocked ((s.otpAddr p).toNat / 64) then 0x10000000
        else s.otpMark (s.otpAddr p).toNat ||| otpCheck (s.otpRaw (s.otpAddr p).toNat)) ∧
      only [Fld.whole A.TRU_OTP_CHK] s { s with tru := t.tru } t)

/-- The code of the OTP: a codeword reads as its value; one flipped bit at any position is corrected, and two are found
uncorrectable. -/
def Obligations.OtpCode : Prop :=
  ∀ v : Word, otpJudge (otpEncode v) = (v, false, false) ∧
    (∀ i, i < 39 → otpJudge (otpEncode v ^^^ BitVec.ofNat 39 (2 ^ i)) = (v, true, false)) ∧
    (∀ i j, i < j → j < 39 → (otpJudge (otpEncode v ^^^ BitVec.ofNat 39 (2 ^ i) ^^^ BitVec.ofNat 39 (2 ^ j))).2 =
      (false, true))

/-- Entry to TEST: a selection is stored or refused, the first key arms in START with TST high and a test selected, the
second clears the keys and enters TEST with the domains of the selected test; out of order, late, without TST, with
a failed readback or where TST falls between its steps the sequence is cancelled, with what its steps have done
(R438). It rests on choices of the model besides: log entries 5 and 67. -/
def Obligations.TestKeys : Prop :=
  ∀ s : State, s.rested →
    let armed := s.bit F.TRU_STAT.ARMED = true
    let cancelled := fun (i : Instr) => ∃ t, exec i s = .next t ∧ t.get F.TRU_STAT.ARMED = 0 ∧
      t.get F.TRU_EVT.TEST_REFUSED = 1 ∧ t.ptr.dev = s.ptr.dev ∧ t.ptr.dom = s.ptr.dom
    let gone := fun (t : State) => t.tru.imgKey = .unusable ∧
      t.tru.hostKey = (if s.tru.hostKey = .blank then .blank else .unusable)
    (∀ v : Word, s.on 5 = true → F.TRU_TEST_SEL.SEL.read v ∈ [1, 2, 3, 4] → ∃ t, exec (.testSel v) s = .next t ∧
      t.get F.TRU_TEST_SEL.SEL = F.TRU_TEST_SEL.SEL.read v ∧ only [F.TRU_TEST_SEL.SEL] s s t) ∧
    (∀ v : Word, s.on 5 = true → F.TRU_TEST_SEL.SEL.read v ∉ [1, 2, 3, 4] → ∃ t, exec (.testSel v) s = .next t ∧
      t.get F.TRU_EVT.TEST_REFUSED = 1 ∧ only [F.TRU_EVT.TEST_REFUSED] s s t) ∧
    (∀ v : Word, s.on 5 = true → F.TRU_TEST_KEY.KEY.read v = 0x7E57 →
      (s.ptr.dev = .start → s.get F.TRU_TEST_SEL.SEL ≠ 0 → ¬ armed → ∃ t, exec (.testKeyArm v true) s = .next t ∧
        t.get F.TRU_STAT.ARMED = 1 ∧ t.tru.tst = true ∧ t.get F.TRU_EVT.TEST_REFUSED = s.get F.TRU_EVT.TEST_REFUSED) ∧
      cancelled (.testKeyArm v false) ∧
      (s.ptr.dev ≠ .start ∨ s.get F.TRU_TEST_SEL.SEL = 0 ∨ armed → cancelled (.testKeyArm v true))) ∧
    (∀ v : Word, s.on 5 = true → F.TRU_TEST_KEY.KEY.read v = 0xA11C →
      let may := armed ∧ s.tru.tst = true ∧ s.ptr.dev = .start
      (may → ∃ t, exec (.testKeyUnlock v ⟨true, 7⟩) s = .next t ∧ t.ptr.dev = .test ∧ t.ptr.prev = .start ∧
        t.get F.TRU_STAT.ARMED = 0 ∧ t.get F.TRU_STAT.KEYS_CLR = 1 ∧ gone t ∧
        t.ink.state ≠ .running ∧ t.lp = false ∧ t.boot.step = .none ∧
        (∀ d ∈ domSet, t.on d = (testDoms (s.get F.TRU_TEST_SEL.SEL)).getLsbD d) ∧
        (s.get F.TRU_TEST_SEL.SEL = 4 → t.tru.item = 1) ∧ (s.get F.TRU_TEST_SEL.SEL ≠ 4 → t.tru.item = 0)) ∧
      (∀ o : UnlockObs, may → 7 ≤ o.done → exec (.testKeyUnlock v o) s = exec (.testKeyUnlock v ⟨o.zeroReadback, 7⟩) s) ∧
      (∀ o : UnlockObs, may → o.zeroReadback = false ∨ o.done < 7 → ∃ t, exec (.testKeyUnlock v o) s = .next t ∧
        t.ptr.dev = .start ∧ t.get F.TRU_STAT.ARMED = 0 ∧ t.get F.TRU_EVT.TEST_REFUSED = 1 ∧ (5 ≤ o.done → gone t) ∧
        (o.done < 5 → t.tru.imgKey = s.tru.imgKey ∧ t.tru.hostKey = s.tru.hostKey) ∧
        (5 ≤ o.done → o.zeroReadback = true → t.get F.TRU_STAT.KEYS_CLR = 1) ∧
        (4 ≤ o.done → t.ink.state ≠ .running)) ∧
      (∀ o : UnlockObs, ¬ may → cancelled (.testKeyUnlock v o))) ∧
    (armed → cancelled .testKeyTimeout) ∧ (¬ armed → exec .testKeyTimeout s = .next s) ∧
    (armed → cancelled .tstFall) ∧
    (¬ armed → exec .tstFall s = .next { s with tru := { s.tru with tst := false } })

/-- Register accesses: a write on any path, and STE, of a register that obeys its access codes alone changes that
register by R6 and nothing else; so do, with D6 on, those of the Guard's events and their enables; a reserved
address takes none; a mailbox word from outside is stored and announced (R309); and a read of PTR_TIMEL holds the
high word for its path (R421). That no access acts while D5 is off is the model's reading, log entry 8. -/
def Obligations.RegisterAccesses : Prop :=
  ∀ s : State, s.rested →
    (∀ (p : Path) (a : Nat) (v : Word), s.on 5 = true → a ∈ codeRegs → ∃ t,
      exec (.registerWrite p a v) s = .next t ∧ wrote s t a v ∧ only [Fld.whole a] s s t) ∧
    (∀ (e : InkEnv) (rd ra : BitVec 4) (imm : BitVec 18) (a : Nat), s.inkGoes e → e.fetch = .clean →
      a = (s.g ra + imm.signExtend 32).toNat → a ∈ codeRegs → ∃ t, exec (.ste e rd ra imm) s = .next t ∧
        wrote s t a (s.g rd) ∧ only [Fld.whole a] s { s with ink := { s.ink with pc := s.ink.pc + 1 } } t) ∧
    (s.on 5 = true → s.on 6 = true → ∀ a ∈ [A.GRD_EVT, A.GRD_EVT_EN],
      (∀ (p : Path) (v : Word), ∃ t, exec (.registerWrite p a v) s = .next t ∧ wrote s t a v ∧
        only [Fld.whole a] s s t) ∧
      (∀ (e : InkEnv) (rd ra : BitVec 4) (imm : BitVec 18), s.inkGoes e → e.fetch = .clean →
        a = (s.g ra + imm.signExtend 32).toNat → ∃ t, exec (.ste e rd ra imm) s = .next t ∧ wrote s t a (s.g rd) ∧
          only [Fld.whole a] s { s with ink := { s.ink with pc := s.ink.pc + 1 } } t)) ∧
    (∀ (p : Path) (a : Nat) (v : Word), isReserved a = true ∨ s.on 5 = false →
      exec (.registerWrite p a v) s = .next s) ∧
    (∀ (p : Path) (a : Nat) (v : Word), s.on 5 = true → isMailbox a = true → isReserved a = false → p ≠ .ink →
      ∃ t, exec (.registerWrite p a v) s = .next t ∧ t.dataWord a = v ∧ t.get F.INK_EVT.MBX = 1 ∧
        t.get F.INK_MBXA.COUNT = (s.get F.INK_MBXA.COUNT + 1) % 2 ^ F.INK_MBXA.COUNT.w ∧
        (∀ b, b ≠ a → t.dataWord b = s.dataWord b)) ∧
    (∀ p : Path, s.on 5 = true → ∃ t, exec (.timelRead p) s = .next t ∧ t.timeHold p = s.timeNow.extractLsb' 32 32 ∧
      (∀ q, q ≠ p → t.timeHold q = s.timeHold q) ∧ t = { s with ptr := t.ptr } ∧ t.ptr.time = s.ptr.time)

/-- One step is the command at the front of the queue on the state with the rest of the queue; with nothing waiting,
TIME moves and what is staged moves on (the model's choice, log entry 3), and the Innkeeper does what its program
says next: it executes the instruction at PC, or ends a WFE whose line has asserted (the model's choice, log entry
4). -/
def Obligations.StepRuns : Prop :=
  ∀ s : State, (∀ (c : Instr) (rest : List Instr), step { s with pending := c :: rest } = exec c { s with pending := rest }) ∧
    (s.pending = [] → s.ink.state ≠ .running → s.ink.state ≠ .waiting → step s = .next (tick s)) ∧
    (s.pending = [] → s.ink.state = .waiting → step s = exec .wfeWake (tick s)) ∧
    (s.pending = [] → s.ink.state = .running →
      step s = exec (inkDecode .ok (Mem.word 0 s.ink.prog (4 * s.ink.pc.toNat))) (tick s))

/-- Every step leaves the block rested: from a state in which the Guard's status has been acted on, no note waits that
has room and no broadcast waits for its completion, every step that answers a next state answers one that is so
again. It rests on choices of the model besides: log entry 4. -/
def Obligations.StepRests : Prop := ∀ s t : State, s.rested → step s = .next t → t.rested

/-- The state after reset: it is rested, stored in canonical form, nothing waits, and what the spec states of it. It
rests on choices of the model besides: log entries 1 and 26. -/
def Obligations.ResetState : Prop :=
  State.reset.rested ∧ State.reset.stored = true ∧ State.reset.pending = [] ∧ State.reset.ptr.dev = .start ∧
    State.reset.ptr.time = 0 ∧ (∀ d, State.reset.on d = (d == 0)) ∧ (∀ a, State.reset.reg a = Reg.reset a) ∧
    State.reset.reg A.PTR_RST = 1 ∧ State.reset.reg A.SAT_CTRL = 4 ∧ State.reset.reg A.GRD_STAT = 0 ∧
    State.reset.grdOk = false ∧ State.reset.soaDriven = false ∧ State.reset.ink.state = .notStarted ∧
    (∀ p, State.reset.linkState p = 0)

/-- R340, the two permits: with D6 on, LP holds exactly while the block is valid and committed, the start-up test is
done, no fault is latched, no pair with ROLE = 1 is demanding and the device is in START, RUN or RECOVER; GRD_OK
holds exactly while LP, FLI_OK and WD_ARMED hold in RUN or RECOVER; GRD_STAT reports both and INK_SAFE the second. -/
def Obligations.SafetyPermits : Prop :=
  ∀ s : State,
    (s.on 6 = true → (s.lp = true ↔ s.get F.GRD_STAT.BLK = 1 ∧ s.get F.GRD_STAT.COMMIT = 1 ∧
      s.get F.GRD_STAT.SUT_DONE = 1 ∧ s.reg A.GRD_FLT = 0 ∧
      (∀ k, k < 4 → (s.grdWord (8 + k)).getLsbD 30 = true → s.demanding k = false) ∧
      (s.ptr.dev = .start ∨ s.ptr.dev = .run ∨ s.ptr.dev = .recover))) ∧
    (s.grdOk = true ↔ s.lp = true ∧ s.get F.GRD_STAT.FLI_OK = 1 ∧ s.get F.GRD_STAT.WD_ARMED = 1 ∧
      (s.ptr.dev = .run ∨ s.ptr.dev = .recover)) ∧
    (∀ p : Path, F.GRD_STAT.LP.read (s.view p A.GRD_STAT) = s.lp.toNat ∧
      F.GRD_STAT.GRD_OK.read (s.view p A.GRD_STAT) = s.grdOk.toNat ∧
      F.INK_SAFE.GRD_OK.read (s.view p A.INK_SAFE) = s.grdOk.toNat)
end

