-- ==== Sys2Proof/Laws/Field.lean ====
section
/-! SUPPORT. Laws of the fields of a word: what a field reads as after a write to itself, and that a write leaves the
bits of every other field. -/

namespace Sys2Proof.Machine

/-- The field lies within a word. -/
def Fld.ok (f : Fld) : Bool := Nat.ble (f.lo + f.w) 32

/-- Two fields share no bit of one register, or lie in different ones. -/
def Fld.apart (f g : Fld) : Bool :=
  f.addr != g.addr || Nat.ble (f.lo + f.w) g.lo || Nat.ble (g.lo + g.w) f.lo

theorem Fld.getLsbD_mask (f : Fld) (i : Nat) :
    f.mask.getLsbD i = (decide (i < 32) && decide (f.lo ≤ i) && decide (i < f.lo + f.w)) := by
  unfold Fld.mask
  simp only [BitVec.getLsbD_shiftLeft, BitVec.getLsbD_ofNat, Nat.testBit_two_pow_sub_one]
  rw [Bool.eq_iff_iff]
  simp only [Bool.and_eq_true, Bool.not_eq_true', decide_eq_true_eq, decide_eq_false_iff_not]
  omega

theorem Fld.getLsbD_write (f : Fld) (v : Word) (n i : Nat) :
    (f.write v n).getLsbD i =
      if decide (i < 32) && decide (f.lo ≤ i) && decide (i < f.lo + f.w) then n.testBit (i - f.lo) else v.getLsbD i := by
  unfold Fld.write
  rw [BitVec.getLsbD_or, BitVec.getLsbD_and, BitVec.getLsbD_not, Fld.getLsbD_mask, BitVec.getLsbD_shiftLeft,
    BitVec.getLsbD_ofNat, Nat.testBit_mod_two_pow]
  by_cases h1 : i < 32
  · by_cases h2 : f.lo ≤ i
    · by_cases h3 : i < f.lo + f.w
      · have h4 : ¬ i < f.lo := by omega
        have h5 : i - f.lo < f.w := by omega
        have h6 : i - f.lo < 32 := by omega
        simp [h1, h2, h3, h4, h5, h6]
      · have h5 : ¬ i - f.lo < f.w := by omega
        simp [h1, h3, h5]
    · have h4 : i < f.lo := by omega
      simp [h1, h2, h4]
  · have : v.getLsbD i = false := BitVec.getLsbD_of_ge v i (by omega)
    simp [h1, this]

/-- A field reads the number just written to it, cut to its width. -/
theorem Fld.read_write (f : Fld) (v : Word) (n : Nat) (h : f.ok = true) : f.read (f.write v n) = n % 2 ^ f.w := by
  have hw : f.lo + f.w ≤ 32 := Nat.le_of_ble_eq_true h
  apply Nat.eq_of_testBit_eq
  intro i
  unfold Fld.read
  rw [Nat.testBit_mod_two_pow, Nat.testBit_mod_two_pow, Nat.testBit_shiftRight]
  by_cases hi : i < f.w
  · have := Fld.getLsbD_write f v n (f.lo + i)
    rw [BitVec.getLsbD] at this
    rw [this]
    have h1 : f.lo + i < 32 := by omega
    have h2 : f.lo + i < f.lo + f.w := by omega
    simp [h1, hi]
  · simp [hi]

/-- A write to one field leaves a field that shares no bit with it. -/
theorem Fld.read_write_apart (f g : Fld) (v : Word) (n : Nat)
    (h : (Nat.ble (f.lo + f.w) g.lo || Nat.ble (g.lo + g.w) f.lo) = true) : g.read (f.write v n) = g.read v := by
  have hw : f.lo + f.w ≤ g.lo ∨ g.lo + g.w ≤ f.lo := by
    rcases Bool.or_eq_true _ _ ▸ h with h | h
    · exact Or.inl (Nat.le_of_ble_eq_true h)
    · exact Or.inr (Nat.le_of_ble_eq_true h)
  apply Nat.eq_of_testBit_eq
  intro i
  unfold Fld.read
  rw [Nat.testBit_mod_two_pow, Nat.testBit_mod_two_pow, Nat.testBit_shiftRight, Nat.testBit_shiftRight]
  by_cases hi : i < g.w
  · have := Fld.getLsbD_write f v n (g.lo + i)
    rw [BitVec.getLsbD] at this
    rw [this]
    have hno : ¬ (f.lo ≤ g.lo + i ∧ g.lo + i < f.lo + f.w) := by omega
    by_cases h2 : f.lo ≤ g.lo + i
    · have h3 : ¬ g.lo + i < f.lo + f.w := fun h3 => hno ⟨h2, h3⟩
      simp [hi, h3, BitVec.getLsbD]
    · simp [hi, h2, BitVec.getLsbD]
  · simp [hi]

/-- A field's number lies below 2 to its width. -/
theorem Fld.read_lt (f : Fld) (v : Word) : f.read v < 2 ^ f.w := Nat.mod_lt _ (Nat.two_pow_pos _)

/-- Writing the number a field holds changes nothing. -/
theorem Fld.write_read (f : Fld) (v : Word) : f.write v (f.read v) = v := by
  apply BitVec.eq_of_getLsbD_eq
  intro i hi
  rw [Fld.getLsbD_write]
  split
  · next h =>
    simp only [Bool.and_eq_true, decide_eq_true_eq] at h
    unfold Fld.read
    rw [Nat.testBit_mod_two_pow, Nat.testBit_shiftRight]
    have h1 : f.lo + (i - f.lo) = i := by omega
    have h2 : i - f.lo < f.w := by omega
    rw [h1]
    simp [h2, BitVec.getLsbD]
  · rfl

end Sys2Proof.Machine
end

