-- ==== Sys2Proof/Laws/Sparse.lean ====
section
/-! SUPPORT. Laws of sparse storage: what is read after a write, and that every operation keeps the canonical form. -/

namespace Sys2Proof.Machine

variable {α : Type}

theorem Sparse.get_drop_same (d : Nat → α) (m : List (Nat × α)) (a : Nat) : Sparse.get d (Sparse.drop a m) a = d a := by
  induction m with
  | nil => rfl
  | cons x m ih =>
    obtain ⟨k, w⟩ := x
    by_cases h : k = a
    · simp only [Sparse.drop, h, if_true, ih]
    · simp only [Sparse.drop, h, if_false, Sparse.get, ih]

theorem Sparse.get_drop_ne (d : Nat → α) (m : List (Nat × α)) {a b : Nat} (hab : b ≠ a) :
    Sparse.get d (Sparse.drop a m) b = Sparse.get d m b := by
  induction m with
  | nil => rfl
  | cons x m ih =>
    obtain ⟨k, w⟩ := x
    by_cases h : k = a
    · have hk : ¬ k = b := fun e => hab (e ▸ h)
      simp only [Sparse.drop, h, if_true, Sparse.get, ih]
      rw [if_neg (h ▸ hk)]
    · simp only [Sparse.drop, h, if_false, Sparse.get, ih]

theorem Sparse.get_insert_same (d : Nat → α) (m : List (Nat × α)) (a : Nat) (v : α) :
    Sparse.get d (Sparse.insert a v (Sparse.drop a m)) a = v := by
  induction m with
  | nil => simp [Sparse.drop, Sparse.insert, Sparse.get]
  | cons x m ih =>
    obtain ⟨k, w⟩ := x
    by_cases h : k = a
    · simpa only [Sparse.drop, h, if_true] using ih
    · by_cases hl : a < k
      · simp [Sparse.drop, h, Sparse.insert, hl, Sparse.get]
      · simp only [Sparse.drop, h, if_false, Sparse.insert, hl, Sparse.get, ih]

theorem Sparse.get_insert_ne (d : Nat → α) (m : List (Nat × α)) {a b : Nat} (v : α) (hab : b ≠ a) :
    Sparse.get d (Sparse.insert a v m) b = Sparse.get d m b := by
  have hba : ¬ a = b := fun e => hab e.symm
  induction m with
  | nil => simp [Sparse.insert, Sparse.get, hba]
  | cons x m ih =>
    obtain ⟨k, w⟩ := x
    by_cases hl : a < k
    · simp [Sparse.insert, hl, Sparse.get, hba]
    · simp only [Sparse.insert, hl, if_false, Sparse.get, ih]

/-- What is kept reads as before; the rest reads as unlisted. -/
theorem Sparse.get_keep (d : Nat → α) (p : Nat → Bool) (m : List (Nat × α)) (a : Nat) :
    Sparse.get d (Sparse.keep p m) a = if p a then Sparse.get d m a else d a := by
  induction m with
  | nil => simp [Sparse.keep, Sparse.get]
  | cons x m ih =>
    obtain ⟨k, w⟩ := x
    by_cases hk : p k = true
    · by_cases h : k = a
      · subst h; simp [Sparse.keep, hk, Sparse.get]
      · simp only [Sparse.keep, hk, if_true, Sparse.get, h, if_false, ih]
    · by_cases h : k = a
      · subst h; simp [Sparse.keep, hk, ih]
      · simp only [Sparse.keep, hk, Bool.false_eq_true, if_false, Sparse.get, h, ih]

/-- No entry stands at an address. -/
def Sparse.free (a : Nat) (m : List (Nat × α)) : Bool := m.all fun x => decide (x.1 ≠ a)

theorem Sparse.free_drop (a : Nat) (m : List (Nat × α)) : Sparse.free a (Sparse.drop a m) = true := by
  induction m with
  | nil => rfl
  | cons x m ih =>
    obtain ⟨k, w⟩ := x
    by_cases hk : k = a
    · simp only [Sparse.drop, hk, if_true, ih]
    · simp only [Sparse.drop, hk, if_false]
      simp only [Sparse.free, List.all_cons, Bool.and_eq_true]
      exact ⟨decide_eq_true hk, ih⟩

variable [DecidableEq α]

/-- A read of the address just written gives the value written. -/
@[simp] theorem Sparse.get_set_same (d : Nat → α) (m : List (Nat × α)) (a : Nat) (v : α) :
    Sparse.get d (Sparse.set d m a v) a = v := by
  unfold Sparse.set
  split
  · next h => rw [Sparse.get_drop_same, h]
  · exact Sparse.get_insert_same d m a v

/-- A write leaves every other address as it was. -/
theorem Sparse.get_set_ne (d : Nat → α) (m : List (Nat × α)) {a b : Nat} (v : α) (h : b ≠ a) :
    Sparse.get d (Sparse.set d m a v) b = Sparse.get d m b := by
  unfold Sparse.set
  split
  · exact Sparse.get_drop_ne d m h
  · rw [Sparse.get_insert_ne _ _ _ h, Sparse.get_drop_ne _ _ h]

/-! ### The canonical form -/

/-- Every address of a list lies above a bound, where there is one. -/
def Sparse.above (lo : Option Nat) (a : Nat) : Bool := match lo with | none => true | some l => decide (l < a)

theorem Sparse.wfFrom_cons (d : Nat → α) (lo : Option Nat) (k : Nat) (v : α) (m : List (Nat × α)) :
    Sparse.wfFrom d lo ((k, v) :: m) = (Sparse.above lo k && decide (v ≠ d k) && Sparse.wfFrom d (some k) m) := rfl

theorem Sparse.above_of_le {lo : Option Nat} {k l : Nat} (h : Sparse.above lo k = true) (hl : k ≤ l) :
    Sparse.above lo l = true := by
  cases lo with
  | none => rfl
  | some x =>
    have : x < k := of_decide_eq_true h
    exact decide_eq_true (Nat.lt_of_lt_of_le this hl)

theorem Sparse.wfFrom_lower (d : Nat → α) {lo : Option Nat} {k : Nat} (m : List (Nat × α))
    (hk : Sparse.above lo k = true) (h : Sparse.wfFrom d (some k) m = true) : Sparse.wfFrom d lo m = true := by
  cases m with
  | nil => rfl
  | cons x m =>
    obtain ⟨j, w⟩ := x
    simp only [Sparse.wfFrom_cons, Bool.and_eq_true] at h ⊢
    have hj : k < j := of_decide_eq_true h.1.1
    exact ⟨⟨Sparse.above_of_le hk (Nat.le_of_lt hj), h.1.2⟩, h.2⟩

theorem Sparse.wfFrom_drop (d : Nat → α) (a : Nat) (m : List (Nat × α)) :
    ∀ lo, Sparse.wfFrom d lo m = true → Sparse.wfFrom d lo (Sparse.drop a m) = true := by
  induction m with
  | nil => intro lo _; rfl
  | cons x m ih =>
    obtain ⟨k, w⟩ := x
    intro lo h
    simp only [Sparse.wfFrom_cons, Bool.and_eq_true] at h
    by_cases hk : k = a
    · simp only [Sparse.drop, hk, if_true]
      exact Sparse.wfFrom_lower d _ (hk ▸ h.1.1) (hk ▸ ih _ h.2)
    · simp only [Sparse.drop, hk, if_false, Sparse.wfFrom_cons, Bool.and_eq_true]
      exact ⟨h.1, ih _ h.2⟩

theorem Sparse.wfFrom_keep (d : Nat → α) (p : Nat → Bool) (m : List (Nat × α)) :
    ∀ lo, Sparse.wfFrom d lo m = true → Sparse.wfFrom d lo (Sparse.keep p m) = true := by
  induction m with
  | nil => intro lo _; rfl
  | cons x m ih =>
    obtain ⟨k, w⟩ := x
    intro lo h
    simp only [Sparse.wfFrom_cons, Bool.and_eq_true] at h
    by_cases hk : p k = true
    · simp only [Sparse.keep, hk, if_true, Sparse.wfFrom_cons, Bool.and_eq_true]
      exact ⟨h.1, ih _ h.2⟩
    · simp only [Sparse.keep, hk]
      exact Sparse.wfFrom_lower d _ h.1.1 (ih _ h.2)

theorem Sparse.wfFrom_insert (d : Nat → α) {a : Nat} {v : α} (hv : v ≠ d a) (m : List (Nat × α)) :
    ∀ lo, Sparse.above lo a = true → Sparse.free a m = true → Sparse.wfFrom d lo m = true →
      Sparse.wfFrom d lo (Sparse.insert a v m) = true := by
  induction m with
  | nil =>
    intro lo hlo _ _
    simp only [Sparse.insert, Sparse.wfFrom_cons, Bool.and_eq_true]
    exact ⟨⟨hlo, decide_eq_true hv⟩, rfl⟩
  | cons x m ih =>
    obtain ⟨k, w⟩ := x
    intro lo hlo hf h
    simp only [Sparse.wfFrom_cons, Bool.and_eq_true] at h
    simp only [Sparse.free, List.all_cons, Bool.and_eq_true] at hf
    have hka : k ≠ a := of_decide_eq_true hf.1
    by_cases hl : a < k
    · simp only [Sparse.insert, hl, if_true, Sparse.wfFrom_cons, Bool.and_eq_true]
      exact ⟨⟨hlo, decide_eq_true hv⟩, ⟨⟨decide_eq_true hl, h.1.2⟩, h.2⟩⟩
    · simp only [Sparse.insert, hl, if_false, Sparse.wfFrom_cons, Bool.and_eq_true]
      have hk : k < a := Nat.lt_of_le_of_ne (Nat.le_of_not_lt hl) hka
      exact ⟨h.1, ih _ (decide_eq_true hk) hf.2 h.2⟩

/-- A write keeps the canonical form. -/
theorem Sparse.wf_set (d : Nat → α) (m : List (Nat × α)) (a : Nat) (v : α) (h : Sparse.wf d m = true) :
    Sparse.wf d (Sparse.set d m a v) = true := by
  unfold Sparse.set Sparse.wf at *
  split
  · exact Sparse.wfFrom_drop d a m _ h
  · next hv => exact Sparse.wfFrom_insert d hv _ _ rfl (Sparse.free_drop a m) (Sparse.wfFrom_drop d a m _ h)

/-- Keeping a part keeps the canonical form. -/
theorem Sparse.wf_keep (d : Nat → α) (p : Nat → Bool) (m : List (Nat × α)) (h : Sparse.wf d m = true) :
    Sparse.wf d (Sparse.keep p m) = true := Sparse.wfFrom_keep d p m _ h

end Sys2Proof.Machine
end

