-- ==== Sys2Proof/Laws/State.lean ====
section
/-! SUPPORT. Laws of the state's updates: per update, what each part of the state is afterwards. -/

namespace Sys2Proof.Machine

/-! ### Writes of the endpoint file leave every other part -/

@[simp] theorem State.setReg_ptr (s : State) (a : Nat) (v : Word) : (s.setReg a v).ptr = s.ptr := rfl
@[simp] theorem State.setReg_led (s : State) (a : Nat) (v : Word) : (s.setReg a v).led = s.led := rfl
@[simp] theorem State.setReg_cel (s : State) (a : Nat) (v : Word) : (s.setReg a v).cel = s.cel := rfl
@[simp] theorem State.setReg_north (s : State) (a : Nat) (v : Word) : (s.setReg a v).north = s.north := rfl
@[simp] theorem State.setReg_south (s : State) (a : Nat) (v : Word) : (s.setReg a v).south = s.south := rfl
@[simp] theorem State.setReg_net (s : State) (a : Nat) (v : Word) : (s.setReg a v).net = s.net := rfl
@[simp] theorem State.setReg_host (s : State) (a : Nat) (v : Word) : (s.setReg a v).host = s.host := rfl
@[simp] theorem State.setReg_grd (s : State) (a : Nat) (v : Word) : (s.setReg a v).grd = s.grd := rfl
@[simp] theorem State.setReg_ink (s : State) (a : Nat) (v : Word) : (s.setReg a v).ink = s.ink := rfl
@[simp] theorem State.setReg_boot (s : State) (a : Nat) (v : Word) : (s.setReg a v).boot = s.boot := rfl
@[simp] theorem State.setReg_tru (s : State) (a : Nat) (v : Word) : (s.setReg a v).tru = s.tru := rfl
@[simp] theorem State.setReg_meas (s : State) (a : Nat) (v : Word) : (s.setReg a v).meas = s.meas := rfl
@[simp] theorem State.setReg_trv (s : State) (a : Nat) (v : Word) : (s.setReg a v).trv = s.trv := rfl
@[simp] theorem State.setReg_ow (s : State) (a : Nat) (v : Word) : (s.setReg a v).ow = s.ow := rfl
@[simp] theorem State.setReg_sdp (s : State) (a : Nat) (v : Word) : (s.setReg a v).sdp = s.sdp := rfl
@[simp] theorem State.setReg_imp (s : State) (a : Nat) (v : Word) : (s.setReg a v).imp = s.imp := rfl
@[simp] theorem State.setReg_phc (s : State) (a : Nat) (v : Word) : (s.setReg a v).phc = s.phc := rfl
@[simp] theorem State.setReg_bal (s : State) (a : Nat) (v : Word) : (s.setReg a v).bal = s.bal := rfl
@[simp] theorem State.setReg_thm (s : State) (a : Nat) (v : Word) : (s.setReg a v).thm = s.thm := rfl
@[simp] theorem State.setReg_sat (s : State) (a : Nat) (v : Word) : (s.setReg a v).sat = s.sat := rfl
@[simp] theorem State.setReg_free (s : State) (a : Nat) (v : Word) : (s.setReg a v).free = s.free := rfl
@[simp] theorem State.setReg_pending (s : State) (a : Nat) (v : Word) : (s.setReg a v).pending = s.pending := rfl

@[simp] theorem State.put_ptr (s : State) (f : Fld) (n : Nat) : (s.put f n).ptr = s.ptr := rfl
@[simp] theorem State.put_led (s : State) (f : Fld) (n : Nat) : (s.put f n).led = s.led := rfl
@[simp] theorem State.put_cel (s : State) (f : Fld) (n : Nat) : (s.put f n).cel = s.cel := rfl
@[simp] theorem State.put_north (s : State) (f : Fld) (n : Nat) : (s.put f n).north = s.north := rfl
@[simp] theorem State.put_south (s : State) (f : Fld) (n : Nat) : (s.put f n).south = s.south := rfl
@[simp] theorem State.put_net (s : State) (f : Fld) (n : Nat) : (s.put f n).net = s.net := rfl
@[simp] theorem State.put_host (s : State) (f : Fld) (n : Nat) : (s.put f n).host = s.host := rfl
@[simp] theorem State.put_grd (s : State) (f : Fld) (n : Nat) : (s.put f n).grd = s.grd := rfl
@[simp] theorem State.put_ink (s : State) (f : Fld) (n : Nat) : (s.put f n).ink = s.ink := rfl
@[simp] theorem State.put_boot (s : State) (f : Fld) (n : Nat) : (s.put f n).boot = s.boot := rfl
@[simp] theorem State.put_tru (s : State) (f : Fld) (n : Nat) : (s.put f n).tru = s.tru := rfl
@[simp] theorem State.put_meas (s : State) (f : Fld) (n : Nat) : (s.put f n).meas = s.meas := rfl
@[simp] theorem State.put_trv (s : State) (f : Fld) (n : Nat) : (s.put f n).trv = s.trv := rfl
@[simp] theorem State.put_ow (s : State) (f : Fld) (n : Nat) : (s.put f n).ow = s.ow := rfl
@[simp] theorem State.put_sdp (s : State) (f : Fld) (n : Nat) : (s.put f n).sdp = s.sdp := rfl
@[simp] theorem State.put_imp (s : State) (f : Fld) (n : Nat) : (s.put f n).imp = s.imp := rfl
@[simp] theorem State.put_phc (s : State) (f : Fld) (n : Nat) : (s.put f n).phc = s.phc := rfl
@[simp] theorem State.put_bal (s : State) (f : Fld) (n : Nat) : (s.put f n).bal = s.bal := rfl
@[simp] theorem State.put_thm (s : State) (f : Fld) (n : Nat) : (s.put f n).thm = s.thm := rfl
@[simp] theorem State.put_sat (s : State) (f : Fld) (n : Nat) : (s.put f n).sat = s.sat := rfl
@[simp] theorem State.put_free (s : State) (f : Fld) (n : Nat) : (s.put f n).free = s.free := rfl
@[simp] theorem State.put_pending (s : State) (f : Fld) (n : Nat) : (s.put f n).pending = s.pending := rfl

@[simp] theorem State.putS_ptr (s : State) (f : Fld) (i : Int) : (s.putS f i).ptr = s.ptr := rfl
@[simp] theorem State.putS_led (s : State) (f : Fld) (i : Int) : (s.putS f i).led = s.led := rfl
@[simp] theorem State.putS_cel (s : State) (f : Fld) (i : Int) : (s.putS f i).cel = s.cel := rfl
@[simp] theorem State.putS_north (s : State) (f : Fld) (i : Int) : (s.putS f i).north = s.north := rfl
@[simp] theorem State.putS_south (s : State) (f : Fld) (i : Int) : (s.putS f i).south = s.south := rfl
@[simp] theorem State.putS_net (s : State) (f : Fld) (i : Int) : (s.putS f i).net = s.net := rfl
@[simp] theorem State.putS_host (s : State) (f : Fld) (i : Int) : (s.putS f i).host = s.host := rfl
@[simp] theorem State.putS_grd (s : State) (f : Fld) (i : Int) : (s.putS f i).grd = s.grd := rfl
@[simp] theorem State.putS_ink (s : State) (f : Fld) (i : Int) : (s.putS f i).ink = s.ink := rfl
@[simp] theorem State.putS_boot (s : State) (f : Fld) (i : Int) : (s.putS f i).boot = s.boot := rfl
@[simp] theorem State.putS_tru (s : State) (f : Fld) (i : Int) : (s.putS f i).tru = s.tru := rfl
@[simp] theorem State.putS_meas (s : State) (f : Fld) (i : Int) : (s.putS f i).meas = s.meas := rfl
@[simp] theorem State.putS_trv (s : State) (f : Fld) (i : Int) : (s.putS f i).trv = s.trv := rfl
@[simp] theorem State.putS_ow (s : State) (f : Fld) (i : Int) : (s.putS f i).ow = s.ow := rfl
@[simp] theorem State.putS_sdp (s : State) (f : Fld) (i : Int) : (s.putS f i).sdp = s.sdp := rfl
@[simp] theorem State.putS_imp (s : State) (f : Fld) (i : Int) : (s.putS f i).imp = s.imp := rfl
@[simp] theorem State.putS_phc (s : State) (f : Fld) (i : Int) : (s.putS f i).phc = s.phc := rfl
@[simp] theorem State.putS_bal (s : State) (f : Fld) (i : Int) : (s.putS f i).bal = s.bal := rfl
@[simp] theorem State.putS_thm (s : State) (f : Fld) (i : Int) : (s.putS f i).thm = s.thm := rfl
@[simp] theorem State.putS_sat (s : State) (f : Fld) (i : Int) : (s.putS f i).sat = s.sat := rfl
@[simp] theorem State.putS_free (s : State) (f : Fld) (i : Int) : (s.putS f i).free = s.free := rfl
@[simp] theorem State.putS_pending (s : State) (f : Fld) (i : Int) : (s.putS f i).pending = s.pending := rfl

@[simp] theorem State.putB_ptr (s : State) (f : Fld) (b : Bool) : (s.putB f b).ptr = s.ptr := rfl
@[simp] theorem State.putB_led (s : State) (f : Fld) (b : Bool) : (s.putB f b).led = s.led := rfl
@[simp] theorem State.putB_cel (s : State) (f : Fld) (b : Bool) : (s.putB f b).cel = s.cel := rfl
@[simp] theorem State.putB_north (s : State) (f : Fld) (b : Bool) : (s.putB f b).north = s.north := rfl
@[simp] theorem State.putB_south (s : State) (f : Fld) (b : Bool) : (s.putB f b).south = s.south := rfl
@[simp] theorem State.putB_net (s : State) (f : Fld) (b : Bool) : (s.putB f b).net = s.net := rfl
@[simp] theorem State.putB_host (s : State) (f : Fld) (b : Bool) : (s.putB f b).host = s.host := rfl
@[simp] theorem State.putB_grd (s : State) (f : Fld) (b : Bool) : (s.putB f b).grd = s.grd := rfl
@[simp] theorem State.putB_ink (s : State) (f : Fld) (b : Bool) : (s.putB f b).ink = s.ink := rfl
@[simp] theorem State.putB_boot (s : State) (f : Fld) (b : Bool) : (s.putB f b).boot = s.boot := rfl
@[simp] theorem State.putB_tru (s : State) (f : Fld) (b : Bool) : (s.putB f b).tru = s.tru := rfl
@[simp] theorem State.putB_meas (s : State) (f : Fld) (b : Bool) : (s.putB f b).meas = s.meas := rfl
@[simp] theorem State.putB_trv (s : State) (f : Fld) (b : Bool) : (s.putB f b).trv = s.trv := rfl
@[simp] theorem State.putB_ow (s : State) (f : Fld) (b : Bool) : (s.putB f b).ow = s.ow := rfl
@[simp] theorem State.putB_sdp (s : State) (f : Fld) (b : Bool) : (s.putB f b).sdp = s.sdp := rfl
@[simp] theorem State.putB_imp (s : State) (f : Fld) (b : Bool) : (s.putB f b).imp = s.imp := rfl
@[simp] theorem State.putB_phc (s : State) (f : Fld) (b : Bool) : (s.putB f b).phc = s.phc := rfl
@[simp] theorem State.putB_bal (s : State) (f : Fld) (b : Bool) : (s.putB f b).bal = s.bal := rfl
@[simp] theorem State.putB_thm (s : State) (f : Fld) (b : Bool) : (s.putB f b).thm = s.thm := rfl
@[simp] theorem State.putB_sat (s : State) (f : Fld) (b : Bool) : (s.putB f b).sat = s.sat := rfl
@[simp] theorem State.putB_free (s : State) (f : Fld) (b : Bool) : (s.putB f b).free = s.free := rfl
@[simp] theorem State.putB_pending (s : State) (f : Fld) (b : Bool) : (s.putB f b).pending = s.pending := rfl

@[simp] theorem State.raise_ptr (s : State) (f : Fld) : (s.raise f).ptr = s.ptr := rfl
@[simp] theorem State.raise_led (s : State) (f : Fld) : (s.raise f).led = s.led := rfl
@[simp] theorem State.raise_cel (s : State) (f : Fld) : (s.raise f).cel = s.cel := rfl
@[simp] theorem State.raise_north (s : State) (f : Fld) : (s.raise f).north = s.north := rfl
@[simp] theorem State.raise_south (s : State) (f : Fld) : (s.raise f).south = s.south := rfl
@[simp] theorem State.raise_net (s : State) (f : Fld) : (s.raise f).net = s.net := rfl
@[simp] theorem State.raise_host (s : State) (f : Fld) : (s.raise f).host = s.host := rfl
@[simp] theorem State.raise_grd (s : State) (f : Fld) : (s.raise f).grd = s.grd := rfl
@[simp] theorem State.raise_ink (s : State) (f : Fld) : (s.raise f).ink = s.ink := rfl
@[simp] theorem State.raise_boot (s : State) (f : Fld) : (s.raise f).boot = s.boot := rfl
@[simp] theorem State.raise_tru (s : State) (f : Fld) : (s.raise f).tru = s.tru := rfl
@[simp] theorem State.raise_meas (s : State) (f : Fld) : (s.raise f).meas = s.meas := rfl
@[simp] theorem State.raise_trv (s : State) (f : Fld) : (s.raise f).trv = s.trv := rfl
@[simp] theorem State.raise_ow (s : State) (f : Fld) : (s.raise f).ow = s.ow := rfl
@[simp] theorem State.raise_sdp (s : State) (f : Fld) : (s.raise f).sdp = s.sdp := rfl
@[simp] theorem State.raise_imp (s : State) (f : Fld) : (s.raise f).imp = s.imp := rfl
@[simp] theorem State.raise_phc (s : State) (f : Fld) : (s.raise f).phc = s.phc := rfl
@[simp] theorem State.raise_bal (s : State) (f : Fld) : (s.raise f).bal = s.bal := rfl
@[simp] theorem State.raise_thm (s : State) (f : Fld) : (s.raise f).thm = s.thm := rfl
@[simp] theorem State.raise_sat (s : State) (f : Fld) : (s.raise f).sat = s.sat := rfl
@[simp] theorem State.raise_free (s : State) (f : Fld) : (s.raise f).free = s.free := rfl
@[simp] theorem State.raise_pending (s : State) (f : Fld) : (s.raise f).pending = s.pending := rfl

@[simp] theorem State.bump_ptr (s : State) (f : Fld) (n : Nat) : (s.bump f n).ptr = s.ptr := rfl
@[simp] theorem State.bump_led (s : State) (f : Fld) (n : Nat) : (s.bump f n).led = s.led := rfl
@[simp] theorem State.bump_cel (s : State) (f : Fld) (n : Nat) : (s.bump f n).cel = s.cel := rfl
@[simp] theorem State.bump_north (s : State) (f : Fld) (n : Nat) : (s.bump f n).north = s.north := rfl
@[simp] theorem State.bump_south (s : State) (f : Fld) (n : Nat) : (s.bump f n).south = s.south := rfl
@[simp] theorem State.bump_net (s : State) (f : Fld) (n : Nat) : (s.bump f n).net = s.net := rfl
@[simp] theorem State.bump_host (s : State) (f : Fld) (n : Nat) : (s.bump f n).host = s.host := rfl
@[simp] theorem State.bump_grd (s : State) (f : Fld) (n : Nat) : (s.bump f n).grd = s.grd := rfl
@[simp] theorem State.bump_ink (s : State) (f : Fld) (n : Nat) : (s.bump f n).ink = s.ink := rfl
@[simp] theorem State.bump_boot (s : State) (f : Fld) (n : Nat) : (s.bump f n).boot = s.boot := rfl
@[simp] theorem State.bump_tru (s : State) (f : Fld) (n : Nat) : (s.bump f n).tru = s.tru := rfl
@[simp] theorem State.bump_meas (s : State) (f : Fld) (n : Nat) : (s.bump f n).meas = s.meas := rfl
@[simp] theorem State.bump_trv (s : State) (f : Fld) (n : Nat) : (s.bump f n).trv = s.trv := rfl
@[simp] theorem State.bump_ow (s : State) (f : Fld) (n : Nat) : (s.bump f n).ow = s.ow := rfl
@[simp] theorem State.bump_sdp (s : State) (f : Fld) (n : Nat) : (s.bump f n).sdp = s.sdp := rfl
@[simp] theorem State.bump_imp (s : State) (f : Fld) (n : Nat) : (s.bump f n).imp = s.imp := rfl
@[simp] theorem State.bump_phc (s : State) (f : Fld) (n : Nat) : (s.bump f n).phc = s.phc := rfl
@[simp] theorem State.bump_bal (s : State) (f : Fld) (n : Nat) : (s.bump f n).bal = s.bal := rfl
@[simp] theorem State.bump_thm (s : State) (f : Fld) (n : Nat) : (s.bump f n).thm = s.thm := rfl
@[simp] theorem State.bump_sat (s : State) (f : Fld) (n : Nat) : (s.bump f n).sat = s.sat := rfl
@[simp] theorem State.bump_free (s : State) (f : Fld) (n : Nat) : (s.bump f n).free = s.free := rfl
@[simp] theorem State.bump_pending (s : State) (f : Fld) (n : Nat) : (s.bump f n).pending = s.pending := rfl

@[simp] theorem State.bumpSat_ptr (s : State) (f : Fld) (n : Nat) : (s.bumpSat f n).ptr = s.ptr := rfl
@[simp] theorem State.bumpSat_led (s : State) (f : Fld) (n : Nat) : (s.bumpSat f n).led = s.led := rfl
@[simp] theorem State.bumpSat_cel (s : State) (f : Fld) (n : Nat) : (s.bumpSat f n).cel = s.cel := rfl
@[simp] theorem State.bumpSat_north (s : State) (f : Fld) (n : Nat) : (s.bumpSat f n).north = s.north := rfl
@[simp] theorem State.bumpSat_south (s : State) (f : Fld) (n : Nat) : (s.bumpSat f n).south = s.south := rfl
@[simp] theorem State.bumpSat_net (s : State) (f : Fld) (n : Nat) : (s.bumpSat f n).net = s.net := rfl
@[simp] theorem State.bumpSat_host (s : State) (f : Fld) (n : Nat) : (s.bumpSat f n).host = s.host := rfl
@[simp] theorem State.bumpSat_grd (s : State) (f : Fld) (n : Nat) : (s.bumpSat f n).grd = s.grd := rfl
@[simp] theorem State.bumpSat_ink (s : State) (f : Fld) (n : Nat) : (s.bumpSat f n).ink = s.ink := rfl
@[simp] theorem State.bumpSat_boot (s : State) (f : Fld) (n : Nat) : (s.bumpSat f n).boot = s.boot := rfl
@[simp] theorem State.bumpSat_tru (s : State) (f : Fld) (n : Nat) : (s.bumpSat f n).tru = s.tru := rfl
@[simp] theorem State.bumpSat_meas (s : State) (f : Fld) (n : Nat) : (s.bumpSat f n).meas = s.meas := rfl
@[simp] theorem State.bumpSat_trv (s : State) (f : Fld) (n : Nat) : (s.bumpSat f n).trv = s.trv := rfl
@[simp] theorem State.bumpSat_ow (s : State) (f : Fld) (n : Nat) : (s.bumpSat f n).ow = s.ow := rfl
@[simp] theorem State.bumpSat_sdp (s : State) (f : Fld) (n : Nat) : (s.bumpSat f n).sdp = s.sdp := rfl
@[simp] theorem State.bumpSat_imp (s : State) (f : Fld) (n : Nat) : (s.bumpSat f n).imp = s.imp := rfl
@[simp] theorem State.bumpSat_phc (s : State) (f : Fld) (n : Nat) : (s.bumpSat f n).phc = s.phc := rfl
@[simp] theorem State.bumpSat_bal (s : State) (f : Fld) (n : Nat) : (s.bumpSat f n).bal = s.bal := rfl
@[simp] theorem State.bumpSat_thm (s : State) (f : Fld) (n : Nat) : (s.bumpSat f n).thm = s.thm := rfl
@[simp] theorem State.bumpSat_sat (s : State) (f : Fld) (n : Nat) : (s.bumpSat f n).sat = s.sat := rfl
@[simp] theorem State.bumpSat_free (s : State) (f : Fld) (n : Nat) : (s.bumpSat f n).free = s.free := rfl
@[simp] theorem State.bumpSat_pending (s : State) (f : Fld) (n : Nat) : (s.bumpSat f n).pending = s.pending := rfl

@[simp] theorem State.putBit_ptr (s : State) (a i : Nat) (b : Bool) : (s.putBit a i b).ptr = s.ptr := rfl
@[simp] theorem State.putBit_led (s : State) (a i : Nat) (b : Bool) : (s.putBit a i b).led = s.led := rfl
@[simp] theorem State.putBit_cel (s : State) (a i : Nat) (b : Bool) : (s.putBit a i b).cel = s.cel := rfl
@[simp] theorem State.putBit_north (s : State) (a i : Nat) (b : Bool) : (s.putBit a i b).north = s.north := rfl
@[simp] theorem State.putBit_south (s : State) (a i : Nat) (b : Bool) : (s.putBit a i b).south = s.south := rfl
@[simp] theorem State.putBit_net (s : State) (a i : Nat) (b : Bool) : (s.putBit a i b).net = s.net := rfl
@[simp] theorem State.putBit_host (s : State) (a i : Nat) (b : Bool) : (s.putBit a i b).host = s.host := rfl
@[simp] theorem State.putBit_grd (s : State) (a i : Nat) (b : Bool) : (s.putBit a i b).grd = s.grd := rfl
@[simp] theorem State.putBit_ink (s : State) (a i : Nat) (b : Bool) : (s.putBit a i b).ink = s.ink := rfl
@[simp] theorem State.putBit_boot (s : State) (a i : Nat) (b : Bool) : (s.putBit a i b).boot = s.boot := rfl
@[simp] theorem State.putBit_tru (s : State) (a i : Nat) (b : Bool) : (s.putBit a i b).tru = s.tru := rfl
@[simp] theorem State.putBit_meas (s : State) (a i : Nat) (b : Bool) : (s.putBit a i b).meas = s.meas := rfl
@[simp] theorem State.putBit_trv (s : State) (a i : Nat) (b : Bool) : (s.putBit a i b).trv = s.trv := rfl
@[simp] theorem State.putBit_ow (s : State) (a i : Nat) (b : Bool) : (s.putBit a i b).ow = s.ow := rfl
@[simp] theorem State.putBit_sdp (s : State) (a i : Nat) (b : Bool) : (s.putBit a i b).sdp = s.sdp := rfl
@[simp] theorem State.putBit_imp (s : State) (a i : Nat) (b : Bool) : (s.putBit a i b).imp = s.imp := rfl
@[simp] theorem State.putBit_phc (s : State) (a i : Nat) (b : Bool) : (s.putBit a i b).phc = s.phc := rfl
@[simp] theorem State.putBit_bal (s : State) (a i : Nat) (b : Bool) : (s.putBit a i b).bal = s.bal := rfl
@[simp] theorem State.putBit_thm (s : State) (a i : Nat) (b : Bool) : (s.putBit a i b).thm = s.thm := rfl
@[simp] theorem State.putBit_sat (s : State) (a i : Nat) (b : Bool) : (s.putBit a i b).sat = s.sat := rfl
@[simp] theorem State.putBit_free (s : State) (a i : Nat) (b : Bool) : (s.putBit a i b).free = s.free := rfl
@[simp] theorem State.putBit_pending (s : State) (a i : Nat) (b : Bool) : (s.putBit a i b).pending = s.pending := rfl

@[simp] theorem State.raiseIf_ptr (s : State) (b : Bool) (f : Fld) : (s.raiseIf b f).ptr = s.ptr := by
  cases b <;> rfl
@[simp] theorem State.raiseIf_led (s : State) (b : Bool) (f : Fld) : (s.raiseIf b f).led = s.led := by
  cases b <;> rfl
@[simp] theorem State.raiseIf_cel (s : State) (b : Bool) (f : Fld) : (s.raiseIf b f).cel = s.cel := by
  cases b <;> rfl
@[simp] theorem State.raiseIf_north (s : State) (b : Bool) (f : Fld) : (s.raiseIf b f).north = s.north := by
  cases b <;> rfl
@[simp] theorem State.raiseIf_south (s : State) (b : Bool) (f : Fld) : (s.raiseIf b f).south = s.south := by
  cases b <;> rfl
@[simp] theorem State.raiseIf_net (s : State) (b : Bool) (f : Fld) : (s.raiseIf b f).net = s.net := by
  cases b <;> rfl
@[simp] theorem State.raiseIf_host (s : State) (b : Bool) (f : Fld) : (s.raiseIf b f).host = s.host := by
  cases b <;> rfl
@[simp] theorem State.raiseIf_grd (s : State) (b : Bool) (f : Fld) : (s.raiseIf b f).grd = s.grd := by
  cases b <;> rfl
@[simp] theorem State.raiseIf_ink (s : State) (b : Bool) (f : Fld) : (s.raiseIf b f).ink = s.ink := by
  cases b <;> rfl
@[simp] theorem State.raiseIf_boot (s : State) (b : Bool) (f : Fld) : (s.raiseIf b f).boot = s.boot := by
  cases b <;> rfl
@[simp] theorem State.raiseIf_tru (s : State) (b : Bool) (f : Fld) : (s.raiseIf b f).tru = s.tru := by
  cases b <;> rfl
@[simp] theorem State.raiseIf_meas (s : State) (b : Bool) (f : Fld) : (s.raiseIf b f).meas = s.meas := by
  cases b <;> rfl
@[simp] theorem State.raiseIf_trv (s : State) (b : Bool) (f : Fld) : (s.raiseIf b f).trv = s.trv := by
  cases b <;> rfl
@[simp] theorem State.raiseIf_ow (s : State) (b : Bool) (f : Fld) : (s.raiseIf b f).ow = s.ow := by
  cases b <;> rfl
@[simp] theorem State.raiseIf_sdp (s : State) (b : Bool) (f : Fld) : (s.raiseIf b f).sdp = s.sdp := by
  cases b <;> rfl
@[simp] theorem State.raiseIf_imp (s : State) (b : Bool) (f : Fld) : (s.raiseIf b f).imp = s.imp := by
  cases b <;> rfl
@[simp] theorem State.raiseIf_phc (s : State) (b : Bool) (f : Fld) : (s.raiseIf b f).phc = s.phc := by
  cases b <;> rfl
@[simp] theorem State.raiseIf_bal (s : State) (b : Bool) (f : Fld) : (s.raiseIf b f).bal = s.bal := by
  cases b <;> rfl
@[simp] theorem State.raiseIf_thm (s : State) (b : Bool) (f : Fld) : (s.raiseIf b f).thm = s.thm := by
  cases b <;> rfl
@[simp] theorem State.raiseIf_sat (s : State) (b : Bool) (f : Fld) : (s.raiseIf b f).sat = s.sat := by
  cases b <;> rfl
@[simp] theorem State.raiseIf_free (s : State) (b : Bool) (f : Fld) : (s.raiseIf b f).free = s.free := by
  cases b <;> rfl
@[simp] theorem State.raiseIf_pending (s : State) (b : Bool) (f : Fld) : (s.raiseIf b f).pending = s.pending := by
  cases b <;> rfl

@[simp] theorem State.plainWrite_ptr (s : State) (a : Nat) (v : Word) : (s.plainWrite a v).ptr = s.ptr := by
  unfold State.plainWrite; split <;> rfl
@[simp] theorem State.plainWrite_led (s : State) (a : Nat) (v : Word) : (s.plainWrite a v).led = s.led := by
  unfold State.plainWrite; split <;> rfl
@[simp] theorem State.plainWrite_cel (s : State) (a : Nat) (v : Word) : (s.plainWrite a v).cel = s.cel := by
  unfold State.plainWrite; split <;> rfl
@[simp] theorem State.plainWrite_north (s : State) (a : Nat) (v : Word) : (s.plainWrite a v).north = s.north := by
  unfold State.plainWrite; split <;> rfl
@[simp] theorem State.plainWrite_south (s : State) (a : Nat) (v : Word) : (s.plainWrite a v).south = s.south := by
  unfold State.plainWrite; split <;> rfl
@[simp] theorem State.plainWrite_net (s : State) (a : Nat) (v : Word) : (s.plainWrite a v).net = s.net := by
  unfold State.plainWrite; split <;> rfl
@[simp] theorem State.plainWrite_host (s : State) (a : Nat) (v : Word) : (s.plainWrite a v).host = s.host := by
  unfold State.plainWrite; split <;> rfl
@[simp] theorem State.plainWrite_grd (s : State) (a : Nat) (v : Word) : (s.plainWrite a v).grd = s.grd := by
  unfold State.plainWrite; split <;> rfl
@[simp] theorem State.plainWrite_ink (s : State) (a : Nat) (v : Word) : (s.plainWrite a v).ink = s.ink := by
  unfold State.plainWrite; split <;> rfl
@[simp] theorem State.plainWrite_boot (s : State) (a : Nat) (v : Word) : (s.plainWrite a v).boot = s.boot := by
  unfold State.plainWrite; split <;> rfl
@[simp] theorem State.plainWrite_tru (s : State) (a : Nat) (v : Word) : (s.plainWrite a v).tru = s.tru := by
  unfold State.plainWrite; split <;> rfl
@[simp] theorem State.plainWrite_meas (s : State) (a : Nat) (v : Word) : (s.plainWrite a v).meas = s.meas := by
  unfold State.plainWrite; split <;> rfl
@[simp] theorem State.plainWrite_trv (s : State) (a : Nat) (v : Word) : (s.plainWrite a v).trv = s.trv := by
  unfold State.plainWrite; split <;> rfl
@[simp] theorem State.plainWrite_ow (s : State) (a : Nat) (v : Word) : (s.plainWrite a v).ow = s.ow := by
  unfold State.plainWrite; split <;> rfl
@[simp] theorem State.plainWrite_sdp (s : State) (a : Nat) (v : Word) : (s.plainWrite a v).sdp = s.sdp := by
  unfold State.plainWrite; split <;> rfl
@[simp] theorem State.plainWrite_imp (s : State) (a : Nat) (v : Word) : (s.plainWrite a v).imp = s.imp := by
  unfold State.plainWrite; split <;> rfl
@[simp] theorem State.plainWrite_phc (s : State) (a : Nat) (v : Word) : (s.plainWrite a v).phc = s.phc := by
  unfold State.plainWrite; split <;> rfl
@[simp] theorem State.plainWrite_bal (s : State) (a : Nat) (v : Word) : (s.plainWrite a v).bal = s.bal := by
  unfold State.plainWrite; split <;> rfl
@[simp] theorem State.plainWrite_thm (s : State) (a : Nat) (v : Word) : (s.plainWrite a v).thm = s.thm := by
  unfold State.plainWrite; split <;> rfl
@[simp] theorem State.plainWrite_sat (s : State) (a : Nat) (v : Word) : (s.plainWrite a v).sat = s.sat := by
  unfold State.plainWrite; split <;> rfl
@[simp] theorem State.plainWrite_free (s : State) (a : Nat) (v : Word) : (s.plainWrite a v).free = s.free := by
  unfold State.plainWrite; split <;> rfl
@[simp] theorem State.plainWrite_pending (s : State) (a : Nat) (v : Word) : (s.plainWrite a v).pending = s.pending := by
  unfold State.plainWrite; split <;> rfl

/-! ### Changes of one part leave every other part and the endpoint file -/

@[simp] theorem State.onPtr_regs (s : State) (f : PtrSt → PtrSt) : (s.onPtr f).regs = s.regs := rfl
@[simp] theorem State.onPtr_ptr (s : State) (f : PtrSt → PtrSt) : (s.onPtr f).ptr = f s.ptr := rfl
@[simp] theorem State.onPtr_led (s : State) (f : PtrSt → PtrSt) : (s.onPtr f).led = s.led := rfl
@[simp] theorem State.onPtr_cel (s : State) (f : PtrSt → PtrSt) : (s.onPtr f).cel = s.cel := rfl
@[simp] theorem State.onPtr_north (s : State) (f : PtrSt → PtrSt) : (s.onPtr f).north = s.north := rfl
@[simp] theorem State.onPtr_south (s : State) (f : PtrSt → PtrSt) : (s.onPtr f).south = s.south := rfl
@[simp] theorem State.onPtr_net (s : State) (f : PtrSt → PtrSt) : (s.onPtr f).net = s.net := rfl
@[simp] theorem State.onPtr_host (s : State) (f : PtrSt → PtrSt) : (s.onPtr f).host = s.host := rfl
@[simp] theorem State.onPtr_grd (s : State) (f : PtrSt → PtrSt) : (s.onPtr f).grd = s.grd := rfl
@[simp] theorem State.onPtr_ink (s : State) (f : PtrSt → PtrSt) : (s.onPtr f).ink = s.ink := rfl
@[simp] theorem State.onPtr_boot (s : State) (f : PtrSt → PtrSt) : (s.onPtr f).boot = s.boot := rfl
@[simp] theorem State.onPtr_tru (s : State) (f : PtrSt → PtrSt) : (s.onPtr f).tru = s.tru := rfl
@[simp] theorem State.onPtr_meas (s : State) (f : PtrSt → PtrSt) : (s.onPtr f).meas = s.meas := rfl
@[simp] theorem State.onPtr_trv (s : State) (f : PtrSt → PtrSt) : (s.onPtr f).trv = s.trv := rfl
@[simp] theorem State.onPtr_ow (s : State) (f : PtrSt → PtrSt) : (s.onPtr f).ow = s.ow := rfl
@[simp] theorem State.onPtr_sdp (s : State) (f : PtrSt → PtrSt) : (s.onPtr f).sdp = s.sdp := rfl
@[simp] theorem State.onPtr_imp (s : State) (f : PtrSt → PtrSt) : (s.onPtr f).imp = s.imp := rfl
@[simp] theorem State.onPtr_phc (s : State) (f : PtrSt → PtrSt) : (s.onPtr f).phc = s.phc := rfl
@[simp] theorem State.onPtr_bal (s : State) (f : PtrSt → PtrSt) : (s.onPtr f).bal = s.bal := rfl
@[simp] theorem State.onPtr_thm (s : State) (f : PtrSt → PtrSt) : (s.onPtr f).thm = s.thm := rfl
@[simp] theorem State.onPtr_sat (s : State) (f : PtrSt → PtrSt) : (s.onPtr f).sat = s.sat := rfl
@[simp] theorem State.onPtr_free (s : State) (f : PtrSt → PtrSt) : (s.onPtr f).free = s.free := rfl
@[simp] theorem State.onPtr_pending (s : State) (f : PtrSt → PtrSt) : (s.onPtr f).pending = s.pending := rfl
@[simp] theorem State.onPtr_reg (s : State) (f : PtrSt → PtrSt) (a : Nat) : (s.onPtr f).reg a = s.reg a := rfl
@[simp] theorem State.onPtr_get (s : State) (f : PtrSt → PtrSt) (g : Fld) : (s.onPtr f).get g = s.get g := rfl
@[simp] theorem State.onPtr_bit (s : State) (f : PtrSt → PtrSt) (g : Fld) : (s.onPtr f).bit g = s.bit g := rfl

@[simp] theorem State.onGrd_regs (s : State) (f : GrdSt → GrdSt) : (s.onGrd f).regs = s.regs := rfl
@[simp] theorem State.onGrd_ptr (s : State) (f : GrdSt → GrdSt) : (s.onGrd f).ptr = s.ptr := rfl
@[simp] theorem State.onGrd_led (s : State) (f : GrdSt → GrdSt) : (s.onGrd f).led = s.led := rfl
@[simp] theorem State.onGrd_cel (s : State) (f : GrdSt → GrdSt) : (s.onGrd f).cel = s.cel := rfl
@[simp] theorem State.onGrd_north (s : State) (f : GrdSt → GrdSt) : (s.onGrd f).north = s.north := rfl
@[simp] theorem State.onGrd_south (s : State) (f : GrdSt → GrdSt) : (s.onGrd f).south = s.south := rfl
@[simp] theorem State.onGrd_net (s : State) (f : GrdSt → GrdSt) : (s.onGrd f).net = s.net := rfl
@[simp] theorem State.onGrd_host (s : State) (f : GrdSt → GrdSt) : (s.onGrd f).host = s.host := rfl
@[simp] theorem State.onGrd_grd (s : State) (f : GrdSt → GrdSt) : (s.onGrd f).grd = f s.grd := rfl
@[simp] theorem State.onGrd_ink (s : State) (f : GrdSt → GrdSt) : (s.onGrd f).ink = s.ink := rfl
@[simp] theorem State.onGrd_boot (s : State) (f : GrdSt → GrdSt) : (s.onGrd f).boot = s.boot := rfl
@[simp] theorem State.onGrd_tru (s : State) (f : GrdSt → GrdSt) : (s.onGrd f).tru = s.tru := rfl
@[simp] theorem State.onGrd_meas (s : State) (f : GrdSt → GrdSt) : (s.onGrd f).meas = s.meas := rfl
@[simp] theorem State.onGrd_trv (s : State) (f : GrdSt → GrdSt) : (s.onGrd f).trv = s.trv := rfl
@[simp] theorem State.onGrd_ow (s : State) (f : GrdSt → GrdSt) : (s.onGrd f).ow = s.ow := rfl
@[simp] theorem State.onGrd_sdp (s : State) (f : GrdSt → GrdSt) : (s.onGrd f).sdp = s.sdp := rfl
@[simp] theorem State.onGrd_imp (s : State) (f : GrdSt → GrdSt) : (s.onGrd f).imp = s.imp := rfl
@[simp] theorem State.onGrd_phc (s : State) (f : GrdSt → GrdSt) : (s.onGrd f).phc = s.phc := rfl
@[simp] theorem State.onGrd_bal (s : State) (f : GrdSt → GrdSt) : (s.onGrd f).bal = s.bal := rfl
@[simp] theorem State.onGrd_thm (s : State) (f : GrdSt → GrdSt) : (s.onGrd f).thm = s.thm := rfl
@[simp] theorem State.onGrd_sat (s : State) (f : GrdSt → GrdSt) : (s.onGrd f).sat = s.sat := rfl
@[simp] theorem State.onGrd_free (s : State) (f : GrdSt → GrdSt) : (s.onGrd f).free = s.free := rfl
@[simp] theorem State.onGrd_pending (s : State) (f : GrdSt → GrdSt) : (s.onGrd f).pending = s.pending := rfl
@[simp] theorem State.onGrd_reg (s : State) (f : GrdSt → GrdSt) (a : Nat) : (s.onGrd f).reg a = s.reg a := rfl
@[simp] theorem State.onGrd_get (s : State) (f : GrdSt → GrdSt) (g : Fld) : (s.onGrd f).get g = s.get g := rfl
@[simp] theorem State.onGrd_bit (s : State) (f : GrdSt → GrdSt) (g : Fld) : (s.onGrd f).bit g = s.bit g := rfl

@[simp] theorem State.onInk_regs (s : State) (f : InkSt → InkSt) : (s.onInk f).regs = s.regs := rfl
@[simp] theorem State.onInk_ptr (s : State) (f : InkSt → InkSt) : (s.onInk f).ptr = s.ptr := rfl
@[simp] theorem State.onInk_led (s : State) (f : InkSt → InkSt) : (s.onInk f).led = s.led := rfl
@[simp] theorem State.onInk_cel (s : State) (f : InkSt → InkSt) : (s.onInk f).cel = s.cel := rfl
@[simp] theorem State.onInk_north (s : State) (f : InkSt → InkSt) : (s.onInk f).north = s.north := rfl
@[simp] theorem State.onInk_south (s : State) (f : InkSt → InkSt) : (s.onInk f).south = s.south := rfl
@[simp] theorem State.onInk_net (s : State) (f : InkSt → InkSt) : (s.onInk f).net = s.net := rfl
@[simp] theorem State.onInk_host (s : State) (f : InkSt → InkSt) : (s.onInk f).host = s.host := rfl
@[simp] theorem State.onInk_grd (s : State) (f : InkSt → InkSt) : (s.onInk f).grd = s.grd := rfl
@[simp] theorem State.onInk_ink (s : State) (f : InkSt → InkSt) : (s.onInk f).ink = f s.ink := rfl
@[simp] theorem State.onInk_boot (s : State) (f : InkSt → InkSt) : (s.onInk f).boot = s.boot := rfl
@[simp] theorem State.onInk_tru (s : State) (f : InkSt → InkSt) : (s.onInk f).tru = s.tru := rfl
@[simp] theorem State.onInk_meas (s : State) (f : InkSt → InkSt) : (s.onInk f).meas = s.meas := rfl
@[simp] theorem State.onInk_trv (s : State) (f : InkSt → InkSt) : (s.onInk f).trv = s.trv := rfl
@[simp] theorem State.onInk_ow (s : State) (f : InkSt → InkSt) : (s.onInk f).ow = s.ow := rfl
@[simp] theorem State.onInk_sdp (s : State) (f : InkSt → InkSt) : (s.onInk f).sdp = s.sdp := rfl
@[simp] theorem State.onInk_imp (s : State) (f : InkSt → InkSt) : (s.onInk f).imp = s.imp := rfl
@[simp] theorem State.onInk_phc (s : State) (f : InkSt → InkSt) : (s.onInk f).phc = s.phc := rfl
@[simp] theorem State.onInk_bal (s : State) (f : InkSt → InkSt) : (s.onInk f).bal = s.bal := rfl
@[simp] theorem State.onInk_thm (s : State) (f : InkSt → InkSt) : (s.onInk f).thm = s.thm := rfl
@[simp] theorem State.onInk_sat (s : State) (f : InkSt → InkSt) : (s.onInk f).sat = s.sat := rfl
@[simp] theorem State.onInk_free (s : State) (f : InkSt → InkSt) : (s.onInk f).free = s.free := rfl
@[simp] theorem State.onInk_pending (s : State) (f : InkSt → InkSt) : (s.onInk f).pending = s.pending := rfl
@[simp] theorem State.onInk_reg (s : State) (f : InkSt → InkSt) (a : Nat) : (s.onInk f).reg a = s.reg a := rfl
@[simp] theorem State.onInk_get (s : State) (f : InkSt → InkSt) (g : Fld) : (s.onInk f).get g = s.get g := rfl
@[simp] theorem State.onInk_bit (s : State) (f : InkSt → InkSt) (g : Fld) : (s.onInk f).bit g = s.bit g := rfl

@[simp] theorem State.onBoot_regs (s : State) (f : BootSt → BootSt) : (s.onBoot f).regs = s.regs := rfl
@[simp] theorem State.onBoot_ptr (s : State) (f : BootSt → BootSt) : (s.onBoot f).ptr = s.ptr := rfl
@[simp] theorem State.onBoot_led (s : State) (f : BootSt → BootSt) : (s.onBoot f).led = s.led := rfl
@[simp] theorem State.onBoot_cel (s : State) (f : BootSt → BootSt) : (s.onBoot f).cel = s.cel := rfl
@[simp] theorem State.onBoot_north (s : State) (f : BootSt → BootSt) : (s.onBoot f).north = s.north := rfl
@[simp] theorem State.onBoot_south (s : State) (f : BootSt → BootSt) : (s.onBoot f).south = s.south := rfl
@[simp] theorem State.onBoot_net (s : State) (f : BootSt → BootSt) : (s.onBoot f).net = s.net := rfl
@[simp] theorem State.onBoot_host (s : State) (f : BootSt → BootSt) : (s.onBoot f).host = s.host := rfl
@[simp] theorem State.onBoot_grd (s : State) (f : BootSt → BootSt) : (s.onBoot f).grd = s.grd := rfl
@[simp] theorem State.onBoot_ink (s : State) (f : BootSt → BootSt) : (s.onBoot f).ink = s.ink := rfl
@[simp] theorem State.onBoot_boot (s : State) (f : BootSt → BootSt) : (s.onBoot f).boot = f s.boot := rfl
@[simp] theorem State.onBoot_tru (s : State) (f : BootSt → BootSt) : (s.onBoot f).tru = s.tru := rfl
@[simp] theorem State.onBoot_meas (s : State) (f : BootSt → BootSt) : (s.onBoot f).meas = s.meas := rfl
@[simp] theorem State.onBoot_trv (s : State) (f : BootSt → BootSt) : (s.onBoot f).trv = s.trv := rfl
@[simp] theorem State.onBoot_ow (s : State) (f : BootSt → BootSt) : (s.onBoot f).ow = s.ow := rfl
@[simp] theorem State.onBoot_sdp (s : State) (f : BootSt → BootSt) : (s.onBoot f).sdp = s.sdp := rfl
@[simp] theorem State.onBoot_imp (s : State) (f : BootSt → BootSt) : (s.onBoot f).imp = s.imp := rfl
@[simp] theorem State.onBoot_phc (s : State) (f : BootSt → BootSt) : (s.onBoot f).phc = s.phc := rfl
@[simp] theorem State.onBoot_bal (s : State) (f : BootSt → BootSt) : (s.onBoot f).bal = s.bal := rfl
@[simp] theorem State.onBoot_thm (s : State) (f : BootSt → BootSt) : (s.onBoot f).thm = s.thm := rfl
@[simp] theorem State.onBoot_sat (s : State) (f : BootSt → BootSt) : (s.onBoot f).sat = s.sat := rfl
@[simp] theorem State.onBoot_free (s : State) (f : BootSt → BootSt) : (s.onBoot f).free = s.free := rfl
@[simp] theorem State.onBoot_pending (s : State) (f : BootSt → BootSt) : (s.onBoot f).pending = s.pending := rfl
@[simp] theorem State.onBoot_reg (s : State) (f : BootSt → BootSt) (a : Nat) : (s.onBoot f).reg a = s.reg a := rfl
@[simp] theorem State.onBoot_get (s : State) (f : BootSt → BootSt) (g : Fld) : (s.onBoot f).get g = s.get g := rfl
@[simp] theorem State.onBoot_bit (s : State) (f : BootSt → BootSt) (g : Fld) : (s.onBoot f).bit g = s.bit g := rfl

@[simp] theorem State.onTru_regs (s : State) (f : TruSt → TruSt) : (s.onTru f).regs = s.regs := rfl
@[simp] theorem State.onTru_ptr (s : State) (f : TruSt → TruSt) : (s.onTru f).ptr = s.ptr := rfl
@[simp] theorem State.onTru_led (s : State) (f : TruSt → TruSt) : (s.onTru f).led = s.led := rfl
@[simp] theorem State.onTru_cel (s : State) (f : TruSt → TruSt) : (s.onTru f).cel = s.cel := rfl
@[simp] theorem State.onTru_north (s : State) (f : TruSt → TruSt) : (s.onTru f).north = s.north := rfl
@[simp] theorem State.onTru_south (s : State) (f : TruSt → TruSt) : (s.onTru f).south = s.south := rfl
@[simp] theorem State.onTru_net (s : State) (f : TruSt → TruSt) : (s.onTru f).net = s.net := rfl
@[simp] theorem State.onTru_host (s : State) (f : TruSt → TruSt) : (s.onTru f).host = s.host := rfl
@[simp] theorem State.onTru_grd (s : State) (f : TruSt → TruSt) : (s.onTru f).grd = s.grd := rfl
@[simp] theorem State.onTru_ink (s : State) (f : TruSt → TruSt) : (s.onTru f).ink = s.ink := rfl
@[simp] theorem State.onTru_boot (s : State) (f : TruSt → TruSt) : (s.onTru f).boot = s.boot := rfl
@[simp] theorem State.onTru_tru (s : State) (f : TruSt → TruSt) : (s.onTru f).tru = f s.tru := rfl
@[simp] theorem State.onTru_meas (s : State) (f : TruSt → TruSt) : (s.onTru f).meas = s.meas := rfl
@[simp] theorem State.onTru_trv (s : State) (f : TruSt → TruSt) : (s.onTru f).trv = s.trv := rfl
@[simp] theorem State.onTru_ow (s : State) (f : TruSt → TruSt) : (s.onTru f).ow = s.ow := rfl
@[simp] theorem State.onTru_sdp (s : State) (f : TruSt → TruSt) : (s.onTru f).sdp = s.sdp := rfl
@[simp] theorem State.onTru_imp (s : State) (f : TruSt → TruSt) : (s.onTru f).imp = s.imp := rfl
@[simp] theorem State.onTru_phc (s : State) (f : TruSt → TruSt) : (s.onTru f).phc = s.phc := rfl
@[simp] theorem State.onTru_bal (s : State) (f : TruSt → TruSt) : (s.onTru f).bal = s.bal := rfl
@[simp] theorem State.onTru_thm (s : State) (f : TruSt → TruSt) : (s.onTru f).thm = s.thm := rfl
@[simp] theorem State.onTru_sat (s : State) (f : TruSt → TruSt) : (s.onTru f).sat = s.sat := rfl
@[simp] theorem State.onTru_free (s : State) (f : TruSt → TruSt) : (s.onTru f).free = s.free := rfl
@[simp] theorem State.onTru_pending (s : State) (f : TruSt → TruSt) : (s.onTru f).pending = s.pending := rfl
@[simp] theorem State.onTru_reg (s : State) (f : TruSt → TruSt) (a : Nat) : (s.onTru f).reg a = s.reg a := rfl
@[simp] theorem State.onTru_get (s : State) (f : TruSt → TruSt) (g : Fld) : (s.onTru f).get g = s.get g := rfl
@[simp] theorem State.onTru_bit (s : State) (f : TruSt → TruSt) (g : Fld) : (s.onTru f).bit g = s.bit g := rfl

@[simp] theorem State.onMeas_regs (s : State) (f : MeasSt → MeasSt) : (s.onMeas f).regs = s.regs := rfl
@[simp] theorem State.onMeas_ptr (s : State) (f : MeasSt → MeasSt) : (s.onMeas f).ptr = s.ptr := rfl
@[simp] theorem State.onMeas_led (s : State) (f : MeasSt → MeasSt) : (s.onMeas f).led = s.led := rfl
@[simp] theorem State.onMeas_cel (s : State) (f : MeasSt → MeasSt) : (s.onMeas f).cel = s.cel := rfl
@[simp] theorem State.onMeas_north (s : State) (f : MeasSt → MeasSt) : (s.onMeas f).north = s.north := rfl
@[simp] theorem State.onMeas_south (s : State) (f : MeasSt → MeasSt) : (s.onMeas f).south = s.south := rfl
@[simp] theorem State.onMeas_net (s : State) (f : MeasSt → MeasSt) : (s.onMeas f).net = s.net := rfl
@[simp] theorem State.onMeas_host (s : State) (f : MeasSt → MeasSt) : (s.onMeas f).host = s.host := rfl
@[simp] theorem State.onMeas_grd (s : State) (f : MeasSt → MeasSt) : (s.onMeas f).grd = s.grd := rfl
@[simp] theorem State.onMeas_ink (s : State) (f : MeasSt → MeasSt) : (s.onMeas f).ink = s.ink := rfl
@[simp] theorem State.onMeas_boot (s : State) (f : MeasSt → MeasSt) : (s.onMeas f).boot = s.boot := rfl
@[simp] theorem State.onMeas_tru (s : State) (f : MeasSt → MeasSt) : (s.onMeas f).tru = s.tru := rfl
@[simp] theorem State.onMeas_meas (s : State) (f : MeasSt → MeasSt) : (s.onMeas f).meas = f s.meas := rfl
@[simp] theorem State.onMeas_trv (s : State) (f : MeasSt → MeasSt) : (s.onMeas f).trv = s.trv := rfl
@[simp] theorem State.onMeas_ow (s : State) (f : MeasSt → MeasSt) : (s.onMeas f).ow = s.ow := rfl
@[simp] theorem State.onMeas_sdp (s : State) (f : MeasSt → MeasSt) : (s.onMeas f).sdp = s.sdp := rfl
@[simp] theorem State.onMeas_imp (s : State) (f : MeasSt → MeasSt) : (s.onMeas f).imp = s.imp := rfl
@[simp] theorem State.onMeas_phc (s : State) (f : MeasSt → MeasSt) : (s.onMeas f).phc = s.phc := rfl
@[simp] theorem State.onMeas_bal (s : State) (f : MeasSt → MeasSt) : (s.onMeas f).bal = s.bal := rfl
@[simp] theorem State.onMeas_thm (s : State) (f : MeasSt → MeasSt) : (s.onMeas f).thm = s.thm := rfl
@[simp] theorem State.onMeas_sat (s : State) (f : MeasSt → MeasSt) : (s.onMeas f).sat = s.sat := rfl
@[simp] theorem State.onMeas_free (s : State) (f : MeasSt → MeasSt) : (s.onMeas f).free = s.free := rfl
@[simp] theorem State.onMeas_pending (s : State) (f : MeasSt → MeasSt) : (s.onMeas f).pending = s.pending := rfl
@[simp] theorem State.onMeas_reg (s : State) (f : MeasSt → MeasSt) (a : Nat) : (s.onMeas f).reg a = s.reg a := rfl
@[simp] theorem State.onMeas_get (s : State) (f : MeasSt → MeasSt) (g : Fld) : (s.onMeas f).get g = s.get g := rfl
@[simp] theorem State.onMeas_bit (s : State) (f : MeasSt → MeasSt) (g : Fld) : (s.onMeas f).bit g = s.bit g := rfl

@[simp] theorem State.onTrv_regs (s : State) (f : TrvSt → TrvSt) : (s.onTrv f).regs = s.regs := rfl
@[simp] theorem State.onTrv_ptr (s : State) (f : TrvSt → TrvSt) : (s.onTrv f).ptr = s.ptr := rfl
@[simp] theorem State.onTrv_led (s : State) (f : TrvSt → TrvSt) : (s.onTrv f).led = s.led := rfl
@[simp] theorem State.onTrv_cel (s : State) (f : TrvSt → TrvSt) : (s.onTrv f).cel = s.cel := rfl
@[simp] theorem State.onTrv_north (s : State) (f : TrvSt → TrvSt) : (s.onTrv f).north = s.north := rfl
@[simp] theorem State.onTrv_south (s : State) (f : TrvSt → TrvSt) : (s.onTrv f).south = s.south := rfl
@[simp] theorem State.onTrv_net (s : State) (f : TrvSt → TrvSt) : (s.onTrv f).net = s.net := rfl
@[simp] theorem State.onTrv_host (s : State) (f : TrvSt → TrvSt) : (s.onTrv f).host = s.host := rfl
@[simp] theorem State.onTrv_grd (s : State) (f : TrvSt → TrvSt) : (s.onTrv f).grd = s.grd := rfl
@[simp] theorem State.onTrv_ink (s : State) (f : TrvSt → TrvSt) : (s.onTrv f).ink = s.ink := rfl
@[simp] theorem State.onTrv_boot (s : State) (f : TrvSt → TrvSt) : (s.onTrv f).boot = s.boot := rfl
@[simp] theorem State.onTrv_tru (s : State) (f : TrvSt → TrvSt) : (s.onTrv f).tru = s.tru := rfl
@[simp] theorem State.onTrv_meas (s : State) (f : TrvSt → TrvSt) : (s.onTrv f).meas = s.meas := rfl
@[simp] theorem State.onTrv_trv (s : State) (f : TrvSt → TrvSt) : (s.onTrv f).trv = f s.trv := rfl
@[simp] theorem State.onTrv_ow (s : State) (f : TrvSt → TrvSt) : (s.onTrv f).ow = s.ow := rfl
@[simp] theorem State.onTrv_sdp (s : State) (f : TrvSt → TrvSt) : (s.onTrv f).sdp = s.sdp := rfl
@[simp] theorem State.onTrv_imp (s : State) (f : TrvSt → TrvSt) : (s.onTrv f).imp = s.imp := rfl
@[simp] theorem State.onTrv_phc (s : State) (f : TrvSt → TrvSt) : (s.onTrv f).phc = s.phc := rfl
@[simp] theorem State.onTrv_bal (s : State) (f : TrvSt → TrvSt) : (s.onTrv f).bal = s.bal := rfl
@[simp] theorem State.onTrv_thm (s : State) (f : TrvSt → TrvSt) : (s.onTrv f).thm = s.thm := rfl
@[simp] theorem State.onTrv_sat (s : State) (f : TrvSt → TrvSt) : (s.onTrv f).sat = s.sat := rfl
@[simp] theorem State.onTrv_free (s : State) (f : TrvSt → TrvSt) : (s.onTrv f).free = s.free := rfl
@[simp] theorem State.onTrv_pending (s : State) (f : TrvSt → TrvSt) : (s.onTrv f).pending = s.pending := rfl
@[simp] theorem State.onTrv_reg (s : State) (f : TrvSt → TrvSt) (a : Nat) : (s.onTrv f).reg a = s.reg a := rfl
@[simp] theorem State.onTrv_get (s : State) (f : TrvSt → TrvSt) (g : Fld) : (s.onTrv f).get g = s.get g := rfl
@[simp] theorem State.onTrv_bit (s : State) (f : TrvSt → TrvSt) (g : Fld) : (s.onTrv f).bit g = s.bit g := rfl

@[simp] theorem State.onOw_regs (s : State) (f : OwSt → OwSt) : (s.onOw f).regs = s.regs := rfl
@[simp] theorem State.onOw_ptr (s : State) (f : OwSt → OwSt) : (s.onOw f).ptr = s.ptr := rfl
@[simp] theorem State.onOw_led (s : State) (f : OwSt → OwSt) : (s.onOw f).led = s.led := rfl
@[simp] theorem State.onOw_cel (s : State) (f : OwSt → OwSt) : (s.onOw f).cel = s.cel := rfl
@[simp] theorem State.onOw_north (s : State) (f : OwSt → OwSt) : (s.onOw f).north = s.north := rfl
@[simp] theorem State.onOw_south (s : State) (f : OwSt → OwSt) : (s.onOw f).south = s.south := rfl
@[simp] theorem State.onOw_net (s : State) (f : OwSt → OwSt) : (s.onOw f).net = s.net := rfl
@[simp] theorem State.onOw_host (s : State) (f : OwSt → OwSt) : (s.onOw f).host = s.host := rfl
@[simp] theorem State.onOw_grd (s : State) (f : OwSt → OwSt) : (s.onOw f).grd = s.grd := rfl
@[simp] theorem State.onOw_ink (s : State) (f : OwSt → OwSt) : (s.onOw f).ink = s.ink := rfl
@[simp] theorem State.onOw_boot (s : State) (f : OwSt → OwSt) : (s.onOw f).boot = s.boot := rfl
@[simp] theorem State.onOw_tru (s : State) (f : OwSt → OwSt) : (s.onOw f).tru = s.tru := rfl
@[simp] theorem State.onOw_meas (s : State) (f : OwSt → OwSt) : (s.onOw f).meas = s.meas := rfl
@[simp] theorem State.onOw_trv (s : State) (f : OwSt → OwSt) : (s.onOw f).trv = s.trv := rfl
@[simp] theorem State.onOw_ow (s : State) (f : OwSt → OwSt) : (s.onOw f).ow = f s.ow := rfl
@[simp] theorem State.onOw_sdp (s : State) (f : OwSt → OwSt) : (s.onOw f).sdp = s.sdp := rfl
@[simp] theorem State.onOw_imp (s : State) (f : OwSt → OwSt) : (s.onOw f).imp = s.imp := rfl
@[simp] theorem State.onOw_phc (s : State) (f : OwSt → OwSt) : (s.onOw f).phc = s.phc := rfl
@[simp] theorem State.onOw_bal (s : State) (f : OwSt → OwSt) : (s.onOw f).bal = s.bal := rfl
@[simp] theorem State.onOw_thm (s : State) (f : OwSt → OwSt) : (s.onOw f).thm = s.thm := rfl
@[simp] theorem State.onOw_sat (s : State) (f : OwSt → OwSt) : (s.onOw f).sat = s.sat := rfl
@[simp] theorem State.onOw_free (s : State) (f : OwSt → OwSt) : (s.onOw f).free = s.free := rfl
@[simp] theorem State.onOw_pending (s : State) (f : OwSt → OwSt) : (s.onOw f).pending = s.pending := rfl
@[simp] theorem State.onOw_reg (s : State) (f : OwSt → OwSt) (a : Nat) : (s.onOw f).reg a = s.reg a := rfl
@[simp] theorem State.onOw_get (s : State) (f : OwSt → OwSt) (g : Fld) : (s.onOw f).get g = s.get g := rfl
@[simp] theorem State.onOw_bit (s : State) (f : OwSt → OwSt) (g : Fld) : (s.onOw f).bit g = s.bit g := rfl

@[simp] theorem State.onNet_regs (s : State) (f : NetSt → NetSt) : (s.onNet f).regs = s.regs := rfl
@[simp] theorem State.onNet_ptr (s : State) (f : NetSt → NetSt) : (s.onNet f).ptr = s.ptr := rfl
@[simp] theorem State.onNet_led (s : State) (f : NetSt → NetSt) : (s.onNet f).led = s.led := rfl
@[simp] theorem State.onNet_cel (s : State) (f : NetSt → NetSt) : (s.onNet f).cel = s.cel := rfl
@[simp] theorem State.onNet_north (s : State) (f : NetSt → NetSt) : (s.onNet f).north = s.north := rfl
@[simp] theorem State.onNet_south (s : State) (f : NetSt → NetSt) : (s.onNet f).south = s.south := rfl
@[simp] theorem State.onNet_net (s : State) (f : NetSt → NetSt) : (s.onNet f).net = f s.net := rfl
@[simp] theorem State.onNet_host (s : State) (f : NetSt → NetSt) : (s.onNet f).host = s.host := rfl
@[simp] theorem State.onNet_grd (s : State) (f : NetSt → NetSt) : (s.onNet f).grd = s.grd := rfl
@[simp] theorem State.onNet_ink (s : State) (f : NetSt → NetSt) : (s.onNet f).ink = s.ink := rfl
@[simp] theorem State.onNet_boot (s : State) (f : NetSt → NetSt) : (s.onNet f).boot = s.boot := rfl
@[simp] theorem State.onNet_tru (s : State) (f : NetSt → NetSt) : (s.onNet f).tru = s.tru := rfl
@[simp] theorem State.onNet_meas (s : State) (f : NetSt → NetSt) : (s.onNet f).meas = s.meas := rfl
@[simp] theorem State.onNet_trv (s : State) (f : NetSt → NetSt) : (s.onNet f).trv = s.trv := rfl
@[simp] theorem State.onNet_ow (s : State) (f : NetSt → NetSt) : (s.onNet f).ow = s.ow := rfl
@[simp] theorem State.onNet_sdp (s : State) (f : NetSt → NetSt) : (s.onNet f).sdp = s.sdp := rfl
@[simp] theorem State.onNet_imp (s : State) (f : NetSt → NetSt) : (s.onNet f).imp = s.imp := rfl
@[simp] theorem State.onNet_phc (s : State) (f : NetSt → NetSt) : (s.onNet f).phc = s.phc := rfl
@[simp] theorem State.onNet_bal (s : State) (f : NetSt → NetSt) : (s.onNet f).bal = s.bal := rfl
@[simp] theorem State.onNet_thm (s : State) (f : NetSt → NetSt) : (s.onNet f).thm = s.thm := rfl
@[simp] theorem State.onNet_sat (s : State) (f : NetSt → NetSt) : (s.onNet f).sat = s.sat := rfl
@[simp] theorem State.onNet_free (s : State) (f : NetSt → NetSt) : (s.onNet f).free = s.free := rfl
@[simp] theorem State.onNet_pending (s : State) (f : NetSt → NetSt) : (s.onNet f).pending = s.pending := rfl
@[simp] theorem State.onNet_reg (s : State) (f : NetSt → NetSt) (a : Nat) : (s.onNet f).reg a = s.reg a := rfl
@[simp] theorem State.onNet_get (s : State) (f : NetSt → NetSt) (g : Fld) : (s.onNet f).get g = s.get g := rfl
@[simp] theorem State.onNet_bit (s : State) (f : NetSt → NetSt) (g : Fld) : (s.onNet f).bit g = s.bit g := rfl

@[simp] theorem State.onHost_regs (s : State) (f : HostSt → HostSt) : (s.onHost f).regs = s.regs := rfl
@[simp] theorem State.onHost_ptr (s : State) (f : HostSt → HostSt) : (s.onHost f).ptr = s.ptr := rfl
@[simp] theorem State.onHost_led (s : State) (f : HostSt → HostSt) : (s.onHost f).led = s.led := rfl
@[simp] theorem State.onHost_cel (s : State) (f : HostSt → HostSt) : (s.onHost f).cel = s.cel := rfl
@[simp] theorem State.onHost_north (s : State) (f : HostSt → HostSt) : (s.onHost f).north = s.north := rfl
@[simp] theorem State.onHost_south (s : State) (f : HostSt → HostSt) : (s.onHost f).south = s.south := rfl
@[simp] theorem State.onHost_net (s : State) (f : HostSt → HostSt) : (s.onHost f).net = s.net := rfl
@[simp] theorem State.onHost_host (s : State) (f : HostSt → HostSt) : (s.onHost f).host = f s.host := rfl
@[simp] theorem State.onHost_grd (s : State) (f : HostSt → HostSt) : (s.onHost f).grd = s.grd := rfl
@[simp] theorem State.onHost_ink (s : State) (f : HostSt → HostSt) : (s.onHost f).ink = s.ink := rfl
@[simp] theorem State.onHost_boot (s : State) (f : HostSt → HostSt) : (s.onHost f).boot = s.boot := rfl
@[simp] theorem State.onHost_tru (s : State) (f : HostSt → HostSt) : (s.onHost f).tru = s.tru := rfl
@[simp] theorem State.onHost_meas (s : State) (f : HostSt → HostSt) : (s.onHost f).meas = s.meas := rfl
@[simp] theorem State.onHost_trv (s : State) (f : HostSt → HostSt) : (s.onHost f).trv = s.trv := rfl
@[simp] theorem State.onHost_ow (s : State) (f : HostSt → HostSt) : (s.onHost f).ow = s.ow := rfl
@[simp] theorem State.onHost_sdp (s : State) (f : HostSt → HostSt) : (s.onHost f).sdp = s.sdp := rfl
@[simp] theorem State.onHost_imp (s : State) (f : HostSt → HostSt) : (s.onHost f).imp = s.imp := rfl
@[simp] theorem State.onHost_phc (s : State) (f : HostSt → HostSt) : (s.onHost f).phc = s.phc := rfl
@[simp] theorem State.onHost_bal (s : State) (f : HostSt → HostSt) : (s.onHost f).bal = s.bal := rfl
@[simp] theorem State.onHost_thm (s : State) (f : HostSt → HostSt) : (s.onHost f).thm = s.thm := rfl
@[simp] theorem State.onHost_sat (s : State) (f : HostSt → HostSt) : (s.onHost f).sat = s.sat := rfl
@[simp] theorem State.onHost_free (s : State) (f : HostSt → HostSt) : (s.onHost f).free = s.free := rfl
@[simp] theorem State.onHost_pending (s : State) (f : HostSt → HostSt) : (s.onHost f).pending = s.pending := rfl
@[simp] theorem State.onHost_reg (s : State) (f : HostSt → HostSt) (a : Nat) : (s.onHost f).reg a = s.reg a := rfl
@[simp] theorem State.onHost_get (s : State) (f : HostSt → HostSt) (g : Fld) : (s.onHost f).get g = s.get g := rfl
@[simp] theorem State.onHost_bit (s : State) (f : HostSt → HostSt) (g : Fld) : (s.onHost f).bit g = s.bit g := rfl

@[simp] theorem State.onSat_regs (s : State) (f : SatSt → SatSt) : (s.onSat f).regs = s.regs := rfl
@[simp] theorem State.onSat_ptr (s : State) (f : SatSt → SatSt) : (s.onSat f).ptr = s.ptr := rfl
@[simp] theorem State.onSat_led (s : State) (f : SatSt → SatSt) : (s.onSat f).led = s.led := rfl
@[simp] theorem State.onSat_cel (s : State) (f : SatSt → SatSt) : (s.onSat f).cel = s.cel := rfl
@[simp] theorem State.onSat_north (s : State) (f : SatSt → SatSt) : (s.onSat f).north = s.north := rfl
@[simp] theorem State.onSat_south (s : State) (f : SatSt → SatSt) : (s.onSat f).south = s.south := rfl
@[simp] theorem State.onSat_net (s : State) (f : SatSt → SatSt) : (s.onSat f).net = s.net := rfl
@[simp] theorem State.onSat_host (s : State) (f : SatSt → SatSt) : (s.onSat f).host = s.host := rfl
@[simp] theorem State.onSat_grd (s : State) (f : SatSt → SatSt) : (s.onSat f).grd = s.grd := rfl
@[simp] theorem State.onSat_ink (s : State) (f : SatSt → SatSt) : (s.onSat f).ink = s.ink := rfl
@[simp] theorem State.onSat_boot (s : State) (f : SatSt → SatSt) : (s.onSat f).boot = s.boot := rfl
@[simp] theorem State.onSat_tru (s : State) (f : SatSt → SatSt) : (s.onSat f).tru = s.tru := rfl
@[simp] theorem State.onSat_meas (s : State) (f : SatSt → SatSt) : (s.onSat f).meas = s.meas := rfl
@[simp] theorem State.onSat_trv (s : State) (f : SatSt → SatSt) : (s.onSat f).trv = s.trv := rfl
@[simp] theorem State.onSat_ow (s : State) (f : SatSt → SatSt) : (s.onSat f).ow = s.ow := rfl
@[simp] theorem State.onSat_sdp (s : State) (f : SatSt → SatSt) : (s.onSat f).sdp = s.sdp := rfl
@[simp] theorem State.onSat_imp (s : State) (f : SatSt → SatSt) : (s.onSat f).imp = s.imp := rfl
@[simp] theorem State.onSat_phc (s : State) (f : SatSt → SatSt) : (s.onSat f).phc = s.phc := rfl
@[simp] theorem State.onSat_bal (s : State) (f : SatSt → SatSt) : (s.onSat f).bal = s.bal := rfl
@[simp] theorem State.onSat_thm (s : State) (f : SatSt → SatSt) : (s.onSat f).thm = s.thm := rfl
@[simp] theorem State.onSat_sat (s : State) (f : SatSt → SatSt) : (s.onSat f).sat = f s.sat := rfl
@[simp] theorem State.onSat_free (s : State) (f : SatSt → SatSt) : (s.onSat f).free = s.free := rfl
@[simp] theorem State.onSat_pending (s : State) (f : SatSt → SatSt) : (s.onSat f).pending = s.pending := rfl
@[simp] theorem State.onSat_reg (s : State) (f : SatSt → SatSt) (a : Nat) : (s.onSat f).reg a = s.reg a := rfl
@[simp] theorem State.onSat_get (s : State) (f : SatSt → SatSt) (g : Fld) : (s.onSat f).get g = s.get g := rfl
@[simp] theorem State.onSat_bit (s : State) (f : SatSt → SatSt) (g : Fld) : (s.onSat f).bit g = s.bit g := rfl

@[simp] theorem State.draw_regs (s : State) : s.draw.regs = s.regs := rfl
@[simp] theorem State.draw_ptr (s : State) : s.draw.ptr = s.ptr := rfl
@[simp] theorem State.draw_led (s : State) : s.draw.led = s.led := rfl
@[simp] theorem State.draw_cel (s : State) : s.draw.cel = s.cel := rfl
@[simp] theorem State.draw_north (s : State) : s.draw.north = s.north := rfl
@[simp] theorem State.draw_south (s : State) : s.draw.south = s.south := rfl
@[simp] theorem State.draw_net (s : State) : s.draw.net = s.net := rfl
@[simp] theorem State.draw_host (s : State) : s.draw.host = s.host := rfl
@[simp] theorem State.draw_grd (s : State) : s.draw.grd = s.grd := rfl
@[simp] theorem State.draw_ink (s : State) : s.draw.ink = s.ink := rfl
@[simp] theorem State.draw_boot (s : State) : s.draw.boot = s.boot := rfl
@[simp] theorem State.draw_tru (s : State) : s.draw.tru = s.tru := rfl
@[simp] theorem State.draw_meas (s : State) : s.draw.meas = s.meas := rfl
@[simp] theorem State.draw_trv (s : State) : s.draw.trv = s.trv := rfl
@[simp] theorem State.draw_ow (s : State) : s.draw.ow = s.ow := rfl
@[simp] theorem State.draw_sdp (s : State) : s.draw.sdp = s.sdp := rfl
@[simp] theorem State.draw_imp (s : State) : s.draw.imp = s.imp := rfl
@[simp] theorem State.draw_phc (s : State) : s.draw.phc = s.phc := rfl
@[simp] theorem State.draw_bal (s : State) : s.draw.bal = s.bal := rfl
@[simp] theorem State.draw_thm (s : State) : s.draw.thm = s.thm := rfl
@[simp] theorem State.draw_sat (s : State) : s.draw.sat = s.sat := rfl
@[simp] theorem State.draw_free (s : State) : s.draw.free = s.free + 1 := rfl
@[simp] theorem State.draw_pending (s : State) : s.draw.pending = s.pending := rfl

@[simp] theorem State.draw_reg (s : State) (a : Nat) : s.draw.reg a = s.reg a := rfl

/-! ### Registers and fields -/

/-- A register reads the word just stored. -/
@[simp] theorem State.reg_setReg_same (s : State) (a : Nat) (v : Word) : (s.setReg a v).reg a = v :=
  Sparse.get_set_same ..

/-- A store leaves every other register. -/
theorem State.reg_setReg_ne (s : State) {a b : Nat} (v : Word) (h : b ≠ a) : (s.setReg a v).reg b = s.reg b :=
  Sparse.get_set_ne _ _ _ h

/-- A register after a store, by its address. -/
theorem State.reg_setReg (s : State) (a b : Nat) (v : Word) :
    (s.setReg a v).reg b = if b = a then v else s.reg b := by
  split
  · next h => subst h; exact State.reg_setReg_same ..
  · next h => exact State.reg_setReg_ne s v h

/-- A register after a write to one field. -/
theorem State.reg_put (s : State) (f : Fld) (n : Nat) (a : Nat) :
    (s.put f n).reg a = if a = f.addr then f.write (s.reg f.addr) n else s.reg a := State.reg_setReg ..

theorem State.reg_put_ne (s : State) (f : Fld) (n : Nat) {a : Nat} (h : a ≠ f.addr) : (s.put f n).reg a = s.reg a :=
  State.reg_setReg_ne _ _ h

/-- A field reads the number just written to it, cut to its width. -/
theorem State.get_put_same (s : State) (f : Fld) (n : Nat) (h : f.ok = true) : (s.put f n).get f = n % 2 ^ f.w := by
  unfold State.get
  rw [State.reg_put, if_pos rfl]
  exact Fld.read_write f _ n h

/-- A write to a field leaves every field that shares no bit with it. -/
theorem State.get_put_apart (s : State) (f g : Fld) (n : Nat) (h : f.apart g = true) : (s.put f n).get g = s.get g := by
  unfold State.get
  rw [State.reg_put]
  split
  · next e =>
    rw [Fld.read_write_apart, ← e]
    simpa [Fld.apart, e] using h
  · rfl

/-- Registers after the single steps that are writes of a field. -/
theorem State.raise_eq (s : State) (f : Fld) : s.raise f = s.put f 1 := rfl
theorem State.putB_eq (s : State) (f : Fld) (b : Bool) : s.putB f b = s.put f b.toNat := rfl
theorem State.bump_eq (s : State) (f : Fld) (n : Nat) : s.bump f n = s.put f (s.get f + n) := rfl
theorem State.bit_eq (s : State) (f : Fld) : s.bit f = (s.get f != 0) := rfl

/-- A field's number lies below 2 to its width. -/
theorem State.get_lt (s : State) (f : Fld) : s.get f < 2 ^ f.w := Fld.read_lt f _

/-- Writing the number a field holds changes no register. -/
theorem State.reg_put_get (s : State) (f : Fld) (a : Nat) : (s.put f (s.get f)).reg a = s.reg a := by
  rw [State.reg_put]
  split
  · next h => rw [h]; exact Fld.write_read f _
  · rfl

/-- A change made for no member of a list is no change. -/
@[simp] theorem State.each_nil {α : Type} (s : State) (f : α → State → State) : s.each [] f = s := rfl
theorem State.each_cons {α : Type} (s : State) (x : α) (xs : List α) (f : α → State → State) :
    s.each (x :: xs) f = (f x s).each xs f := rfl

/-- What every single change keeps, all of them keep. -/
theorem State.each_induct {α : Type} (P : State → Prop) (f : α → State → State)
    (hf : ∀ x s, P s → P (f x s)) (xs : List α) : ∀ s, P s → P (s.each xs f) := by
  induction xs with
  | nil => intro s h; exact h
  | cons x xs ih => intro s h; exact ih _ (hf x s h)

/-! ### The endpoint file's canonical form -/

theorem State.wf_setReg (s : State) (a : Nat) (v : Word) (h : Sparse.wf Reg.reset s.regs = true) :
    Sparse.wf Reg.reset (s.setReg a v).regs = true := Sparse.wf_set _ _ _ _ h

theorem State.wf_put (s : State) (f : Fld) (n : Nat) (h : Sparse.wf Reg.reset s.regs = true) :
    Sparse.wf Reg.reset (s.put f n).regs = true := State.wf_setReg _ _ _ h

/-! ### Byte memories -/

/-- A byte reads as just stored. -/
@[simp] theorem Mem.byte_setByte_same (d : Byte) (m : List Host.Cell) (a : Nat) (b : Byte) :
    Mem.byte d (Mem.setByte d m a b) a = b := Sparse.get_set_same ..

/-- A store leaves every other byte. -/
theorem Mem.byte_setByte_ne (d : Byte) (m : List Host.Cell) {a c : Nat} (b : Byte) (h : c ≠ a) :
    Mem.byte d (Mem.setByte d m a b) c = Mem.byte d m c := Sparse.get_set_ne _ _ _ h

theorem Mem.wf_setByte (d : Byte) (m : List Host.Cell) (a : Nat) (b : Byte) (h : Mem.wf d m = true) :
    Mem.wf d (Mem.setByte d m a b) = true := Sparse.wf_set _ _ _ _ h

theorem Mem.wf_setBytes (d : Byte) (bs : List Byte) :
    ∀ (m : List Host.Cell) (a : Nat), Mem.wf d m = true → Mem.wf d (Mem.setBytes d m a bs) = true := by
  induction bs with
  | nil => intro m a h; exact h
  | cons b bs ih => intro m a h; exact ih _ _ (Mem.wf_setByte d m a b h)

theorem Mem.wf_setWord (d : Byte) (m : List Host.Cell) (a : Nat) (v : Word) (h : Mem.wf d m = true) :
    Mem.wf d (Mem.setWord d m a v) = true := Mem.wf_setBytes d _ _ _ h

theorem Mem.wf_setWords (d : Byte) (vs : List Word) :
    ∀ (m : List Host.Cell) (a : Nat), Mem.wf d m = true → Mem.wf d (Mem.setWords d m a vs) = true := by
  induction vs with
  | nil => intro m a h; exact h
  | cons v vs ih => intro m a h; exact ih _ _ (Mem.wf_setWord d m a v h)

/-- Bytes outside those stored read as before. -/
theorem Mem.byte_setBytes_out (d : Byte) (bs : List Byte) :
    ∀ (m : List Host.Cell) (a c : Nat), (c < a ∨ a + bs.length ≤ c) →
      Mem.byte d (Mem.setBytes d m a bs) c = Mem.byte d m c := by
  induction bs with
  | nil => intro m a c _; rfl
  | cons b bs ih =>
    intro m a c h
    simp only [List.length_cons] at h
    rw [Mem.setBytes, ih _ _ _ (by omega), Mem.byte_setByte_ne _ _ _ (by omega)]

/-- Bytes outside the word stored read as before. -/
theorem Mem.byte_setWord_out (d : Byte) (m : List Host.Cell) (a : Nat) (v : Word) (c : Nat) (h : c < a ∨ a + 4 ≤ c) :
    Mem.byte d (Mem.setWord d m a v) c = Mem.byte d m c := Mem.byte_setBytes_out d _ _ _ _ h

/-- A word reads as just stored. -/
theorem Mem.word_setWord_same (d : Byte) (m : List Host.Cell) (a : Nat) (v : Word) :
    Mem.word d (Mem.setWord d m a v) a = v := by
  have h : Mem.bytes d (Mem.setWord d m a v) a 4 = wordBytes v := by
    simp only [Mem.bytes, Mem.setWord, wordBytes, Mem.setBytes]
    rw [Mem.byte_setByte_ne (a := a + 1 + 1 + 1) (h := by omega), Mem.byte_setByte_ne (a := a + 1 + 1) (h := by omega),
      Mem.byte_setByte_ne (a := a + 1) (h := by omega), Mem.byte_setByte_same,
      Mem.byte_setByte_ne (a := a + 1 + 1 + 1) (h := by omega), Mem.byte_setByte_ne (a := a + 1 + 1) (h := by omega),
      Mem.byte_setByte_same, Mem.byte_setByte_ne (a := a + 1 + 1 + 1) (h := by omega), Mem.byte_setByte_same,
      Mem.byte_setByte_same]
  unfold Mem.word
  rw [h]
  apply BitVec.eq_of_getLsbD_eq
  intro i hi
  simp only [wordBytes, bytesWord, BitVec.getLsbD_or, BitVec.getLsbD_shiftLeft, BitVec.getLsbD_setWidth,
    BitVec.getLsbD_extractLsb']
  have b1 : i - 8 < 32 := by omega
  have b2 : i - 8 - 8 < 32 := by omega
  have b3 : i - 8 - 8 - 8 < 32 := by omega
  rcases Nat.lt_or_ge i 8 with h8 | h8
  · simp [h8, hi]
  · rcases Nat.lt_or_ge i 16 with h16 | h16
    · have e : 8 + (i - 8) = i := by omega
      have a1 : ¬ i < 8 := by omega
      have a2 : i - 8 < 8 := by omega
      simp [a1, a2, hi, e, b1]
    · rcases Nat.lt_or_ge i 24 with h24 | h24
      · have e : 16 + (i - 8 - 8) = i := by omega
        have a1 : ¬ i < 8 := by omega
        have a2 : ¬ i - 8 < 8 := by omega
        have a3 : i - 8 - 8 < 8 := by omega
        simp [a1, a2, a3, hi, e, b1, b2]
      · have e : 24 + (i - 8 - 8 - 8) = i := by omega
        have a1 : ¬ i < 8 := by omega
        have a2 : ¬ i - 8 < 8 := by omega
        have a3 : ¬ i - 8 - 8 < 8 := by omega
        have a4 : i - 8 - 8 - 8 < 8 := by omega
        simp [a1, a2, a3, a4, hi, e, b1, b2, b3]

end Sys2Proof.Machine
end

