-- ==== Sys2Proof/Laws/Settle.lean ====
section
/-! SUPPORT. Laws of what follows from a command (`settle`): what it leaves alone, when it does nothing, and that it
leaves nothing to follow. -/

namespace Sys2Proof.Machine

/-! ### What the Guard's permits depend on -/

/-- Two states agree on all that the Guard's permits depend on. -/
def agree (s t : State) : Prop :=
  (∀ a, isGrd a = true → a ≠ A.GRD_EVT → t.reg a = s.reg a) ∧ t.ptr.dev = s.ptr.dev ∧ t.ptr.dom = s.ptr.dom

theorem steady.agree {s t : State} (h : steady s t) : agree s t := ⟨fun a ha _ => h.1 a ha, h.2.1, h.2.2.1⟩

theorem agree.get {s t : State} (h : agree s t) (f : Fld) (hf : isGrd f.addr = true) (hn : f.addr ≠ A.GRD_EVT) :
    t.get f = s.get f := by
  unfold State.get; rw [h.1 _ hf hn]

theorem agree.bit {s t : State} (h : agree s t) (f : Fld) (hf : isGrd f.addr = true) (hn : f.addr ≠ A.GRD_EVT) :
    t.bit f = s.bit f := by
  unfold State.bit; rw [h.get f hf hn]

theorem agree.on {s t : State} (h : agree s t) (d : Nat) : t.on d = s.on d := by unfold State.on; rw [h.2.2]

theorem agree.inDev {s t : State} (h : agree s t) (ds : List DevState) : t.inDev ds = s.inDev ds := by
  unfold State.inDev; rw [h.2.1]

theorem isGrd_blk {k : Nat} (hk : k < 16) : isGrd (A.GRD_P k) = true := by
  have : A.GRD_P k = 0x0F40 + k := rfl
  rw [this]
  simp only [isGrd, Bool.and_eq_true, Nat.ble_eq, Nat.blt_eq]
  omega

theorem grd_blk_ne {k : Nat} : A.GRD_P k ≠ A.GRD_EVT := by
  have h1 : A.GRD_P k = 0x0F40 + k := rfl
  have h2 : A.GRD_EVT < 0x0F40 := by decide
  omega

theorem agree.grdWord {s t : State} (h : agree s t) {k : Nat} (hk : k < 16) : t.grdWord k = s.grdWord k := by
  unfold State.grdWord
  rw [h.get F.GRD_STAT.BLK (by decide) (by decide), h.1 _ (isGrd_blk hk) grd_blk_ne]

theorem agree.demanding {s t : State} (h : agree s t) {k : Nat} (hk : k < 4) : t.demanding k = s.demanding k := by
  unfold State.demanding State.grdJudging State.pairEn State.siOpen State.rbit
  rw [h.on, h.inDev, h.grdWord (by omega), h.1 A.GRD_SI (by decide) (by decide)]

theorem agree.lp {s t : State} (h : agree s t) : t.lp = s.lp := by
  unfold State.lp State.pairRole
  rw [h.on, h.inDev, h.get F.GRD_STAT.BLK (by decide) (by decide), h.get F.GRD_STAT.COMMIT (by decide) (by decide),
    h.bit F.GRD_STAT.SUT_DONE (by decide) (by decide), h.1 A.GRD_FLT (by decide) (by decide)]
  simp only [List.any_cons, List.any_nil, h.demanding (show 0 < 4 by omega), h.demanding (show 1 < 4 by omega),
    h.demanding (show 2 < 4 by omega), h.demanding (show 3 < 4 by omega), h.grdWord (show 8 + 0 < 16 by omega),
    h.grdWord (show 8 + 1 < 16 by omega), h.grdWord (show 8 + 2 < 16 by omega), h.grdWord (show 8 + 3 < 16 by omega)]

theorem agree.grdOk {s t : State} (h : agree s t) : t.grdOk = s.grdOk := by
  unfold State.grdOk
  rw [h.lp, h.inDev, h.bit F.GRD_STAT.FLI_OK (by decide) (by decide), h.bit F.GRD_STAT.WD_ARMED (by decide) (by decide)]

theorem agree.gst {s t : State} (h : agree s t) : t.gst = s.gst := by
  unfold State.gst
  rw [h.lp, h.grdOk, h.on, h.1 A.GRD_FLT (by decide) (by decide), h.bit F.GRD_STAT.FLI_OK (by decide) (by decide)]

theorem agree.floToggles {s t : State} (h : agree s t) : t.floToggles = s.floToggles := by
  unfold State.floToggles State.floOn State.originator
  rw [h.on, h.lp, h.grdWord (by omega), h.bit F.GRD_STAT.FLI_OK (by decide) (by decide)]

/-! ### Demands and automatic causes -/

theorem settleDemands_steady {s t : State} (h : steady s t) : settleDemands s t = t := by
  have g := h.agree
  unfold settleDemands
  simp only [List.filter_cons, List.filter_nil, g.demanding (show 0 < 4 by omega), g.demanding (show 1 < 4 by omega),
    g.demanding (show 2 < 4 by omega), g.demanding (show 3 < 4 by omega), Bool.and_not_self, Bool.false_eq_true, if_false,
    State.each_nil]

theorem settleCauses_steady {s t : State} (h : steady s t) : settleCauses s t = t := by
  have h0 : s.reg A.GRD_FLT &&& ~~~(s.reg A.GRD_FLT) = 0 := by
    apply BitVec.eq_of_getLsbD_eq
    intro i hi
    simp [hi]
  have hh : (t.ink.state == .halted && s.ink.state != .halted) = false := by
    by_cases e : t.ink.state = .halted
    · rw [e, h.2.2.2 e]; rfl
    · rw [show (t.ink.state == .halted) = false from by simpa using e]; rfl
  unfold settleCauses
  dsimp only
  have h1 : ((0 : Word) != 0 && t.bit F.PTR_CFG.RCV_GRD) = false := rfl
  rw [h.1 A.GRD_FLT (by decide), h0, h1]
  simp only [Bool.false_eq_true, if_false, hh]
  rfl

/-- After a steady command only broadcasts' completions and the Guard's status are left to follow. -/
theorem settle_steady {s t : State} (h : steady s t) : settle s t = grdSettle (bcastSettle t) := by
  unfold settle
  rw [settleDemands_steady h, settleCauses_steady h]

/-! ### What broadcasts' completions change -/

/-- A state changed in nothing but the Innkeeper's transactions and completions. -/
def onlyCompletions (s t : State) : Prop :=
  t = { s with ink := { s.ink with out := t.ink.out, cpl := t.ink.cpl } }

theorem onlyCompletions.refl (s : State) : onlyCompletions s s := rfl

theorem inkComplete_only (xid status count : Nat) (s t : State) (h : onlyCompletions s t) :
    onlyCompletions s (inkComplete xid status count t) := by
  unfold inkComplete
  split
  · exact h
  · unfold onlyCompletions at h ⊢
    rw [h]; rfl

theorem bcastSettle_only (s : State) : onlyCompletions s (bcastSettle s) := by
  unfold bcastSettle
  exact State.each_induct (onlyCompletions s) _ (fun x t h => inkComplete_only _ _ _ s t h) _ s rfl

/-! ### What the Guard's status changes -/

/-- A frame offered to a port changes nothing but that port's transmit room or the frames that wait for it. -/
theorem offer_only (p : Port) (f : Frame) (s : State) :
    offer p f s = { s with north := (offer p f s).north, south := (offer p f s).south,
                           net := { s.net with outbox := (offer p f s).net.outbox } } := by
  unfold offer offerFrom enqueue State.onPort State.setPort
  split
  · cases p <;> rfl
  · rfl

/-- A state changed in nothing but the chain's rooms and waiting frames. -/
def onlyRooms (s t : State) : Prop :=
  t = { s with north := t.north, south := t.south, net := { s.net with outbox := t.net.outbox } }

theorem broadcast_only (f : Frame) (s : State) : onlyRooms s (broadcast f s) := by
  unfold broadcast broadcastFrom
  refine State.each_induct (onlyRooms s) _ (fun p t h => ?_) _ s rfl
  unfold onlyRooms at h ⊢
  have k := offer_only p f t
  unfold offer at k
  rw [k, h]

/-- A state changed in nothing but the Guard's own record of its status, GRD_EVT, the chain's rooms and the frames that
wait for them. -/
def onlyStatus (s t : State) : Prop :=
  (t = { s with
    regs := t.regs, grd := t.grd, north := t.north, south := t.south, net := { s.net with outbox := t.net.outbox } }) ∧
  ∀ a, a ≠ A.GRD_EVT → t.reg a = s.reg a

theorem onlyStatus.refl (s : State) : onlyStatus s s := ⟨rfl, fun _ _ => rfl⟩

theorem onlyStatus.trans {s t u : State} (h : onlyStatus s t) (k : onlyStatus t u) : onlyStatus s u := by
  refine ⟨?_, fun a ha => (k.2 a ha).trans (h.2 a ha)⟩
  have h1 := h.1
  have k1 := k.1
  rw [k1, h1]

theorem onlyStatus.grd (s : State) (f : GrdSt → GrdSt) : onlyStatus s (s.onGrd f) := ⟨rfl, fun _ _ => rfl⟩

theorem onlyStatus.raiseIf (s : State) (b : Bool) : onlyStatus s (s.raiseIf b F.GRD_EVT.OK_CHANGE) := by
  cases b
  · exact onlyStatus.refl s
  · exact ⟨rfl, fun a ha => State.reg_put_ne _ _ _ ha⟩

theorem onlyStatus.broadcast (s : State) (f : Frame) : onlyStatus s (broadcast f s) := by
  have h := broadcast_only f s
  unfold onlyRooms at h
  constructor
  · rw [h]
  · intro a _; rw [h]; rfl

theorem grdNoteOffer_only (s : State) : onlyStatus s (grdNoteOffer s) := by
  unfold grdNoteOffer
  split
  · exact onlyStatus.refl s
  · dsimp only
    split
    · exact (onlyStatus.grd s _).trans (onlyStatus.broadcast _ _)
    · exact onlyStatus.refl s

theorem floSettle_only (s : State) : onlyStatus s (floSettle s) := by
  unfold floSettle
  split
  · exact onlyStatus.refl s
  · exact onlyStatus.grd s _

/-- What follows from a change of the Guard's status. -/
theorem grdSettle_only (s : State) : onlyStatus s (grdSettle s) := by
  unfold grdSettle
  dsimp only
  refine (floSettle_only s).trans (onlyStatus.trans ?_ (grdNoteOffer_only _))
  split
  · split
    · exact ((onlyStatus.raiseIf _ _).trans (onlyStatus.grd _ _)).trans (onlyStatus.grd _ _)
    · exact (onlyStatus.raiseIf _ _).trans (onlyStatus.grd _ _)
  · split
    · exact onlyStatus.grd _ _
    · exact onlyStatus.refl _

/-! ### What a steady command leaves after it -/

/-- What follows from a steady command: completions, and the Guard's status. -/
structure onlyFollows (s t : State) : Prop where
  regs : ∀ a, a ≠ A.GRD_EVT → t.reg a = s.reg a
  rest : t = { s with
    regs := t.regs, grd := t.grd, north := t.north, south := t.south,
    net := { s.net with outbox := t.net.outbox }, ink := { s.ink with out := t.ink.out, cpl := t.ink.cpl } }

theorem settle_only {s t : State} (h : steady s t) : onlyFollows t (settle s t) := by
  rw [settle_steady h]
  have h1 := bcastSettle_only t
  have h2 := grdSettle_only (bcastSettle t)
  unfold onlyCompletions at h1
  refine ⟨fun a ha => ?_, ?_⟩
  · rw [h2.2 a ha, h1]; rfl
  · rw [h2.1, h1]

/-! ### Broadcasts that have left -/

/-- A frame is the broadcast of a TAG that this device sent. -/
def State.bcastFrame (s : State) (tag : Nat) (f : Frame) : Bool :=
  f.cls == 1 && f.dst == 0x7F && f.src == s.slot && ((f.payload.headD 0).extractLsb' 24 8).toNat == tag

/-- The broadcast of a TAG has left every port. -/
def State.bcastLeft (s : State) (tag : Nat) : Bool :=
  !((s.north.tx ++ s.south.tx).any fun t => t.stage == .new && s.bcastFrame tag t.frame) &&
  !(s.net.outbox.any fun x => s.bcastFrame tag x.frame)

/-- The transaction is a broadcast that has left. -/
def State.bcastGone (s : State) (x : XTrans) : Bool :=
  match x.bcast with
  | some tag => s.bcastLeft tag
  | none => false

theorem bcastSettle_eq (s : State) :
    bcastSettle s = s.each (s.ink.out.filter s.bcastGone) fun x s => inkComplete x.xid 0 x.cnt s := rfl

theorem inkComplete_cpl (xid st n : Nat) (s : State) : s.ink.cpl.length ≤ (inkComplete xid st n s).ink.cpl.length := by
  unfold inkComplete
  split
  · exact Nat.le_refl _
  · simp

theorem each_complete_cpl (xs : List XTrans) :
    ∀ s : State, s.ink.cpl.length ≤ (s.each xs fun x s => inkComplete x.xid 0 x.cnt s).ink.cpl.length := by
  induction xs with
  | nil => intro s; exact Nat.le_refl _
  | cons x xs ih => intro s; exact Nat.le_trans (inkComplete_cpl ..) (ih _)

/-- Nothing is completed only where no broadcast has left. -/
theorem bcastSettle_self {s : State} (h : bcastSettle s = s) : s.ink.out.filter s.bcastGone = [] := by
  rw [bcastSettle_eq] at h
  cases hx : s.ink.out.filter s.bcastGone with
  | nil => rfl
  | cons x xs =>
    rw [hx, State.each_cons] at h
    have h1 := each_complete_cpl xs (inkComplete x.xid 0 x.cnt s)
    rw [h] at h1
    have hm : x ∈ s.ink.out := by
      have : x ∈ s.ink.out.filter s.bcastGone := by rw [hx]; exact List.mem_cons_self
      exact (List.mem_filter.mp this).1
    have h2 : (inkComplete x.xid 0 x.cnt s).ink.cpl.length = s.ink.cpl.length + 1 := by
      unfold inkComplete
      split
      · next hn => exact absurd (List.find?_eq_none.mp hn x hm) (by simp)
      · simp
    omega

theorem bcastSettle_of_nil {s : State} (h : s.ink.out.filter s.bcastGone = []) : bcastSettle s = s := by
  rw [bcastSettle_eq, h]; rfl

/-! ### When nothing follows -/

/-- Rooms for a note depend on nothing but its class and type. -/
theorem hasRoom_note (q : PortSt) (f g : Frame) (h1 : f.cls = g.cls) (h2 : f.typ = g.typ) : q.hasRoom f = q.hasRoom g := by
  unfold PortSt.hasRoom isRequest
  rw [h1, h2]

/-- A GRD_NOTE waits and every port that takes it has room. -/
def State.noteGoes (s : State) : Bool :=
  s.grd.noteWaits && s.on 5 && s.bcastPorts.all fun p => (s.port p).hasRoom (s.newFrame 0 0x10 0x7F 0 16 [])

theorem hasRoom_newFrame (s : State) (q : PortSt) (ws : List Word) :
    q.hasRoom (s.newFrame 0 0x10 0x7F 0 16 ws) = q.hasRoom (s.newFrame 0 0x10 0x7F 0 16 []) := hasRoom_note q _ _ rfl rfl

theorem grdNoteOffer_of_not {s : State} (h : s.noteGoes = false) : grdNoteOffer s = s := by
  unfold grdNoteOffer
  split
  · rfl
  · next hc =>
    dsimp only
    split
    · next hr =>
      exfalso
      simp only [Bool.or_eq_true, Bool.not_eq_true', not_or, Bool.not_eq_false] at hc
      have : s.noteGoes = true := by
        unfold State.noteGoes
        rw [hc.1, hc.2]
        simp only [hasRoom_newFrame] at hr
        simpa using hr
      rw [h] at this
      exact Bool.noConfusion this
    · rfl

theorem grdNoteOffer_waits {s : State} (h : s.noteGoes = true) : (grdNoteOffer s).grd.noteWaits = false := by
  unfold State.noteGoes at h
  simp only [Bool.and_eq_true] at h
  unfold grdNoteOffer
  rw [h.1.1, h.1.2]
  dsimp only
  rw [if_neg (by decide), if_pos]
  · have := broadcast_only (s.newFrame 0 0x10 0x7F 0 16 [(s.gst.zeroExtend 32), s.reg A.GRD_FLT,
      s.grd.noteAt.extractLsb' 0 32, s.grd.noteAt.extractLsb' 32 32]) (s.onGrd fun g => { g with noteWaits := false })
    unfold onlyRooms at this
    rw [this]; rfl
  · simp only [hasRoom_newFrame]
    exact h.2

theorem agree.refl (s : State) : agree s s := ⟨fun _ _ _ => rfl, rfl, rfl⟩

theorem agree.trans {s t u : State} (h : agree s t) (k : agree t u) : agree s u :=
  ⟨fun a ha hn => (k.1 a ha hn).trans (h.1 a ha hn), k.2.1.trans h.2.1, k.2.2.trans h.2.2⟩

theorem onlyStatus.agree {s t : State} (h : onlyStatus s t) : agree s t := by
  refine ⟨fun a _ hn => h.2 a hn, ?_, ?_⟩ <;> rw [h.1]

theorem grdNoteOffer_was (s : State) :
    (grdNoteOffer s).grd.okWas = s.grd.okWas ∧ (grdNoteOffer s).grd.gstWas = s.grd.gstWas ∧
    (grdNoteOffer s).grd.floWas = s.grd.floWas := by
  cases h : s.noteGoes
  · rw [grdNoteOffer_of_not h]; exact ⟨rfl, rfl, rfl⟩
  · unfold grdNoteOffer
    split
    · exact ⟨rfl, rfl, rfl⟩
    · dsimp only
      split
      · have := broadcast_only (s.newFrame 0 0x10 0x7F 0 16 [(s.gst.zeroExtend 32), s.reg A.GRD_FLT,
          s.grd.noteAt.extractLsb' 0 32, s.grd.noteAt.extractLsb' 32 32]) (s.onGrd fun g => { g with noteWaits := false })
        unfold onlyRooms at this
        rw [this]; exact ⟨rfl, rfl, rfl⟩
      · exact ⟨rfl, rfl, rfl⟩

/-- The Guard's record of GRD_OK taken, with its event. -/
def grdSettleOk (s : State) : State :=
  if s.grd.okWas != s.grdOk then
    (s.raiseIf (s.on 6) F.GRD_EVT.OK_CHANGE).onGrd fun g => { g with okWas := s.grdOk }
  else s

/-- The Guard's record of GST taken, and a note waiting where it changed. -/
def grdSettleGst (s : State) : State :=
  if s.grd.gstWas != s.gst then
    s.onGrd fun g => { g with gstWas := s.gst, noteWaits := s.on 5, noteAt := s.grdTime }
  else s

theorem grdSettle_eq (s : State) : grdSettle s = grdNoteOffer (grdSettleGst (grdSettleOk (floSettle s))) := rfl

theorem grdSettleOk_only (s : State) : onlyStatus s (grdSettleOk s) := by
  unfold grdSettleOk
  split
  · exact (onlyStatus.raiseIf s _).trans (onlyStatus.grd _ _)
  · exact onlyStatus.refl s

theorem grdSettleGst_only (s : State) : onlyStatus s (grdSettleGst s) := by
  unfold grdSettleGst
  split
  · exact onlyStatus.grd _ _
  · exact onlyStatus.refl s

theorem floSettle_was (s : State) : (floSettle s).grd.floWas = s.floToggles := by
  unfold floSettle
  split
  · next h => simpa using h
  · rfl

theorem grdSettleOk_was (s : State) :
    (grdSettleOk s).grd.okWas = s.grdOk ∧ (grdSettleOk s).grd.floWas = s.grd.floWas := by
  unfold grdSettleOk
  split
  · exact ⟨rfl, by cases s.on 6 <;> rfl⟩
  · next h => exact ⟨by simpa using h, rfl⟩

theorem grdSettleGst_was (s : State) :
    (grdSettleGst s).grd.gstWas = s.gst ∧ (grdSettleGst s).grd.okWas = s.grd.okWas ∧
    (grdSettleGst s).grd.floWas = s.grd.floWas := by
  unfold grdSettleGst
  split
  · exact ⟨rfl, rfl, rfl⟩
  · next h => exact ⟨by simpa using h, rfl, rfl⟩

/-- After it the Guard's status has been acted on. -/
theorem grdSettle_settled (s : State) : (grdSettle s).settled = true := by
  have a0 := (floSettle_only s).agree
  have a1 := (grdSettleOk_only (floSettle s)).agree
  have a2 := (grdSettleGst_only (grdSettleOk (floSettle s))).agree
  have a3 := (grdNoteOffer_only (grdSettleGst (grdSettleOk (floSettle s)))).agree
  have w := grdNoteOffer_was (grdSettleGst (grdSettleOk (floSettle s)))
  have g := grdSettleGst_was (grdSettleOk (floSettle s))
  have k := grdSettleOk_was (floSettle s)
  unfold State.settled
  rw [grdSettle_eq, w.1, w.2.1, w.2.2, g.1, g.2.1, g.2.2, k.1, k.2, floSettle_was, a3.grdOk, a2.grdOk, a1.grdOk, a3.gst,
    a2.gst, a3.floToggles, a2.floToggles, a1.floToggles, a0.floToggles]
  simp

/-- In a settled state with no note to go, it does nothing; and only there. -/
theorem grdSettle_self_iff (s : State) : grdSettle s = s ↔ s.settled = true ∧ s.noteGoes = false := by
  have parts : s.settled = true → floSettle s = s ∧ grdSettleOk s = s ∧ grdSettleGst s = s := by
    intro hset
    unfold State.settled at hset
    simp only [Bool.and_eq_true, beq_iff_eq] at hset
    refine ⟨?_, ?_, ?_⟩
    · unfold floSettle; rw [hset.1.1]; simp
    · unfold grdSettleOk; rw [hset.1.2]; simp
    · unfold grdSettleGst; rw [hset.2]; simp
  constructor
  · intro h
    have hset : s.settled = true := h ▸ grdSettle_settled s
    refine ⟨hset, ?_⟩
    obtain ⟨h0, h1, h2⟩ := parts hset
    rw [grdSettle_eq, h0, h1, h2] at h
    cases hg : s.noteGoes
    · rfl
    · have := grdNoteOffer_waits hg
      rw [h] at this
      unfold State.noteGoes at hg
      rw [this] at hg
      simp at hg
  · intro ⟨hset, hg⟩
    obtain ⟨h0, h1, h2⟩ := parts hset
    rw [grdSettle_eq, h0, h1, h2, grdNoteOffer_of_not hg]

theorem isChn_stat (p : Port) : isChn (F.CHN_P_STAT.STATE p.idx).addr = true := by cases p <;> decide

theorem quiet.get {s t : State} (h : quiet s t) (f : Fld) (hf : isChn f.addr = true) : t.get f = s.get f := by
  unfold State.get; rw [h.2.1 _ hf]

theorem quiet.slot {s t : State} (h : quiet s t) : t.slot = s.slot := by
  unfold State.slot State.bit
  rw [h.get _ (by decide), h.get _ (by decide)]

theorem quiet.bcastGone {s t : State} (h : quiet s t) : t.bcastGone = s.bcastGone := by
  have e := h.slot
  obtain ⟨_, _, hn, hs, ho, _⟩ := h
  funext x
  unfold State.bcastGone State.bcastLeft State.bcastFrame
  rw [hn, hs, ho, e]

theorem quiet.noteGoes {s t : State} (h : quiet s t) : t.noteGoes = s.noteGoes := by
  have hu : t.portUp = s.portUp := by
    funext p
    unfold State.portUp State.linkState
    rw [h.get _ (isChn_stat p)]
  have hb : t.bit F.CHN_NET_STAT.BRKV = s.bit F.CHN_NET_STAT.BRKV := by
    unfold State.bit; rw [h.get _ (by decide)]
  have hp : t.port = s.port := by
    funext p
    cases p
    · exact h.2.2.1
    · exact h.2.2.2.1
  unfold State.noteGoes State.bcastPorts
  rw [h.2.2.2.2.2.2.2.2.1, h.1.agree.on, hu, hb, hp]
  simp only [hasRoom_note _ (t.newFrame 0 0x10 0x7F 0 16 []) (s.newFrame 0 0x10 0x7F 0 16 []) rfl rfl]

/-- Nothing follows from a quiet command in a state where nothing was left to follow. -/
theorem settle_quiet {s t : State} (hs : s.rested) (h : quiet s t) : settle s t = t := by
  have hb : bcastSettle t = t := by
    apply bcastSettle_of_nil
    rw [h.bcastGone]
    apply List.filter_eq_nil_iff.mpr
    intro x hx hg
    rcases h.2.2.2.2.2.1 x hx with hin | hno
    · exact List.filter_eq_nil_iff.mp (bcastSettle_self hs.1) x hin hg
    · unfold State.bcastGone at hg
      rw [hno] at hg
      exact Bool.noConfusion hg
  rw [settle_steady h.1, hb]
  have hg := (grdSettle_self_iff s).mp hs.2
  apply (grdSettle_self_iff t).mpr
  refine ⟨?_, h.noteGoes.trans hg.2⟩
  have hset := hg.1
  unfold State.settled at hset ⊢
  rw [h.2.2.2.2.2.2.1, h.2.2.2.2.2.2.2.1, h.2.2.2.2.2.2.2.2.2, h.1.agree.grdOk, h.1.agree.gst, h.1.agree.floToggles]
  exact hset

/-! ### Nothing is left to follow -/

/-- No transaction outstanding has one of the XIDs. -/
theorem each_complete_out (xs : List XTrans) :
    ∀ s : State, ∀ y ∈ (s.each xs fun x s => inkComplete x.xid 0 x.cnt s).ink.out,
      y ∈ s.ink.out ∧ ∀ x ∈ xs, x.xid ≠ y.xid := by
  induction xs with
  | nil => intro s y hy; exact ⟨hy, fun x hx => absurd hx (List.not_mem_nil)⟩
  | cons x xs ih =>
    intro s y hy
    obtain ⟨h1, h2⟩ := ih _ y hy
    have h3 : y ∈ s.ink.out ∧ x.xid ≠ y.xid := by
      dsimp only at h1
      unfold inkComplete at h1
      split at h1
      · next hn =>
        refine ⟨h1, fun e => ?_⟩
        exact absurd (List.find?_eq_none.mp hn y h1) (by simp [e])
      · have := List.mem_filter.mp h1
        exact ⟨this.1, fun e => by simp [e] at this⟩
    refine ⟨h3.1, fun z hz => ?_⟩
    rcases List.mem_cons.mp hz with e | e
    · rw [e]; exact h3.2
    · exact h2 z e

/-- A frame offered to a port only adds to the rooms; of the frames that wait it may replace one of class 0. -/
theorem offer_adds (p : Port) (f : Frame) (s : State) :
    (∀ x ∈ s.north.tx, x ∈ (offer p f s).north.tx) ∧ (∀ x ∈ s.south.tx, x ∈ (offer p f s).south.tx) ∧
    (∀ x ∈ s.net.outbox, x.frame.cls ≠ 0 → x ∈ (offer p f s).net.outbox) := by
  unfold offer offerFrom enqueue State.onPort
  cases (s.port p).hasRoom f <;> cases p <;> simp +contextual [State.setPort, State.port, sameNews]

/-- Rooms, and waiting frames of the classes beside class 0, only added to. -/
def roomsGrow (s t : State) : Prop :=
  (∀ x ∈ s.north.tx, x ∈ t.north.tx) ∧ (∀ x ∈ s.south.tx, x ∈ t.south.tx) ∧
  (∀ x ∈ s.net.outbox, x.frame.cls ≠ 0 → x ∈ t.net.outbox)

theorem broadcast_grows (f : Frame) (s : State) : roomsGrow s (broadcast f s) := by
  unfold broadcast broadcastFrom
  refine State.each_induct (roomsGrow s) _ (fun p t h => ?_) _ s ⟨fun _ h => h, fun _ h => h, fun _ h _ => h⟩
  have k := offer_adds p f t
  exact ⟨fun x hx => k.1 x (h.1 x hx), fun x hx => k.2.1 x (h.2.1 x hx), fun x hx hc => k.2.2 x (h.2.2 x hx hc) hc⟩

theorem grdNoteOffer_grows (s : State) : roomsGrow s (grdNoteOffer s) := by
  unfold grdNoteOffer
  split
  · exact ⟨fun _ h => h, fun _ h => h, fun _ h _ => h⟩
  · dsimp only
    split
    · exact broadcast_grows _ (s.onGrd fun g => { g with noteWaits := false })
    · exact ⟨fun _ h => h, fun _ h => h, fun _ h _ => h⟩

theorem grdSettle_grows (s : State) : roomsGrow s (grdSettle s) := by
  have e : ∀ u : State, (grdSettleGst (grdSettleOk (floSettle u))).north = u.north ∧
      (grdSettleGst (grdSettleOk (floSettle u))).south = u.south ∧
      (grdSettleGst (grdSettleOk (floSettle u))).net = u.net := by
    intro u
    have f0 : (floSettle u).north = u.north ∧ (floSettle u).south = u.south ∧ (floSettle u).net = u.net := by
      unfold floSettle; split <;> exact ⟨rfl, rfl, rfl⟩
    rw [← f0.1, ← f0.2.1, ← f0.2.2]
    unfold grdSettleGst grdSettleOk
    split <;> split <;> simp
  have h := grdNoteOffer_grows (grdSettleGst (grdSettleOk (floSettle s)))
  rw [grdSettle_eq]
  unfold roomsGrow at h ⊢
  rw [(e s).1, (e s).2.1, (e s).2.2] at h
  exact h

/-- After a command nothing is left to follow. -/
theorem settle_rested (s t : State) : (settle s t).rested := by
  unfold settle
  generalize settleCauses s (settleDemands s t) = v
  have hb : ∀ u : State, (bcastSettle u).ink.out.filter (bcastSettle u).bcastGone = [] := by
    intro u
    have ho := bcastSettle_only u
    unfold onlyCompletions at ho
    have hg : (bcastSettle u).bcastGone = u.bcastGone := by rw [ho]; rfl
    rw [hg]
    apply List.filter_eq_nil_iff.mpr
    intro y hy hgone
    rw [bcastSettle_eq] at hy
    obtain ⟨h1, h2⟩ := each_complete_out _ u y hy
    exact h2 y (List.mem_filter.mpr ⟨h1, hgone⟩) rfl
  have hs := grdSettle_only (bcastSettle v)
  constructor
  · apply bcastSettle_of_nil
    apply List.filter_eq_nil_iff.mpr
    intro y hy hgone
    have hout : (grdSettle (bcastSettle v)).ink.out = (bcastSettle v).ink.out := by rw [hs.1]
    rw [hout] at hy
    have hno := List.filter_eq_nil_iff.mp (hb v) y hy
    apply hno
    have hslot : (grdSettle (bcastSettle v)).slot = (bcastSettle v).slot := by
      unfold State.slot State.bit State.get
      rw [hs.2 _ (by decide), hs.2 _ (by decide)]
    have hgr := grdSettle_grows (bcastSettle v)
    unfold State.bcastGone at hgone ⊢
    cases hy2 : y.bcast with
    | none => rw [hy2] at hgone; exact Bool.noConfusion hgone
    | some tag =>
      rw [hy2] at hgone
      simp only [State.bcastLeft, State.bcastFrame, hslot, Bool.and_eq_true, Bool.not_eq_true', List.any_eq_false,
        List.mem_append] at hgone ⊢
      refine ⟨fun x hx => hgone.1 x ?_, fun x hx hw => hgone.2 x (hgr.2.2 x hx (by rw [eq_of_beq hw.1.1.1]; decide)) hw⟩
      exact hx.elim (fun h => Or.inl (hgr.1 x h)) (fun h => Or.inr (hgr.2.1 x h))
  · apply (grdSettle_self_iff _).mpr
    refine ⟨grdSettle_settled _, ?_⟩
    rw [grdSettle_eq]
    generalize grdSettleGst (grdSettleOk (floSettle (bcastSettle v))) = w
    cases h : w.noteGoes
    · rw [grdNoteOffer_of_not h]; exact h
    · unfold State.noteGoes
      rw [grdNoteOffer_waits h]; rfl

end Sys2Proof.Machine
end

