-- ==== Sys2Proof/Laws/Claims.lean ====
section
/-! SUPPORT. Laws of the words that the claims use: which updates are quiet or steady, and what they keep. -/

namespace Sys2Proof.Machine

/-! ### Quiet and steady updates -/

theorem steady.refl (s : State) : steady s s := ⟨fun _ _ => rfl, rfl, rfl, fun h => h⟩

theorem quiet.refl (s : State) : quiet s s :=
  ⟨steady.refl s, fun _ _ => rfl, rfl, rfl, rfl, fun _ hx => Or.inl hx, rfl, rfl, rfl, rfl⟩

theorem steady.setReg {s t : State} (h : steady s t) (a : Nat) (v : Word) (ha : isGrd a = false) :
    steady s (t.setReg a v) := by
  refine ⟨fun b hb => ?_, h.2.1, h.2.2.1, h.2.2.2⟩
  rw [State.reg_setReg_ne _ _ (fun e => by rw [e, ha] at hb; exact Bool.noConfusion hb)]
  exact h.1 b hb

theorem quiet.setReg {s t : State} (h : quiet s t) (a : Nat) (v : Word) (ha : isGrd a = false) (hc : isChn a = false) :
    quiet s (t.setReg a v) := by
  refine ⟨h.1.setReg a v ha, fun b hb => ?_, h.2.2⟩
  rw [State.reg_setReg_ne _ _ (fun e => by rw [e, hc] at hb; exact Bool.noConfusion hb)]
  exact h.2.1 b hb

theorem steady.put {s t : State} (h : steady s t) (f : Fld) (n : Nat) (ha : isGrd f.addr = false) :
    steady s (t.put f n) := h.setReg _ _ ha

theorem quiet.put {s t : State} (h : quiet s t) (f : Fld) (n : Nat) (ha : isGrd f.addr = false)
    (hc : isChn f.addr = false) : quiet s (t.put f n) := h.setReg _ _ ha hc

theorem quiet.raiseIf {s t : State} (h : quiet s t) (b : Bool) (f : Fld) (ha : isGrd f.addr = false)
    (hc : isChn f.addr = false) : quiet s (t.raiseIf b f) := by
  cases b
  · exact h
  · exact h.put f 1 ha hc

theorem quiet.plainWrite {s t : State} (h : quiet s t) (a : Nat) (v : Word) (ha : isGrd a = false)
    (hc : isChn a = false) : quiet s (t.plainWrite a v) := by
  unfold State.plainWrite
  split
  · exact h
  · exact h.setReg _ _ ha hc

/-- A change of parts that the Guard, the chain and the Innkeeper's transactions do not depend on is quiet. -/
theorem quiet.of_eq {s t u : State} (h : quiet s t) (hr : u.regs = t.regs) (hd : u.ptr.dev = t.ptr.dev)
    (hm : u.ptr.dom = t.ptr.dom) (hi : u.ink.state = t.ink.state) (hn : u.north = t.north) (hs : u.south = t.south)
    (ho : u.net.outbox = t.net.outbox) (hx : u.ink.out = t.ink.out) (hg : u.grd = t.grd) : quiet s u := by
  have hreg : ∀ a, u.reg a = t.reg a := fun a => by unfold State.reg; rw [hr]
  refine ⟨⟨fun a ha => (hreg a).trans (h.1.1 a ha), hd.trans h.1.2.1, hm.trans h.1.2.2.1, fun e => h.1.2.2.2 (hi ▸ e)⟩,
    fun a ha => (hreg a).trans (h.2.1 a ha), hn.trans h.2.2.1, hs.trans h.2.2.2.1, ho.trans h.2.2.2.2.1,
    fun x hin => h.2.2.2.2.2.1 x (hx ▸ hin), ?_, ?_, ?_, ?_⟩
  · rw [hg]; exact h.2.2.2.2.2.2.1
  · rw [hg]; exact h.2.2.2.2.2.2.2.1
  · rw [hg]; exact h.2.2.2.2.2.2.2.2.1
  · rw [hg]; exact h.2.2.2.2.2.2.2.2.2

/-- The outcome of a quiet command in a rested state is the state it names. -/
theorem done_quiet {s t : State} (hs : s.rested) (h : quiet s t) : done s t = .next t := by
  unfold done
  rw [settle_quiet hs h]

/-! ### Frames -/

theorem keeps.refl (fs : List Fld) (s : State) : keeps fs s s := fun _ _ _ => rfl

theorem keeps.trans {fs : List Fld} {s t u : State} (h : keeps fs s t) (k : keeps fs t u) : keeps fs s u :=
  fun a i hi => (k a i hi).trans (h a i hi)

/-- A write of a listed field keeps the rest. -/
theorem keeps.put {fs : List Fld} {s t : State} (h : keeps fs s t) (f : Fld) (n : Nat)
    (hf : fs.any (fun g => g.addr == f.addr && Nat.ble g.lo f.lo && Nat.ble (f.lo + f.w) (g.lo + g.w)) = true) :
    keeps fs s (t.put f n) := by
  intro a i hi
  rw [State.reg_put]
  split
  · next e =>
    rw [Fld.getLsbD_write]
    split
    · next hb =>
      exfalso
      simp only [Bool.and_eq_true, decide_eq_true_eq] at hb
      obtain ⟨g, hg, hin⟩ := List.any_eq_true.mp hf
      simp only [Bool.and_eq_true, beq_iff_eq, Nat.ble_eq] at hin
      have := List.any_eq_false.mp hi g hg
      apply this
      simp only [Fld.holds, Bool.and_eq_true, beq_iff_eq, Nat.ble_eq, Nat.blt_eq]
      exact ⟨⟨hin.1.1.trans e.symm, by omega⟩, by omega⟩
    · rw [← e]; exact h a i hi
  · exact h a i hi

/-- A store of a register all of whose bits are listed keeps the rest. -/
theorem keeps.setReg {fs : List Fld} {s t : State} (h : keeps fs s t) (a : Nat) (v : Word)
    (hf : fs.any (fun g => g.addr == a && g.lo == 0 && Nat.ble 32 g.w) = true) : keeps fs s (t.setReg a v) := by
  intro b i hi
  rw [State.reg_setReg]
  split
  · next e =>
    obtain ⟨g, hg, hin⟩ := List.any_eq_true.mp hf
    simp only [Bool.and_eq_true, beq_iff_eq, Nat.ble_eq] at hin
    by_cases h32 : i < 32
    · exfalso
      apply List.any_eq_false.mp hi g hg
      simp only [Fld.holds, Bool.and_eq_true, beq_iff_eq, Nat.ble_eq, Nat.blt_eq]
      exact ⟨⟨hin.1.1.trans e.symm, by omega⟩, by omega⟩
    · rw [BitVec.getLsbD_of_ge _ _ (by omega), BitVec.getLsbD_of_ge _ _ (by omega)]
  · exact h b i hi

theorem keeps.raiseIf {fs : List Fld} {s t : State} (h : keeps fs s t) (b : Bool) (f : Fld)
    (hf : fs.any (fun g => g.addr == f.addr && Nat.ble g.lo f.lo && Nat.ble (f.lo + f.w) (g.lo + g.w)) = true) :
    keeps fs s (t.raiseIf b f) := by
  cases b
  · exact h
  · exact h.put f 1 hf

theorem keeps.plainWrite {fs : List Fld} {s t : State} (h : keeps fs s t) (a : Nat) (v : Word)
    (hf : fs.any (fun g => g.addr == a && g.lo == 0 && Nat.ble 32 g.w) = true) : keeps fs s (t.plainWrite a v) := by
  unfold State.plainWrite
  split
  · exact h
  · exact h.setReg _ _ hf

/-- A change outside the endpoint file keeps it. -/
theorem keeps.of_regs {fs : List Fld} {s t u : State} (h : keeps fs s t) (hr : u.regs = t.regs) : keeps fs s u := by
  intro a i hi
  have : u.reg a = t.reg a := by unfold State.reg; rw [hr]
  rw [this]; exact h a i hi

/-- A field apart from every listed one reads as before. -/
theorem keeps.get {fs : List Fld} {s t : State} (h : keeps fs s t) (g : Fld) (hg : fs.all (fun f => f.apart g) = true) :
    t.get g = s.get g := by
  unfold State.get Fld.read
  apply Nat.eq_of_testBit_eq
  intro i
  rw [Nat.testBit_mod_two_pow, Nat.testBit_mod_two_pow, Nat.testBit_shiftRight, Nat.testBit_shiftRight]
  by_cases hi : i < g.w
  · have := h g.addr (g.lo + i) (by
      apply List.any_eq_false.mpr
      intro f hf
      have hp := List.all_eq_true.mp hg f hf
      unfold Fld.apart at hp
      unfold Fld.holds
      simp only [Bool.or_eq_true, bne_iff_ne, Nat.ble_eq, ne_eq] at hp
      simp only [Bool.and_eq_true, beq_iff_eq, Nat.ble_eq, Nat.blt_eq, not_and]
      intro e1
      omega)
    rw [BitVec.getLsbD, BitVec.getLsbD] at this
    rw [this]
  · simp [hi]

end Sys2Proof.Machine
end

