-- ==== Sys2Proof/Machine/LineCode.lean ====
section
/-! DEFINITION. What stands on the lines for a frame and for a host response: the line code of a chain port (R205 to R209,
R212, R217, R219), the bytes of the host port (R260), and the reads of the serial flash (R323). These are functions of what the state holds (the last frame sent
on a port, the last response) and, for the chain, of the scrambler, which runs on with the line's time and is an argument
(log entry 75). -/

namespace Sys2Proof.Machine

/-- A ternary symbol (R205). -/
inductive Symbol where
  | minus | zero | plus
  deriving DecidableEq, Repr, Inhabited

/-- A marker after the escape (R206). -/
inductive Marker where
  | sof | eof | idle | abort | epoch | wake
  deriving DecidableEq, Repr, Inhabited

/-- What a port sends in turn: a group of three line bits, or the escape with its marker. -/
inductive LineItem where
  | group (b : BitVec 3)
  | mark (m : Marker)
  deriving DecidableEq, Repr, Inhabited

/-- The symbol pair of a group of three bits (R205). -/
def groupPair (b : BitVec 3) : Symbol × Symbol :=
  match b.toNat with
  | 0 => (.minus, .minus)
  | 1 => (.minus, .zero)
  | 2 => (.minus, .plus)
  | 3 => (.zero, .minus)
  | 4 => (.zero, .plus)
  | 5 => (.plus, .minus)
  | 6 => (.plus, .zero)
  | _ => (.plus, .plus)

/-- The pair after the escape that names a marker (R206). -/
def markerPair : Marker → Symbol × Symbol
  | .sof => (.plus, .plus)
  | .eof => (.minus, .minus)
  | .idle => (.plus, .minus)
  | .abort => (.minus, .plus)
  | .epoch => (.zero, .plus)
  | .wake => (.zero, .minus)

/-- The marker a pair after the escape names; none is a code violation (R206). -/
def pairMarker (p : Symbol × Symbol) : Option Marker :=
  [Marker.sof, .eof, .idle, .abort, .epoch, .wake].find? fun m => markerPair m == p

/-- The group a pair carries; the escape carries none (R205, R206). -/
def pairGroup (p : Symbol × Symbol) : Option (BitVec 3) :=
  ((List.range 8).map (BitVec.ofNat 3)).find? fun b => groupPair b == p

/-- The symbols of what a port sends: a group's pair, or the escape and a marker's pair (R205, R206). -/
def lineSymbols : List LineItem → List Symbol
  | [] => []
  | .group b :: xs => (groupPair b).1 :: (groupPair b).2 :: lineSymbols xs
  | .mark m :: xs => .zero :: .zero :: (markerPair m).1 :: (markerPair m).2 :: lineSymbols xs

/-- The bits of bytes, each most significant bit first (R207). -/
def bytesBits (bs : List Byte) : List Bool := bs.flatMap fun b => (List.range 8).map fun i => b.getLsbD (7 - i)

/-- One bit through the scrambler: `scr` holds the last 23 line bits, the newest in bit 0 (R209). -/
def scramble (scr : BitVec 23) (d : Bool) : Bool × BitVec 23 :=
  let x := d ^^ scr.getLsbD 17 ^^ scr.getLsbD 22
  (x, (scr <<< 1) ||| (BitVec.ofBool x).zeroExtend 23)

/-- One line bit back to its data bit (R209). -/
def descramble (scr : BitVec 23) (x : Bool) : Bool × BitVec 23 :=
  (x ^^ scr.getLsbD 17 ^^ scr.getLsbD 22, (scr <<< 1) ||| (BitVec.ofBool x).zeroExtend 23)

/-- Bits scrambled in order, and the scrambler after them. -/
def scrambleAll (scr : BitVec 23) : List Bool → List Bool × BitVec 23
  | [] => ([], scr)
  | d :: ds =>
    let x := scramble scr d
    let r := scrambleAll x.2 ds
    (x.1 :: r.1, r.2)

/-- Line bits back to data bits. -/
def descrambleAll (scr : BitVec 23) : List Bool → List Bool × BitVec 23
  | [] => ([], scr)
  | x :: xs =>
    let d := descramble scr x
    let r := descrambleAll d.2 xs
    (d.1 :: r.1, r.2)

/-- Line bits in groups of three, the first bit of a group its most significant (R205). -/
def bitGroups : List Bool → List LineItem
  | a :: b :: c :: bs => .group (BitVec.ofBool a ++ BitVec.ofBool b ++ BitVec.ofBool c) :: bitGroups bs
  | _ => []

/-- The pad bits after a frame of `n` bytes (R207). -/
def padBits (n : Nat) : Nat := (3 - 8 * n % 3) % 3

/-- All the bytes of a frame between SOF and EOF: header, payload and the CRC, least significant byte first (R217, R219). -/
def frameSent (f : Frame) : List Byte := frameBytes f ++ wordBytes (frameCrc f)

/-- A frame on the line: an IDLE, SOF, its bits and the pad bits scrambled, in groups, and EOF (R206 to R209, R217). The IDLE
is the one due, or is inserted.
(DESIGN CHOICE, log entry 75.) -/
def frameLine (scr : BitVec 23) (f : Frame) : List LineItem × BitVec 23 :=
  let bs := frameSent f
  let r := scrambleAll scr (bytesBits bs ++ List.replicate (padBits bs.length) false)
  (.mark .idle :: .mark .sof :: bitGroups r.1 ++ [.mark .eof], r.2)

/-- An IDLE before every run of at most 63 groups of fill, so that one comes in every 64 fill groups (R206). -/
def idleRuns : Nat → List LineItem → List LineItem
  | 0, _ => []
  | _, [] => []
  | fuel + 1, gs => .mark .idle :: gs.take 63 ++ idleRuns fuel (gs.drop 63)

/-- Fill: groups of zero data bits, scrambled, with their IDLE markers (R206, R208).
(DESIGN CHOICE, log entry 75.) -/
def fillLine (scr : BitVec 23) (groups : Nat) : List LineItem × BitVec 23 :=
  let r := scrambleAll scr (List.replicate (3 * groups) false)
  (idleRuns groups (bitGroups r.1), r.2)

/-- A training block: the WAKE marker, the status group and 254 counting groups, scrambled (R209, R212).
(DESIGN CHOICE, log entry 75.) -/
def trainingLine (scr : BitVec 23) (rxOk : Bool) : List LineItem × BitVec 23 :=
  let bits := fun (n : Nat) => [n.testBit 2, n.testBit 1, n.testBit 0]
  let r := scrambleAll scr (bits (if rxOk then 4 else 0) ++ (List.range 254).flatMap fun i => bits (i % 8))
  (.mark .wake :: bitGroups r.1, r.2)

/-- The EPOCH marker, which stands between any two groups (R206). -/
def epochItem : LineItem := .mark .epoch

/-- One period of the wake tone: runs of 333 and 334 symbols of +1 and −1 (R210). -/
def tonePeriod : List Symbol := List.replicate 333 .plus ++ List.replicate 334 .minus

/-- A frame, where one was sent last, and `groups` groups of fill after it: what ALIGN and UP send (R208, R210).
(DESIGN CHOICE, log entry 75.) -/
def PortSt.sends (q : PortSt) (scr : BitVec 23) (groups : Nat) : List LineItem :=
  let f := match q.line with
    | some f => frameLine scr f
    | none => ([], scr)
  f.1 ++ (fillLine f.2 groups).1

/-- The EPOCH marker put after the first `k` things of a line; it does not advance the scrambler (R206).
(DESIGN CHOICE, log entry 75.) -/
def withEpoch (k : Nat) (xs : List LineItem) : List LineItem := xs.take k ++ epochItem :: xs.drop k

/-- What a port puts on its line in its present state, from a state of the scrambler (R210): nothing in SILENT; the wake
tone; a training block with its RX_OK; in ALIGN and UP the last frame sent and `groups` groups of fill after it, in UP with
the EPOCH marker of this instant, where one is due, after `k` of them.
(DESIGN CHOICE, log entry 75.) -/
def State.portLine (s : State) (p : Port) (scr : BitVec 23) (groups k : Nat) : List Symbol :=
  let q := s.port p
  match s.linkState p with
  | 0 => [.zero]
  | 1 => tonePeriod
  | 2 => lineSymbols (trainingLine scr (s.bit (F.CHN_P_STAT.RXOK p.idx))).1
  | 4 => lineSymbols (if q.epoch == some s.timeNow then withEpoch k (q.sends scr groups) else q.sends scr groups)
  | _ => lineSymbols (q.sends scr groups)

/-- The bytes of a response of the host port (R260).
(DESIGN CHOICE, log entry 75.) -/
def respSent (r : HostResp) : List Byte :=
  let body := beBytes 1 r.status ++ beBytes 1 r.htag ++ beBytes 2 r.data.length ++ wordsSent r.data
  0x5A :: body ++ beBytes 2 (CrcKind.of .crc16 body).toNat

/-- Bytes on HIO3 to HIO0, four bits per HCK cycle: the high nibble of each byte first, HIO3 its most significant bit
(R259). -/
def nibbles (bs : List Byte) : List (BitVec 4) := bs.flatMap fun b => [b.extractLsb' 4 4, b.extractLsb' 0 4]

/-- What the target drives after the last request byte (R259): 0xFF while it is busy, as an MREAD that waits for the Cellar
makes it, then the response; nothing where it has none. -/
def State.hostLine (s : State) : List (BitVec 4) :=
  match s.host.waits, s.host.resp with
  | some _, _ => nibbles [0xFF]
  | none, some r => nibbles (respSent r)
  | none, none => []

/-- One FCK cycle at the serial flash (R323): a bit of the command, four bits of an address or of data, or a dummy clock. -/
inductive FlashClock where
  | command (b : Bool)
  | quad (n : BitVec 4)
  | dummy
  deriving DecidableEq, Repr, Inhabited

/-- The quad-I/O fast read of `n` bytes from a byte address (R323): command 0xEB, a 3-byte address, 6 dummy clocks, and the
bytes at 4 bits per FCK cycle. The command goes bit by bit, the high nibble of each byte first.
(PRESUMED, log entry 28.) -/
def State.flashLine (s : State) (a n : Nat) : List FlashClock :=
  (List.range 8).map (fun i => .command ((0xEB : Byte).getLsbD (7 - i))) ++
  (nibbles (beBytes 3 a)).map .quad ++ List.replicate 6 .dummy ++ (nibbles (s.flashBytes a n)).map .quad

/-- The bytes of a request of the host port before its CRC, and with it (R260, R263). -/
def reqSent (r : HostReq) (n : Nat) : List Byte :=
  let head := if r.flags == 1 then authBytes r n ++ r.tag else (authBytes r n).take ((authBytes r n).length - 4)
  head ++ beBytes 2 (CrcKind.of .crc16 head).toNat

end Sys2Proof.Machine
end

