-- ==== Sys2Proof/Laws/Line.lean ====
section
/-! SUPPORT. Laws of the line code: pairs and groups name each other, and the descrambler undoes the scrambler. -/

namespace Sys2Proof.Machine

/-- Every group is read back from its pair. -/
theorem pairGroup_groupPair (b : BitVec 3) : pairGroup (groupPair b) = some b := by
  revert b; decide

/-- Every marker is read back from its pair. -/
theorem pairMarker_markerPair (m : Marker) : pairMarker (markerPair m) = some m := by cases m <;> decide

/-- No group's pair is the escape. -/
theorem groupPair_ne_escape (b : BitVec 3) : groupPair b ≠ (.zero, .zero) := by revert b; decide

/-- A descrambler that holds the scrambler's state recovers the bits, and holds its state after them (R209). -/
theorem descrambleAll_scrambleAll (scr : BitVec 23) (ds : List Bool) :
    descrambleAll scr (scrambleAll scr ds).1 = (ds, (scrambleAll scr ds).2) := by
  induction ds generalizing scr with
  | nil => rfl
  | cons d ds ih =>
    have h : descramble scr (scramble scr d).1 = (d, (scramble scr d).2) := by
      simp only [descramble, scramble]
      cases d <;> cases scr.getLsbD 17 <;> cases scr.getLsbD 22 <;> rfl
    simp only [scrambleAll, descrambleAll, h, ih]

/-- The frame's bits and its pad bits fill whole groups. -/
theorem padBits_mod (n : Nat) : (8 * n + padBits n) % 3 = 0 := by unfold padBits; omega

end Sys2Proof.Machine
end

