-- ==== Sys2Proof/WellFormed.lean ====
section
/-! DEFINITION. Which commands are well formed: every number an operand holds lies in the range its field or its
register index has, and a written word is one of its row. A command that is not well formed acts on nothing or, where it
names a value no field can hold, stands for no event of the part. -/

namespace Sys2Proof

open Machine

/-- Every field of a frame lies within its width (R217), with one CRD value per class. -/
def Frame.wf (f : Frame) : Bool :=
  Nat.blt f.cls 4 && Nat.blt f.typ 64 && Nat.blt f.src 128 && Nat.blt f.dst 128 && Nat.blt f.gen 16 &&
  Nat.blt f.gst 16 && Nat.blt f.seq 256 && Nat.blt f.len 512 && Nat.blt f.strm 32 && Nat.blt f.time 4294967296 &&
  f.crd.length == 4 && (f.crd.all fun c => Nat.blt c 16) && Nat.blt f.ack 256 && f.payload.length == (f.len + 3) / 4

/-- Every field of a host request lies within its width (R260, R263). -/
def HostReq.wf (r : HostReq) : Bool :=
  Nat.blt r.cmd 256 && Nat.blt r.flags 256 && Nat.blt r.count 65536 && Nat.blt r.addr 4294967296 &&
  Nat.blt r.counter 4294967296 && Nat.ble r.tag.length 8

/-- A Guard condition names a cell or a threshold channel the part has (R346). -/
def GuardCond.wf : GuardCond → Bool
  | .ov n => Nat.blt n 24
  | .uv n => Nat.blt n 24
  | .th k => Nat.blt k 4
  | .oc _ => true
  | .die => true

/-- A command whose operands lie in their ranges and, for a write of a row of its own, whose word is one of that row. -/
def Instr.wf (i : Instr) : Bool :=
  match i with
  | .registerWrite _ a _ => Nat.blt a 0x4000
  | .conversionEnd conv code _ => (Nat.ble conv 24 || conv == 31) && Nat.blt code 4096
  | .calGainPhaseEnd gains offs => gains.length == 27 && offs.length == 27
  | .hkEntryEnd value => Nat.blt value 65536
  | .hkInject v => F.MEAS_HK_INJ.GO.read v == 1
  | .owStart v => F.MEAS_OW_CTRL.GO.read v == 1
  | .resRead _ n => Nat.blt n 25
  | .scfgWrite n _ => Nat.blt n 24
  | .smaskWrite n _ => Nat.blt n 24
  | .accSnap v => F.SDP_ACC_CTRL.SNAP.read v == 1
  | .toneWrite t _ => Nat.blt t 6
  | .twinWrite t _ => Nat.blt t 6
  | .ctxCfgWrite c _ => Nat.blt c 160
  | .impResultWrite c _ _ _ => Nat.blt c 160
  | .impBlockTimeout n => Nat.blt n 24
  | .phcEnable v => F.PHC_CTRL.EN.read v == 1
  | .phcDisable v => F.PHC_CTRL.EN.read v == 0
  | .switchingCycle o => Nat.blt o.x 6
  | .trimSat x => Nat.blt x 6
  | .scOverride x => Nat.blt x 6
  | .senseLoss x => Nat.blt x 6
  | .openPhase x => Nat.blt x 6
  | .switchOvercurrent n => Nat.blt n 24
  | .thmEvaluate ds => ds.length == 4
  | .lnkHello _ f => f.wf && f.cls == 0 && f.typ == 1
  | .eqAdapt _ target => Nat.blt target 16
  | .lnkIdle _ f => f.wf && f.cls == 0 && f.typ == 0
  | .streamFrame _ f => f.wf && f.cls == 2
  | .netSearch _ f => f.wf && f.cls == 0 && f.typ == 8
  | .netAssign _ f => f.wf && f.cls == 0 && f.typ == 9
  | .netRoute _ f => f.wf && f.cls == 0 && f.typ == 10
  | .netLink _ f => f.wf && f.cls == 0 && f.typ == 11
  | .lnkRttRequest _ f rxFrac => f.wf && Nat.blt rxFrac 256 && f.cls == 0 && f.typ == 2
  | .lnkRttResponse _ f _ => f.wf && f.cls == 0 && f.typ == 2
  | .read _ f => f.wf && f.cls == 1 && f.typ == 0
  | .write _ f => f.wf && f.cls == 1 && f.typ == 1
  | .modify _ f => f.wf && f.cls == 1 && f.typ == 2
  | .bulkOpen _ f => f.wf && f.cls == 1 && f.typ == 3
  | .bulkNak _ f => f.wf && f.cls == 1 && f.typ == 4
  | .bulkClose _ f => f.wf && f.cls == 1 && f.typ == 5
  | .bulkData _ f => f.wf && f.cls == 3
  | .controlResponse _ f => f.wf && f.cls == 1 && Nat.ble 32 f.typ
  | .requestTimeout dst tag => Nat.blt dst 64 && Nat.blt tag 256
  | .mirrorRefresh n => Nat.blt n 16
  | .mread r => r.wf
  | .lread r => r.wf
  | .hostWrite r => r.wf
  | .hostModify r => r.wf
  | .result r => r.wf
  | .rread r => r.wf
  | .hstat r => r.wf
  | .bwrite r => r.wf
  | .hostUnknownCmd r => r.wf
  | .satTransaction v => F.SAT_XCTL.GO.read v == 1
  | .searchPassEnd _ cells => Nat.ble cells.length 64
  | .tmrWrite n _ => Nat.blt n 4
  | .tmrExpiry n => Nat.blt n 4
  | .grdNote _ f => f.wf && f.cls == 0 && f.typ == 16
  | .lstat r => r.wf
  | .ferase r => r.wf
  | .fwrite r => r.wf
  | .fread r => r.wf
  | .reboot r => r.wf
  | .guardFilterTrip ms => ms.all fun m => m.c.wf
  | .guardTick ms => ms.all fun m => m.c.wf
  | .grdFltClear _ ms => ms.all fun m => m.c.wf
  | .siDebounce k _ _ => Nat.blt k 4
  | .discFault k => Nat.blt k 4
  | .standbyCheckEnd ms => ms.all fun m => m.c.wf
  | .celEnable v => F.STO_CEL_CTRL.EN.read v == 1
  | .celDisable v => F.STO_CEL_CTRL.EN.read v == 0
  | .ringCfgWrite n _ => Nat.blt n 16
  | .ringRdWrite n _ => Nat.blt n 16
  | .crcCfg u _ => Nat.blt u 4
  | .crcInit u _ => Nat.blt u 4
  | .crcData u _ => Nat.blt u 4
  | .crcDatab u _ => Nat.blt u 4
  | .crcStateWrite u _ => Nat.blt u 4
  | .reqRun v _ => F.PTR_REQ.TARGET.read v == 4
  | .reqRecover v => F.PTR_REQ.TARGET.read v == 5
  | .reqHalt v => F.PTR_REQ.TARGET.read v == 7
  | .domainOn d => [2, 3, 7, 8, 9].contains d
  | .domainOff d => [2, 3, 7, 8, 9].contains d
  | .otpProgram _ v _ => F.TRU_PRG_CTRL.GO.read v == 1 && F.TRU_PRG_CTRL.FUSE.read v == 0
  | .fuseBlow _ v _ => F.TRU_PRG_CTRL.GO.read v == 1 && F.TRU_PRG_CTRL.FUSE.read v == 1
  | .testKeyArm v _ => F.TRU_TEST_KEY.KEY.read v == 0x7E57
  | .testKeyUnlock v _ => F.TRU_TEST_KEY.KEY.read v == 0xA11C
  | .reqBadTarget v => !([4, 5, 7].contains (F.PTR_REQ.TARGET.read v))
  | .sampleTrigger _ | .arrayDisable | .measTrigWrite _ | .refEnable | .refDisable | .refSettled | .chEnWrite _
  | .calStart | .calAccept | .calOffsetPhaseEnd | .hkCal | .hkCalDone _ _ | .trvCtrlWrite _ | .trvStepBoundary
  | .trvTakeoverCheck | .trvCalEnd _ _ | .trvHandbackCheck | .trvOffsetCheckEnd _ | .convFailClear _
  | .parkReleaseStart | .hkRoundStart | .hkDisable | .owSinksOn | .owSinksOff | .owPassEnd | .snap
  | .setWrite _ | .sdpCfgWrite _ | .sdpChEnWrite _ | .impCtrlWrite _ | .fundamentalBoundary _ | .fbCtrlWrite _
  | .fbSwitch | .fbResultWrite _ _ _ | .phcRestart | .startCheck _ | .hiccupEnd | .throwsClear
  | .outputCollapse | .inputLow | .inputRecover | .busOv | .busOvRelease | .slotStart _ | .slotEnd
  | .balCtrlWrite _ | .rorRelease | .lostClr | .tcTrim _ | .thermalShutdownComplete | .thermalRecovery
  | .porterHardLimit | .portEnable _ | .portDisable _ | .silenceEnd _ | .wakeToneEnd _ | .peerDetected _
  | .trainingBlock _ _ _ | .trainTimeout _ | .alignTimeout _ | .helloTimer _ | .wakeToneHeard _ | .idleSend _
  | .frameTransmit _ | .retryTimer _ | .lockLoss _ | .frameTimeout _ | .discardLimit _ | .srch
  | .netStepTimeout | .sched | .baseApply _ | .rttTimer | .epochSend _ | .epoch _ _ | .epochTimeout | .hcsAbort
  | .satTransactionEnd _ | .spuEnd | .pollRound _ | .podReadEnd _ | .satSrch | .satAsrch | .satShort
  | .shortRetry _ | .satDisable | .podFree _ | .add _ _ _ _ | .sub _ _ _ _ | .and _ _ _ _ | .or _ _ _ _
  | .xor _ _ _ _ | .shl _ _ _ _ | .shr _ _ _ _ | .sar _ _ _ _ | .mul _ _ _ _ | .mulh _ _ _ _ | .mulhu _ _ _ _
  | .div _ _ _ _ | .divu _ _ _ _ | .min _ _ _ _ | .max _ _ _ _ | .addi _ _ _ _ | .andi _ _ _ _ | .ori _ _ _ _
  | .xori _ _ _ _ | .shli _ _ _ _ | .shri _ _ _ _ | .sari _ _ _ _ | .lui _ _ _ | .cmpi _ _ _ | .lw _ _ _ _
  | .sw _ _ _ _ | .lb _ _ _ _ | .sb _ _ _ _ | .lde _ _ _ _ | .ste _ _ _ _ | .xrd _ _ _ _ _ | .xwr _ _ _ _ _
  | .xmod _ _ _ _ | .bcc _ _ _ | .jal _ _ | .jr _ _ | .call _ _ | .callr _ _ | .ret _ | .wfe _ _ _ | .wfeWake
  | .sev _ _ _ | .wds _ _ | .illegalInstruction _ | .inkStop _ | .inkResume _ | .inkRestart _ | .swset _
  | .startEntry | .pllLock _ | .copyJudged _ | .flashDone _ | .gclkCheck _ | .sutPass
  | .readbackMismatch _ _ | .loopLost | .loopOk | .wdWindowOpen _ | .wdLate | .wdResponse | .grdUnlk _
  | .grdCommit _ | .standbyCheck | .celReady | .celRefresh | .ledgerWriteStart
  | .ledgerWriteDone _ | .sectorEraseDone | .ldgRdRead _ | .rcvClear _ | .haltLedgerDrained
  | .selftestItemEnd _ _ _ | .domRequest _ | .supplyLimit | .vstkUndervoltage | .vstkRecoverWake | .powerOn
  | .powerLoss | .wakeAccept _ | .vstkWindowCheck _ | .stbyTimeout | .nrst | .nrstRelease | .nrstStuck
  | .timelRead _ | .otpDataRead _ | .prgDone _ | .testSel _ | .testKeyTimeout | .tstFall | .timeLoad
  | .vdd5SourceChange _ | .readbackAgree _ | .backgroundScrub _ | .frameDiscarded _ _ => true

end Sys2Proof
end

