-- ==== Sys2Proof/Tests/Slice0.lean ====
section
/-! SUPPORT. The model's own tests: ill-formed commands, instruction words, worked values of the spec, single steps, and for
each statement with hypotheses states and operands that meet them (`test_w_…`, one witness per clause). -/

namespace Sys2Proof.Machine

/-- The machine in RUN with every domain on and TIME valid. -/
def s0 : State := ({ State.reset with ptr := { State.reset.ptr with dev := .run, dom := 0x3FF } } : State).raise F.PTR_STAT.TVALID

/-- It in another device state. -/
def State.inState (s : State) (d : DevState) : State := { s with ptr := { s.ptr with dev := d } }

/-- It with the Innkeeper executing. -/
def ink0 : State := s0.onInk fun k => { k with state := .running }

/-- A register of the Innkeeper set. -/
def State.putG (s : State) (i : Nat) (v : Word) : State := s.onInk fun k => { k with g := k.g.set! i v }

/-- The first trigger of the free-running grid. -/
def State.ofTrig (s : State) : Time := BitVec.ofNat 64 (s.get F.MEAS_TRIG.PHASE)

/-- Nothing left to follow from what came before. -/
def State.atRest (s : State) : State :=
  { s with grd := { s.grd with okWas := s.grdOk, gstWas := s.gst, noteWaits := false, floWas := s.floToggles } }

theorem State.atRest_rested {s : State} (h : s.ink.out = []) : s.atRest.rested := by
  refine ⟨bcastSettle_of_nil ?_, ?_⟩
  · show List.filter _ s.ink.out = []
    rw [h]; rfl
  · refine (grdSettle_self_iff _).mpr ⟨?_, by simp [State.noteGoes, State.atRest]⟩
    show (s.floToggles == s.floToggles && s.grdOk == s.grdOk && s.gst == s.gst) = true
    simp

/-- The smallest image: a header whose one section is the one word of PROG, and its CRC-32. -/
def tinyImage : List Word :=
  [0x4F4E414B, 0x01000000, 104, 0, 0, 0, 0, 0, 0, 0, 80, 4, 0, 0, 0, 0, 0, 0, 0, 0, 0, 0x20953045]

/-- A frame, in order at the first SEQ. -/
def fr (cls typ src dst len : Nat) (pl : List Word) : Frame :=
  { cls, typ, src, dst, gen := 0, gst := 0, seq := 0, len, strm := 0, time := 0, crd := [], ack := 0, payload := pl,
    crcOk := true, formOk := true }

/-- A request of the host without authentication. -/
def hr (cmd count addr : Nat) (data : List Word) : HostReq :=
  { cmd, flags := 0, count, addr, data, counter := 0, tag := [], crcOk := true, whole := true }

/-- What the satellite bus shows. -/
def so (present attn : Bool) (reply : List Byte) : SatObs := { present, attn, reply }

/-- A filter run from TIME 0 whose newest sample is one trigger past the span of the output at 65,625. -/
def run0 : Run :=
  ⟨0, 0, [⟨128700, 1, 24, false, false, false, false, false⟩]⟩

/-- A port in the state UP, and both. -/
def State.upAt (s : State) (p : Port) : State := s.put (F.CHN_P_STAT.STATE p.idx) 4
def up0 : State := (s0.upAt .north).upAt .south

/-- This device at slot 0 and position 0 of a chain of four. -/
def mem0 : State :=
  (((up0.put F.CHN_NET_STAT.SLOTV 1).put F.CHN_NET_STAT.D 4).setReg (A.CHN_POS 0) 0x03020100).put F.CHN_NET_STAT.SLOT 0

/-- It as the head, with slots 1 to 3 assigned. -/
def head0 : State := (mem0.setReg A.CHN_ASGL 0xF).onNet fun n => { n with headNow := true }

/-- The loader mode. -/
def load0 : State := s0.raise F.STO_BOOT_STAT.LOADER

/-- The phase controller in a state, one phase enabled and its setup not refused. -/
def phc0 (st : Nat) : State :=
  (((((s0.put F.PHC_CTRL.PH_EN 3).put F.PHC_RSENSE.RS 1).put F.PHC_SLOPE.LIND 1).put F.PHC_OLIM.IOL 1).put
    F.PHC_CTRL.EN 1).put F.PHC_STAT.STATE st

/-- The satellite bus enabled. -/
def sat0 : State := s0.put F.SAT_CTRL.EN 1

/-- Only some domains on. -/
def State.domOnly (s : State) (d : BitVec 10) : State := { s with ptr := { s.ptr with dom := d } }

/-- The Guard judging every cell, channel, current and pair 3, whose channels disagree. -/
def grd0 : State :=
  (((((s0.put F.GRD_STAT.BLK 1).setReg (A.GRD_P 2) 0xFFFFFF).setReg (A.GRD_P 4) 0xF).setReg (A.GRD_P 7) 0x1000000).setReg
    (A.GRD_P 11) 0x80000000).setReg A.GRD_SI 0x40

/-- The enabling conditions of the Guard all there. -/
def ok0 : State :=
  (((((((s0.put F.GRD_STAT.BLK 1).setReg (A.GRD_P 8) 0).setReg (A.GRD_P 9) 0).setReg (A.GRD_P 10) 0).setReg (A.GRD_P 11) 0).put
    F.GRD_STAT.COMMIT 1).raise F.GRD_STAT.SUT_DONE).raise F.GRD_STAT.FLI_OK |>.raise F.GRD_STAT.WD_ARMED

/-- The watchdog running in a state. -/
def wd0 (st : Nat) (rs : List (BitVec 16)) : State :=
  ((s0.onBoot fun b => { b with step := .done }).put F.GRD_WD.STATE st).onGrd fun g => { g with resp := rs, window := true, wdOn := true }

/-! ### Ill-formed commands are refused by the check -/

/-- One ill-formed frame per check of `Frame.wf`, each the well-formed one with one field out of its range. -/
theorem test_frame_wf : Frame.wf { fr 0 0 0 1 4 [0] with crd := [0, 0, 0, 0] } = true ∧
    (let f := { fr 0 0 0 1 4 [0] with crd := [0, 0, 0, 0] }
     [{ f with cls := 4 }, { f with typ := 64 }, { f with src := 128 }, { f with dst := 128 }, { f with gen := 16 },
      { f with gst := 16 }, { f with seq := 256 }, { f with len := 512, payload := List.replicate 128 0 },
      { f with strm := 32 }, { f with time := 4294967296 }, { f with crd := [0, 0, 0] },
      { f with crd := [0, 0, 0, 16] }, { f with ack := 256 }, { f with payload := [] }].all fun g => !g.wf) = true := by
  decide

/-- One ill-formed host request per check of `HostReq.wf`. -/
theorem test_host_wf : (hr 1 1 0 []).wf = true ∧
    (let r := hr 1 1 0 []
     [{ r with cmd := 256 }, { r with flags := 256 }, { r with count := 65536 }, { r with addr := 4294967296 },
      { r with counter := 4294967296 }, { r with tag := List.replicate 9 0 }].all fun q => !q.wf) = true := by decide

/-- One ill-formed command per index or range check of `Instr.wf`. -/
theorem test_instr_wf_index :
    (([.registerWrite .host 0x4000 0, .conversionEnd 25 0 .ok, .conversionEnd 0 4096 .ok, .calGainPhaseEnd [] (List.replicate 27 0),
      .calGainPhaseEnd (List.replicate 27 0) [], .hkEntryEnd 65536, .resRead .host 25, .scfgWrite 24 0, .smaskWrite 24 0,
      .toneWrite 6 0, .twinWrite 6 0, .ctxCfgWrite 160 0, .impResultWrite 160 false false ⟨false, .clean, .clean⟩, .impBlockTimeout 24,
      .switchingCycle { (default : PhcObs) with x := 6 }, .trimSat 6, .scOverride 6, .senseLoss 6, .openPhase 6,
      .switchOvercurrent 24, .thmEvaluate [], .eqAdapt .north 16, .requestTimeout 64 0, .requestTimeout 0 256,
      .mirrorRefresh 16, .tmrWrite 4 0, .tmrExpiry 4, .guardFilterTrip [⟨.ov 24, 0, 0⟩], .guardTick [⟨.uv 24, 0, 0⟩],
      .grdFltClear 0 [⟨.th 4, 0, 0⟩], .standbyCheckEnd [⟨.th 4, 0, 0⟩], .siDebounce 4 true ⟨true, 0⟩, .discFault 4, .ringCfgWrite 16 0,
      .ringRdWrite 16 0, .crcCfg 4 0, .crcInit 4 0, .crcData 4 0, .crcDatab 4 0, .crcStateWrite 4 0, .domainOn 1, .domainOff 6,
      .searchPassEnd (so true false []) (List.replicate 65 0)] : List Instr).all fun i => !i.wf) = true := by decide

/-- One ill-formed command per check of `Instr.wf` that a written word is one of its row. -/
theorem test_instr_wf_word :
    (([.hkInject 0, .owStart 0, .accSnap 0, .phcEnable 0, .phcDisable (F.PHC_CTRL.EN.write 0 1), .satTransaction 0, .celEnable 0,
      .celDisable (F.STO_CEL_CTRL.EN.write 0 1), .reqRun 0 false, .reqRecover 0, .reqHalt 0,
      .reqBadTarget (F.PTR_REQ.TARGET.write 0 4), .otpProgram .ink 0 true,
      .otpProgram .ink (F.TRU_PRG_CTRL.FUSE.write (F.TRU_PRG_CTRL.GO.write 0 1) 1) true, .fuseBlow .ink 0 true,
      .fuseBlow .ink (F.TRU_PRG_CTRL.GO.write 0 1) true, .testKeyArm 0 true, .testKeyUnlock 0 ⟨true, 7⟩] : List Instr).all fun i => !i.wf) = true := by decide

/-- One ill-formed command per check of `Instr.wf` that a frame or a request is one of its row. -/
theorem test_instr_wf_frame :
    (let f := { fr 0 6 0 1 4 [0] with crd := [0, 0, 0, 0] }
     let r := { hr 1 1 0 [] with cmd := 256 }
     ([.lnkHello .north f, .lnkIdle .north f, .streamFrame .north f, .netSearch .north f, .netAssign .north f,
      .netRoute .north f, .netLink .north f, .lnkRttRequest .north f 0, .lnkRttRequest .north { f with typ := 2 } 256,
      .lnkRttResponse .north f 0, .read .north f, .write .north f, .modify .north f, .bulkOpen .north f, .bulkNak .north f,
      .bulkClose .north f, .bulkData .north f, .controlResponse .north { f with cls := 1 }, .grdNote .north f, .mread r,
      .lread r, .hostWrite r, .hostModify r, .result r, .rread r, .hstat r, .bwrite r, .hostUnknownCmd r, .lstat r, .ferase r,
      .fwrite r, .fread r, .reboot r] : List Instr).all fun i => !i.wf) = true := by decide

/-! ### Instruction words of the Innkeeper, written out from the tables of R296 and R297 -/

/-- Format R: OP 0x00, RD 12, RA 10, RB 11, FN 0x08. -/
theorem test_word_mul : inkDecode .ok 0x032AC008 = .mul .ok 12 10 11 := by decide
/-- Format R with a 1 where a 0 must stand. -/
theorem test_word_r_zero : inkDecode .ok 0x032AC048 = .illegalInstruction .ok := by decide
/-- Format I: OP 0x03, RD 1, RA 0, IMM 0x10004. -/
theorem test_word_ori : inkDecode .ok 0x0C410004 = .ori .ok 1 0 0x10004 := by decide
/-- Format I, a shift: OP 0x07, RD 1, RA 2, IMM 31; and IMM 32, which is illegal. -/
theorem test_word_sari : inkDecode .ok 0x1C48001F = .sari .ok 1 2 31 ∧
    inkDecode .ok 0x1C480020 = .illegalInstruction .ok := by decide
/-- Format X: OP 0x18, RD 3, RA 1, RB 2, CNT 63. -/
theorem test_word_xrd : inkDecode .ok 0x60C4BF00 = .xrd .ok 3 1 2 63 := by decide
/-- Format B: OP 0x20, COND 1, OFF -1; and a 1 in bits 21:18, which is illegal. -/
theorem test_word_bcc : inkDecode .ok 0x8043FFFF = .bcc .ok 1 0x3FFFF ∧
    inkDecode .ok 0x80440000 = .illegalInstruction .ok := by decide
/-- Format J: OP 0x21, OFF -2. -/
theorem test_word_jal : inkDecode .ok 0x87FFFFFE = .jal .ok 0x3FFFFFE := by decide
/-- Format N: OP 0x28, RD 2, RA 1. -/
theorem test_word_wfe : inkDecode .ok 0xA0840000 = .wfe .ok 2 1 := by decide
/-- Format N: OP 0x2A, RA 12; and RD 1, which is illegal. -/
theorem test_word_wds : inkDecode .ok 0xA8300000 = .wds .ok 12 ∧ inkDecode .ok 0xA8700000 = .illegalInstruction .ok := by
  decide
/-- An unlisted OP and an unlisted FN. -/
theorem test_word_unlisted : inkDecode .ok 0xFC000000 = .illegalInstruction .ok ∧
    inkDecode .ok 0x0000000F = .illegalInstruction .ok := by decide

/-! ### Worked values of the spec -/

/-- The check values over "123456789" of R396. -/
theorem test_crc8 : CrcKind.of .crc8 [0x31, 0x32, 0x33, 0x34, 0x35, 0x36, 0x37, 0x38, 0x39] = 0xDF := by decide +kernel
theorem test_crc16 : CrcKind.of .crc16 [0x31, 0x32, 0x33, 0x34, 0x35, 0x36, 0x37, 0x38, 0x39] = 0x29B1 := by decide +kernel
theorem test_crc32 : CrcKind.of .crc32 [0x31, 0x32, 0x33, 0x34, 0x35, 0x36, 0x37, 0x38, 0x39] = 0xCBF43926 := by
  decide +kernel
theorem test_crc32c : CrcKind.of .crc32c [0x31, 0x32, 0x33, 0x34, 0x35, 0x36, 0x37, 0x38, 0x39] = 0xE3069283 := by
  decide +kernel

/-- The watchdog's answer to the challenge 0x3A5C (the example under R357). -/
theorem test_wd_answer : wdAnswer 0x3A5C = 0x1A43 := by decide

/-- The tables of R205 and R206: two groups, a marker, a reserved pair. -/
theorem test_line_pairs : groupPair 0b000 = (.minus, .minus) ∧ groupPair 0b100 = (.zero, .plus) ∧
    pairMarker (.zero, .plus) = some .epoch ∧ pairMarker (.minus, .zero) = none ∧ pairGroup (.zero, .zero) = none := by
  decide
/-- A frame of a one-word payload is 24 bytes with header and CRC: an IDLE, then 64 groups between SOF and EOF, no pad bit (R206, R207). -/
theorem test_line_frame : padBits 20 = 2 ∧ padBits 24 = 0 ∧
    (frameLine 0 (fr 0 0 0 1 4 [0])).1.length = 67 := by decide +kernel
/-- A training block is the marker and 255 groups (R212). -/
theorem test_line_training : (trainingLine 0 true).1.length = 256 := by decide +kernel

/-- A sixth of a turn, half a turn and three quarters of it; e^−1 is 0.367879441171442321… . -/
theorem test_turns : (2 * cosTurn 1 6 - fixOne).natAbs < 2 ^ 10 ∧ (cosTurn 1 2 + fixOne).natAbs < 2 ^ 10 ∧
    (sinTurn 3 4 + fixOne).natAbs < 2 ^ 10 ∧
    (expNeg 1 1 * 10 ^ 18 - 367879441171442321 * fixOne).natAbs < 10 ^ 3 * 2 ^ 60 := by decide +kernel

/-! ### One step on a small state -/

/-- An outcome is a next state with a property. -/
def after (o : Host.Outcome State Fault Refusal) (p : State → Bool) : Bool :=
  match o with
  | .next t => p t
  | .fault _ => false
  | .refused _ => false

/-- ADD wraps, and sets C and Z alone (R298). -/
theorem test_add_wraps : after (exec (.add .ok 3 1 2) ((ink0.putG 1 0x80000000).putG 2 0x80000000)) (fun t =>
    t.g 3 == 0 && t.ink.z && t.ink.c && t.ink.v && !t.ink.n && t.ink.pc == 1) = true := by decide +kernel
/-- SUB borrows: C is 0 where ra is below rb as unsigned numbers (R298). -/
theorem test_sub_borrow : after (exec (.sub .ok 3 1 2) ((ink0.putG 1 1).putG 2 2)) (fun t =>
    t.g 3 == 0xFFFFFFFF && t.ink.n && !t.ink.c && !t.ink.v) = true := by decide +kernel
/-- SAR fills with the sign. -/
theorem test_sar_sign : after (exec (.sar .ok 3 1 2) ((ink0.putG 1 0x80000000).putG 2 31)) (fun t =>
    t.g 3 == 0xFFFFFFFF) = true := by decide +kernel
/-- Register g0 reads 0 whatever is written to it. -/
theorem test_g0_zero : after (exec (.addi .ok 0 0 5) ink0) (fun t => t.g 0 == 0) = true := by decide +kernel
set_option maxRecDepth 20000 in
/-- A request for HALT in RUN enters HALT (R15). -/
theorem test_req_halt : after (exec (.reqHalt (F.PTR_REQ.KEY.write (F.PTR_REQ.TARGET.write 0 7) 0x5E)) s0) (fun t =>
    t.ptr.dev == .halt && t.ptr.prev == .run) = true := by decide +kernel
/-- The same without the key is refused (R15). -/
theorem test_req_halt_key : after (exec (.reqHalt (F.PTR_REQ.TARGET.write 0 7)) s0) (fun t => t.ptr.dev == .run) = true := by
  decide +kernel
/-- The unlock key of the Guard alone opens the time for a commit (R362). -/
theorem test_unlock : after (exec (.grdUnlk 0xC011) s0) (fun t => t.grd.unlockedAt.isSome) = true ∧
    after (exec (.grdUnlk 0xC010) s0) (fun t => t.grd.unlockedAt.isNone) = true := by
  constructor <;> decide +kernel
/-- An unreadable window of the mailbox aside, a write of a reserved address leaves every register (R486). -/
theorem test_reserved : after (exec (.registerWrite .host 0x2FFF 1) s0) (fun t => t.regs == s0.regs) = true := by
  decide +kernel
/-- The step takes the front of the queue; on an empty queue TIME moves by one tick. -/
theorem test_step_queue : after (step { s0 with pending := [.swset 1, .srch] }) (fun t => t.pending == [.srch]) = true ∧
    after (step s0) (fun t => t.ptr.time == 1 && t.pending.isEmpty) = true := by
  constructor <;> decide +kernel
/-- The last cycle of the 10 ms after an unlock, and the first beyond them (R362). -/
theorem test_commit_window :
    (s0.onGrd fun g => { g with unlockedAt := some 7, cycles := 40007 }).unlocked = true ∧
    (s0.onGrd fun g => { g with unlockedAt := some 7, cycles := 40008 }).unlocked = false := by
  constructor <;> decide +kernel
/-- A filter trips at the sample that brings its count to N, and not one before (R345): an overcurrent at OCFILT 1 needs 2. -/
theorem test_filter : let s := grd0.setReg (A.GRD_P 7) 0x1010000
    let m : GuardSample := ⟨.oc true, 1, 0⟩
    after (exec (.guardFilterTrip [m]) s) (fun t => !t.rbit A.GRD_FLT 3 && t.filtCount (.oc true) == 1) = true ∧
    after (exec (.guardFilterTrip [m, m]) s) (fun t => t.rbit A.GRD_FLT 3 && t.rbit A.GRD_FSRC 0) = true := by
  constructor <;> decide +kernel

/-! ### States and operands that meet the hypotheses of each statement -/

/-- Meets the hypotheses of `Obligations.InkAddSub`. -/
theorem test_w_InkAddSub :
    (∃ (s : State) (e : InkEnv), s.rested ∧ s.inkGoes e) :=
  ⟨(ink0).atRest, InkEnv.ok, State.atRest_rested rfl, by unfold State.inkGoes; decide⟩

/-- Meets the hypotheses of `Obligations.InkLogic`. -/
theorem test_w_InkLogic :
    (∃ (s : State) (e : InkEnv), s.rested ∧ s.inkGoes e) :=
  ⟨(ink0).atRest, InkEnv.ok, State.atRest_rested rfl, by unfold State.inkGoes; decide⟩

/-- Meets the hypotheses of `Obligations.InkMulDiv`. -/
theorem test_w_InkMulDiv :
    (∃ (s : State) (e : InkEnv), s.rested ∧ s.inkGoes e) :=
  ⟨(ink0.putG 1 0x80000000).atRest, InkEnv.ok, State.atRest_rested rfl, by unfold State.inkGoes; decide⟩

/-- Meets the hypotheses of `Obligations.InkMemory`. -/
theorem test_w_InkMemory :
    (∃ (s : State) (e : InkEnv) (ra : BitVec 4) (imm : BitVec 18) (a : Nat), s.rested ∧ s.inkGoes e ∧ e.data ≠ Ecc.uncorrectable ∧ a = BitVec.toNat (s.g ra + BitVec.signExtend 32 imm) ∧ a ≤ 65535 ∧ ¬a / 4 ∈ s.ink.bad ∧ a % 4 = 0) ∧
    (∃ (s : State) (e : InkEnv) (ra : BitVec 4) (imm : BitVec 18) (a : Nat), s.rested ∧ s.inkGoes e ∧ e.data ≠ Ecc.uncorrectable ∧ a = BitVec.toNat (s.g ra + BitVec.signExtend 32 imm) ∧ a ≤ 65535 ∧ ¬a / 4 ∈ s.ink.bad) :=
  ⟨⟨(ink0.putG 1 0xFFFC).atRest, InkEnv.ok, 1, 0, 0xFFFC, State.atRest_rested rfl, by unfold State.inkGoes; decide, by decide, by decide, by decide, by decide, by decide⟩,
   ⟨(ink0.putG 1 0xFFFF).atRest, InkEnv.ok, 1, 0, 0xFFFF, State.atRest_rested rfl, by unfold State.inkGoes; decide, by decide, by decide, by decide, by decide⟩⟩

/-- Meets the hypotheses of `Obligations.InkEndpoints`. -/
theorem test_w_InkEndpoints :
    (∃ (s : State) (e : InkEnv) (ra : BitVec 4) (imm : BitVec 18) (a : Nat), s.rested ∧ s.inkGoes e ∧ e.fetch = Ecc.clean ∧ a = BitVec.toNat (s.g ra + BitVec.signExtend 32 imm) ∧ a ≤ 16383 ∧ isReserved a = false ∧ isMailbox a = false ∧ ¬a ∈ [A.PTR_TIMEL, A.TRU_OTP_DATA, A.STO_LDG_RD, A.INK_XCPL] ∧ (∀ (n : Nat), n < 25 → a ≠ A.SDP_RES n)) ∧
    (∃ (s : State) (e : InkEnv) (ra : BitVec 4) (imm : BitVec 18) (a : Nat), s.rested ∧ s.inkGoes e ∧ e.fetch = Ecc.clean ∧ a = BitVec.toNat (s.g ra + BitVec.signExtend 32 imm) ∧ a ≤ 16383 ∧ isReserved a = false ∧ a = A.INK_XCPL) ∧
    (∃ (s : State) (e : InkEnv) (ra : BitVec 4) (imm : BitVec 18) (a : Nat), s.rested ∧ s.inkGoes e ∧ e.fetch = Ecc.clean ∧ a = BitVec.toNat (s.g ra + BitVec.signExtend 32 imm) ∧ a ≤ 16383 ∧ isReserved a = false ∧ a = A.PTR_TIMEL) ∧
    (∃ (s : State) (e : InkEnv) (ra : BitVec 4) (imm : BitVec 18) (a : Nat), s.rested ∧ s.inkGoes e ∧ e.fetch = Ecc.clean ∧ a = BitVec.toNat (s.g ra + BitVec.signExtend 32 imm) ∧ a ≤ 16383 ∧ isReserved a = false) :=
  ⟨⟨(ink0).atRest, InkEnv.ok, 0, 1, 1, State.atRest_rested rfl, by unfold State.inkGoes; decide, by decide, by decide, by decide, by decide, by decide, by decide, by decide⟩,
   ⟨(ink0.putG 1 0x3FFF).atRest, InkEnv.ok, 1, BitVec.ofInt 18 ((A.INK_XCPL : Int) - 0x3FFF), A.INK_XCPL, State.atRest_rested rfl, by unfold State.inkGoes; decide, by decide, by decide, by decide, by decide, by decide⟩,
   ⟨(ink0).atRest, InkEnv.ok, 0, BitVec.ofNat 18 A.PTR_TIMEL, A.PTR_TIMEL, State.atRest_rested rfl, by unfold State.inkGoes; decide, by decide, by decide, by decide, by decide, by decide⟩,
   ⟨(ink0.putG 1 0x3FFF).atRest, InkEnv.ok, 1, 0, 0x3FFF, State.atRest_rested rfl, by unfold State.inkGoes; decide, by decide, by decide, by decide, by decide⟩⟩

/-- Meets the hypotheses of `Obligations.InkTransactions`. -/
theorem test_w_InkTransactions :
    (∃ (s : State) (e : InkEnv) (ra : BitVec 4) (rb : BitVec 4) (cnt : BitVec 6) (b : Nat), s.rested ∧ s.inkGoes e ∧ e.fetch = Ecc.clean ∧ e.data = Ecc.clean ∧ s.ink.bad = [] ∧ b = BitVec.toNat (s.g rb) ∧ b % 4 = 0 ∧ cnt ≠ 0 ∧ b + 4 * cnt.toNat ≤ 65536 ∧ s.xidFree.isSome = true ∧ (BitVec.extractLsb' 20 12 (s.g ra) = 0 ∧ s.bit F.CHN_NET_STAT.SLOTV = true ∧ (BitVec.extractLsb' 14 6 (s.g ra)).toNat ≠ s.get F.CHN_NET_STAT.SLOT ∧ s.pos (BitVec.extractLsb' 14 6 (s.g ra)).toNat ≠ 255 ∧ s.lost (BitVec.extractLsb' 14 6 (s.g ra)).toNat = false) ∧ b + 8 ≤ 65536) ∧
    (∃ (s : State) (e : InkEnv) (rb : BitVec 4) (cnt : BitVec 6) (b : Nat), s.rested ∧ s.inkGoes e ∧ e.fetch = Ecc.clean ∧ e.data = Ecc.clean ∧ s.ink.bad = [] ∧ b = BitVec.toNat (s.g rb) ∧ b % 4 = 0 ∧ cnt ≠ 0 ∧ s.xidFree = none ∧ b + 4 * cnt.toNat ≤ 65536 ∧ b + 8 ≤ 65536) :=
  ⟨⟨((((ink0.putG 1 (1 <<< 14)).putG 2 0xFFF8).put F.CHN_NET_STAT.SLOTV 1).setReg (A.CHN_POS 0) 0x03020100).atRest, InkEnv.ok, 1, 2, 2, 0xFFF8, State.atRest_rested rfl, by unfold State.inkGoes; decide, by decide, by decide, by decide, by decide, by decide, by decide, by decide, by decide, by decide, by decide⟩,
   ⟨(((((ink0.putG 1 (1 <<< 14)).putG 2 0xFFF8).put F.CHN_NET_STAT.SLOTV 1).setReg (A.CHN_POS 0) 0x03020100).onInk fun k => { k with cpl := (List.range 16).map fun x => ⟨x, 0, 0, 0⟩ }).atRest, InkEnv.ok, 2, 2, 0xFFF8, State.atRest_rested rfl, by unfold State.inkGoes; decide, by decide, by decide, by decide, by decide, by decide, by decide, by decide, by decide, by decide⟩⟩

/-- Meets the hypotheses of `Obligations.InkJumps`. -/
theorem test_w_InkJumps :
    (∃ (s : State) (e : InkEnv) (ra : BitVec 4) (far : BitVec 26) (q : BitVec 14) (x : BitVec 14) (xs : List (BitVec 14)), s.rested ∧ s.ink.state = InkState.running ∧ e.fetch = Ecc.clean ∧ e.check = false ∧ ↑q.toNat = ↑s.ink.pc.toNat + far.toInt ∧ BitVec.toNat (s.g ra) ≤ 16383 ∧ s.ink.stack.length < 16 ∧ s.ink.stack = x :: xs) ∧
    (∃ (s : State) (e : InkEnv) (ra : BitVec 4) (far : BitVec 26) (q : BitVec 14) (x : BitVec 14) (xs : List (BitVec 14)), s.rested ∧ s.ink.state = InkState.running ∧ e.fetch = Ecc.clean ∧ e.check = false ∧ ↑q.toNat = ↑s.ink.pc.toNat + far.toInt ∧ BitVec.toNat (s.g ra) ≤ 16383 ∧ s.ink.stack = x :: xs) :=
  ⟨⟨((ink0.putG 1 0x3FFF).onInk fun k => { k with pc := 0x3FFE, stack := List.replicate 15 7 }).atRest, InkEnv.ok, 1, 1, 0x3FFF, 7, List.replicate 14 7, State.atRest_rested rfl, by decide, by decide, by decide, by decide, by decide, by decide, by decide⟩,
   ⟨((ink0.putG 1 0).onInk fun k => { k with pc := 0, stack := [0x3FFF] }).atRest, InkEnv.ok, 1, 0, 0, 0x3FFF, [], State.atRest_rested rfl, by decide, by decide, by decide, by decide, by decide, by decide⟩⟩

/-- Meets the hypotheses of `Obligations.InkBranches`. -/
theorem test_w_InkBranches :
    (∃ (s : State) (e : InkEnv) (off : BitVec 18) (p : BitVec 14) (x : BitVec 4 × Bool), s.rested ∧ s.inkGoes e ∧ e.fetch = Ecc.clean ∧ ↑p.toNat = ↑s.ink.pc.toNat + off.toInt ∧ x ∈ [(0, s.ink.z), (1, !s.ink.z), (2, s.ink.c), (3, !s.ink.c), (4, s.ink.n), (5, !s.ink.n), (6, s.ink.v), (7, !s.ink.v), (8, s.ink.c && !s.ink.z), (9, !s.ink.c || s.ink.z), (10, s.ink.n == s.ink.v), (11, s.ink.n != s.ink.v), (12, !s.ink.z && s.ink.n == s.ink.v), (13, s.ink.z || s.ink.n != s.ink.v), (14, true)]) ∧
    (∃ (s : State) (e : InkEnv) (off : BitVec 18) (p : BitVec 14) (x : BitVec 4 × Bool), s.rested ∧ s.inkGoes e ∧ e.fetch = Ecc.clean ∧ ↑p.toNat = ↑s.ink.pc.toNat + off.toInt ∧ x ∈ [(0, s.ink.z), (1, !s.ink.z), (2, s.ink.c), (3, !s.ink.c), (4, s.ink.n), (5, !s.ink.n), (6, s.ink.v), (7, !s.ink.v), (8, s.ink.c && !s.ink.z), (9, !s.ink.c || s.ink.z), (10, s.ink.n == s.ink.v), (11, s.ink.n != s.ink.v), (12, !s.ink.z && s.ink.n == s.ink.v), (13, s.ink.z || s.ink.n != s.ink.v), (14, true)]) :=
  ⟨⟨(ink0.onInk fun k => { k with pc := 16 }).atRest, InkEnv.ok, -1, 15, (14, true), State.atRest_rested rfl, by unfold State.inkGoes; decide, by decide, by decide, by decide⟩,
   ⟨(ink0.onInk fun k => { k with pc := 16 }).atRest, InkEnv.ok, 0, 16, (1, true), State.atRest_rested rfl, by unfold State.inkGoes; decide, by decide, by decide, by decide⟩⟩

/-- Meets the hypotheses of `Obligations.InkEvents`. -/
theorem test_w_InkEvents :
    (∃ (s : State) (e : InkEnv) (ra : BitVec 4), s.rested ∧ s.inkGoes e ∧ e.fetch = Ecc.clean ∧ (s.g ra = 0 ∨ s.epend &&& s.g ra ≠ 0) ∧ s.on 6 = true) ∧
    (∃ (s : State) (e : InkEnv) (ra : BitVec 4), s.rested ∧ s.inkGoes e ∧ e.fetch = Ecc.clean ∧ (s.g ra = 0 ∨ s.epend &&& s.g ra ≠ 0)) ∧
    (∃ (s : State) (e : InkEnv) (ra : BitVec 4), s.rested ∧ s.inkGoes e ∧ e.fetch = Ecc.clean ∧ s.g ra ≠ 0 ∧ s.epend &&& s.g ra = 0) ∧
    (∃ (s : State) (rd : BitVec 4) (m : Word), s.rested ∧ s.ink.state = InkState.waiting ∧ s.ink.wfe = some (rd, m) ∧ s.epend &&& m ≠ 0) :=
  ⟨⟨(ink0.raise F.INK_WDC.FRESH).atRest, InkEnv.ok, 2, State.atRest_rested rfl, by unfold State.inkGoes; decide, by decide, by decide, by decide⟩,
   ⟨((ink0.raise F.INK_WDC.FRESH).putG 2 4).atRest, InkEnv.ok, 2, State.atRest_rested rfl, by unfold State.inkGoes; decide, by decide, by decide⟩,
   ⟨(ink0.putG 2 4).atRest, InkEnv.ok, 2, State.atRest_rested rfl, by unfold State.inkGoes; decide, by decide, by decide, by decide⟩,
   ⟨((ink0.raise F.INK_WDC.FRESH).onInk fun k => { k with state := .waiting, wfe := some (1, 4) }).atRest, 1, 4, State.atRest_rested rfl, by decide, by decide, by decide⟩⟩

/-- Meets the hypotheses of `Obligations.InkControl`. -/
theorem test_w_InkControl :
    (∃ (s : State) (p : Path), s.rested ∧ s.on 5 = true ∧ s.inkBarred p = false ∧ s.inkRuns = true) ∧
    (∃ (s : State) (p : Path), s.rested ∧ s.on 5 = true ∧ s.inkBarred p = false ∧ s.ink.state = InkState.stopped ∧ s.inDev [DevState.start, DevState.run, DevState.recover] = true ∧ (s.ink.state = InkState.stopped ∨ s.ink.state = InkState.halted)) ∧
    (∃ (s : State) (p : Path), s.rested ∧ s.on 5 = true ∧ s.inkBarred p = false ∧ (s.ink.state = InkState.stopped ∨ s.ink.state = InkState.halted) ∧ s.inDev [DevState.start, DevState.run, DevState.recover] = true) :=
  ⟨⟨(ink0).atRest, .ink, State.atRest_rested rfl, by decide, by decide, by decide⟩,
   ⟨(s0.onInk fun k => { k with state := .stopped }).atRest, .chain, State.atRest_rested rfl, by decide, by decide, by decide, by decide, by decide⟩,
   ⟨(s0.onInk fun k => { k with state := .halted }).atRest, .host, State.atRest_rested rfl, by decide, by decide, by decide, by decide⟩⟩

/-- Meets the hypotheses of `Obligations.InkTimers`. -/
theorem test_w_InkTimers :
    (∃ (s : State) (n : Nat), s.rested ∧ s.on 5 = true ∧ n < 4 ∧ s.bit (F.INK_TMR.EN n) = true) :=
  ⟨(s0.put (F.INK_TMR.EN 3) 1).atRest, 3, State.atRest_rested rfl, by decide, by decide, by decide⟩

/-- Meets the hypotheses of `Obligations.InkFaults`. -/
theorem test_w_InkFaults :
    (∃ (s : State), s.ink.state = InkState.running ∧ (s.ptr.dev = DevState.start ∨ s.ptr.dev = DevState.run ∨ s.ptr.dev = DevState.recover)) ∧
    (∃ (s : State), s.ink.state = InkState.running ∧ (s.ptr.dev = DevState.start ∨ s.ptr.dev = DevState.run ∨ s.ptr.dev = DevState.recover)) ∧
    (∃ (s : State) (e : InkEnv), s.ink.state = InkState.running ∧ (s.ptr.dev = DevState.start ∨ s.ptr.dev = DevState.run ∨ s.ptr.dev = DevState.recover) ∧ e.fetch = Ecc.uncorrectable) ∧
    (∃ (s : State) (e : InkEnv), s.ink.state = InkState.running ∧ (s.ptr.dev = DevState.start ∨ s.ptr.dev = DevState.run ∨ s.ptr.dev = DevState.recover) ∧ e.fetch ≠ Ecc.uncorrectable ∧ s.ink.pc = 16383) ∧
    (∃ (s : State) (e : InkEnv), s.ink.state = InkState.running ∧ (s.ptr.dev = DevState.start ∨ s.ptr.dev = DevState.run ∨ s.ptr.dev = DevState.recover) ∧ (e.fetch ≠ Ecc.uncorrectable ∧ s.ink.pc ≠ 16383) ∧ e.check = true) ∧
    (∃ (s : State) (e : InkEnv) (ra : BitVec 4) (imm : BitVec 18), s.ink.state = InkState.running ∧ (s.ptr.dev = DevState.start ∨ s.ptr.dev = DevState.run ∨ s.ptr.dev = DevState.recover) ∧ (e.fetch ≠ Ecc.uncorrectable ∧ s.ink.pc ≠ 16383) ∧ e.check = false ∧ (BitVec.toNat (s.g ra + BitVec.signExtend 32 imm) % 4 ≠ 0 ∨ 65535 < BitVec.toNat (s.g ra + BitVec.signExtend 32 imm))) ∧
    (∃ (s : State) (e : InkEnv) (ra : BitVec 4) (imm : BitVec 18), s.ink.state = InkState.running ∧ (s.ptr.dev = DevState.start ∨ s.ptr.dev = DevState.run ∨ s.ptr.dev = DevState.recover) ∧ (e.fetch ≠ Ecc.uncorrectable ∧ s.ink.pc ≠ 16383) ∧ e.check = false ∧ (BitVec.toNat (s.g ra + BitVec.signExtend 32 imm) % 4 ≠ 0 ∨ 65535 < BitVec.toNat (s.g ra + BitVec.signExtend 32 imm)) ∧ 65535 < BitVec.toNat (s.g ra + BitVec.signExtend 32 imm)) ∧
    (∃ (s : State) (e : InkEnv) (ra : BitVec 4) (imm : BitVec 18), s.ink.state = InkState.running ∧ (s.ptr.dev = DevState.start ∨ s.ptr.dev = DevState.run ∨ s.ptr.dev = DevState.recover) ∧ (e.fetch ≠ Ecc.uncorrectable ∧ s.ink.pc ≠ 16383) ∧ e.check = false ∧ BitVec.toNat (s.g ra + BitVec.signExtend 32 imm) % 4 = 0 ∧ BitVec.toNat (s.g ra + BitVec.signExtend 32 imm) ≤ 65535 ∧ (e.data = Ecc.uncorrectable ∨ BitVec.toNat (s.g ra + BitVec.signExtend 32 imm) / 4 ∈ s.ink.bad)) ∧
    (∃ (s : State) (e : InkEnv) (ra : BitVec 4) (imm : BitVec 18), s.ink.state = InkState.running ∧ (s.ptr.dev = DevState.start ∨ s.ptr.dev = DevState.run ∨ s.ptr.dev = DevState.recover) ∧ (e.fetch ≠ Ecc.uncorrectable ∧ s.ink.pc ≠ 16383) ∧ e.check = false ∧ BitVec.toNat (s.g ra + BitVec.signExtend 32 imm) % 4 = 0 ∧ BitVec.toNat (s.g ra + BitVec.signExtend 32 imm) ≤ 65535 ∧ (e.data = Ecc.uncorrectable ∨ BitVec.toNat (s.g ra + BitVec.signExtend 32 imm) / 4 ∈ s.ink.bad)) ∧
    (∃ (s : State) (e : InkEnv) (ra : BitVec 4) (imm : BitVec 18), s.ink.state = InkState.running ∧ (s.ptr.dev = DevState.start ∨ s.ptr.dev = DevState.run ∨ s.ptr.dev = DevState.recover) ∧ (e.fetch ≠ Ecc.uncorrectable ∧ s.ink.pc ≠ 16383) ∧ e.check = false ∧ (16383 < BitVec.toNat (s.g ra + BitVec.signExtend 32 imm) ∨ isReserved (BitVec.toNat (s.g ra + BitVec.signExtend 32 imm)) = true)) ∧
    (∃ (s : State) (e : InkEnv) (ra : BitVec 4) (imm : BitVec 18), s.ink.state = InkState.running ∧ (s.ptr.dev = DevState.start ∨ s.ptr.dev = DevState.run ∨ s.ptr.dev = DevState.recover) ∧ (e.fetch ≠ Ecc.uncorrectable ∧ s.ink.pc ≠ 16383) ∧ e.check = false ∧ (16383 < BitVec.toNat (s.g ra + BitVec.signExtend 32 imm) ∨ isReserved (BitVec.toNat (s.g ra + BitVec.signExtend 32 imm)) = true)) ∧
    (∃ (s : State) (e : InkEnv) (off : BitVec 26), s.ink.state = InkState.running ∧ (s.ptr.dev = DevState.start ∨ s.ptr.dev = DevState.run ∨ s.ptr.dev = DevState.recover) ∧ e.fetch ≠ Ecc.uncorrectable ∧ (↑s.ink.pc.toNat + off.toInt < 0 ∨ 16383 < ↑s.ink.pc.toNat + off.toInt)) ∧
    (∃ (s : State) (e : InkEnv) (off : BitVec 26), s.ink.state = InkState.running ∧ (s.ptr.dev = DevState.start ∨ s.ptr.dev = DevState.run ∨ s.ptr.dev = DevState.recover) ∧ e.fetch ≠ Ecc.uncorrectable ∧ (↑s.ink.pc.toNat + off.toInt < 0 ∨ 16383 < ↑s.ink.pc.toNat + off.toInt) ∧ s.ink.stack.length < 16) ∧
    (∃ (s : State) (e : InkEnv) (ra : BitVec 4), s.ink.state = InkState.running ∧ (s.ptr.dev = DevState.start ∨ s.ptr.dev = DevState.run ∨ s.ptr.dev = DevState.recover) ∧ e.fetch ≠ Ecc.uncorrectable ∧ 16383 < BitVec.toNat (s.g ra) ∧ s.ink.stack.length < 16) ∧
    (∃ (s : State) (e : InkEnv), s.ink.state = InkState.running ∧ (s.ptr.dev = DevState.start ∨ s.ptr.dev = DevState.run ∨ s.ptr.dev = DevState.recover) ∧ e.fetch ≠ Ecc.uncorrectable ∧ 16 ≤ s.ink.stack.length) ∧
    (∃ (s : State) (e : InkEnv), s.ink.state = InkState.running ∧ (s.ptr.dev = DevState.start ∨ s.ptr.dev = DevState.run ∨ s.ptr.dev = DevState.recover) ∧ e.fetch ≠ Ecc.uncorrectable ∧ e.check = false ∧ s.ink.stack = []) :=
  ⟨⟨(ink0.inState .start).atRest, by decide, by decide⟩,
   ⟨(ink0.inState .recover).atRest, by decide, by decide⟩,
   ⟨(ink0).atRest, ⟨.uncorrectable, false, .clean⟩, by decide, by decide, by decide⟩,
   ⟨(ink0.onInk fun k => { k with pc := 0x3FFF, stack := [] }).atRest, InkEnv.ok, by decide, by decide, by decide, by decide⟩,
   ⟨(ink0.onInk fun k => { k with pc := 0x3FFE, stack := [] }).atRest, ⟨.clean, true, .clean⟩, by decide, by decide, by decide, by decide⟩,
   ⟨(ink0.putG 2 0xFFFE).atRest, InkEnv.ok, 2, 0, by decide, by decide, by decide, by decide, by decide⟩,
   ⟨(ink0.putG 2 0x10000).atRest, InkEnv.ok, 2, 0, by decide, by decide, by decide, by decide, by decide, by decide⟩,
   ⟨(ink0.putG 2 0xFFFC).atRest, ⟨.corrected, false, .uncorrectable⟩, 2, 0, by decide, by decide, by decide, by decide, by decide, by decide, by decide⟩,
   ⟨((ink0.putG 2 0xFFFC).onInk fun k => { k with bad := [0x3FFF] }).atRest, InkEnv.ok, 2, 0, by decide, by decide, by decide, by decide, by decide, by decide, by decide⟩,
   ⟨(ink0.putG 2 0x4000).atRest, InkEnv.ok, 2, 0, by decide, by decide, by decide, by decide, by decide⟩,
   ⟨(ink0.putG 2 0x2FFF).atRest, InkEnv.ok, 2, 0, by decide, by decide, by decide, by decide, by decide⟩,
   ⟨(ink0.onInk fun k => { k with pc := 0, stack := [] }).atRest, InkEnv.ok, -1, by decide, by decide, by decide, by decide⟩,
   ⟨(ink0.onInk fun k => { k with pc := 0x3FFF, stack := List.replicate 15 0 }).atRest, InkEnv.ok, 1, by decide, by decide, by decide, by decide, by decide⟩,
   ⟨(ink0.putG 1 0x4000).atRest, InkEnv.ok, 1, by decide, by decide, by decide, by decide, by decide⟩,
   ⟨(ink0.onInk fun k => { k with pc := 0, stack := List.replicate 16 0 }).atRest, InkEnv.ok, by decide, by decide, by decide, by decide⟩,
   ⟨(ink0).atRest, InkEnv.ok, by decide, by decide, by decide, by decide, by decide⟩⟩

/-- Meets the hypotheses of `Obligations.ArrayWrites`. -/
theorem test_w_ArrayWrites :
    (∃ (s : State), s.rested ∧ s.on 5 = true ∧ s.trv.k < 24 ∧ s.meas.snapArmed = false) :=
  ⟨(s0.onTrv fun t => { t with k := 23 }).atRest, State.atRest_rested rfl, by decide, by decide, by decide⟩

/-- Meets the hypotheses of `Obligations.ArrayTiming`. -/
theorem test_w_ArrayTiming :
    (∃ (s : State), s.rested ∧ s.on 5 = true ∧ s.bit F.MEAS_REF.EN = false) ∧
    (∃ (s : State), s.rested ∧ s.on 5 = true ∧ s.bit F.MEAS_REF.EN = true) ∧
    (∃ (s : State), s.rested ∧ s.meas.settling = true) ∧
    (∃ (s : State) (t0 : Time), s.rested ∧ s.bit F.MEAS_CTRL.ARRAY_EN = true ∧ s.isTrigger t0 = true ∧ s.timeMay t0 = true ∧ (∀ (l : Time), s.meas.lastTrig = some l → BitVec.toNat l < BitVec.toNat t0 ∨ BitVec.toNat s.ptr.time < BitVec.toNat l) ∧ (s.trv.step ≠ TrvStep.takeover ∨ s.trv.released = false)) ∧
    (∃ (s : State) (t0 : Time), s.rested ∧ s.isTrigger t0 = false) ∧
    (∃ (s : State) (conv : Nat), s.rested ∧ s.meas.conv.getD (convSlot conv) none = none) ∧
    (∃ (s : State) (conv : Nat) (tag : RawTag), s.rested ∧ convSlot conv < 26 ∧ s.meas.conv.getD (convSlot conv) none = some tag) :=
  ⟨⟨(s0).atRest, State.atRest_rested rfl, by decide, by decide⟩,
   ⟨(s0.raise F.MEAS_REF.EN).atRest, State.atRest_rested rfl, by decide, by decide⟩,
   ⟨(s0.onMeas fun m => { m with settling := true }).atRest, State.atRest_rested rfl, by decide⟩,
   ⟨(s0.put F.MEAS_CTRL.ARRAY_EN 1).atRest, s0.ofTrig, State.atRest_rested rfl, by decide, by decide, by decide, (fun l h => nomatch h), by decide⟩,
   ⟨(s0).atRest, s0.ofTrig + 1, State.atRest_rested rfl, by decide⟩,
   ⟨(s0).atRest, 31, State.atRest_rested rfl, by decide⟩,
   ⟨(s0.onMeas fun m => { m with conv := m.conv.set 24 (some default) }).atRest, 24, default, State.atRest_rested rfl, by decide, by decide⟩⟩

/-- Meets the hypotheses of `Obligations.ArrayCalibration`. -/
theorem test_w_ArrayCalibration :
    (∃ (s : State), s.rested ∧ s.trv.k < 24 ∧ s.on 5 = true ∧ (s.ptr.dev = DevState.run ∨ s.calRuns = true)) ∧
    (∃ (s : State), s.rested ∧ s.trv.k < 24 ∧ s.on 5 = true ∧ (s.ptr.dev = DevState.run ∨ s.calRuns = true)) ∧
    (∃ (s : State), s.rested ∧ s.trv.k < 24 ∧ s.on 5 = true ∧ s.ptr.dev ≠ DevState.run ∧ s.calRuns = false ∧ (s.bit F.MEAS_STAT.REF_OK = false ∨ s.banks = false)) ∧
    (∃ (s : State), s.rested ∧ s.trv.k < 24 ∧ s.on 5 = true ∧ s.ptr.dev ≠ DevState.run ∧ s.calRuns = false ∧ s.bit F.MEAS_STAT.REF_OK = true ∧ s.banks = true) ∧
    (∃ (s : State), s.rested ∧ s.trv.k < 24 ∧ s.meas.cal = CalStep.held ∧ s.bit F.MEAS_STAT.REF_OK = true ∧ s.banks = true) ∧
    (∃ (s : State), s.rested ∧ s.trv.k < 24 ∧ s.meas.cal = CalStep.offset) ∧
    (∃ (s : State), s.rested ∧ s.trv.k < 24 ∧ s.meas.cal = CalStep.gain) ∧
    (∃ (s : State), s.rested ∧ s.trv.k < 24 ∧ s.on 5 = true ∧ s.on 3 = true ∧ s.meas.hkCal = HkCalStep.none ∧ s.calRuns = false ∧ s.underScan = false ∧ s.meas.injWait = none ∧ s.meas.injRun = none) ∧
    (∃ (s : State), s.rested ∧ s.trv.k < 24 ∧ s.on 5 = true ∧ s.underScan = true) ∧
    (∃ (s : State), s.rested ∧ s.trv.k < 24 ∧ s.meas.hkCal = HkCalStep.run) :=
  ⟨⟨(s0).atRest, State.atRest_rested rfl, by decide, by decide, by decide⟩,
   ⟨((s0.inState .start).onMeas fun m => { m with cal := .gain }).atRest, State.atRest_rested rfl, by decide, by decide, by decide⟩,
   ⟨(s0.inState .start).atRest, State.atRest_rested rfl, by decide, by decide, by decide, by decide, by decide⟩,
   ⟨((s0.inState .start).raise F.MEAS_STAT.REF_OK).atRest, State.atRest_rested rfl, by decide, by decide, by decide, by decide, by decide, by decide⟩,
   ⟨((s0.raise F.MEAS_STAT.REF_OK).onMeas fun m => { m with cal := .held }).atRest, State.atRest_rested rfl, by decide, by decide, by decide, by decide⟩,
   ⟨(s0.onMeas fun m => { m with cal := .offset }).atRest, State.atRest_rested rfl, by decide, by decide⟩,
   ⟨(s0.onMeas fun m => { m with cal := .gain }).atRest, State.atRest_rested rfl, by decide, by decide⟩,
   ⟨(s0).atRest, State.atRest_rested rfl, by decide, by decide, by decide, by decide, by decide, by decide, by decide, by decide⟩,
   ⟨((s0.inState .test).put F.TRU_TEST_SEL.SEL 1).atRest, State.atRest_rested rfl, by decide, by decide, by decide⟩,
   ⟨(s0.onMeas fun m => { m with hkCal := .run }).atRest, State.atRest_rested rfl, by decide, by decide⟩⟩

/-- Meets the hypotheses of `Obligations.ArrayTraveller`. -/
theorem test_w_ArrayTraveller :
    (∃ (s : State), s.rested ∧ s.trv.k < 24 ∧ s.on 5 = true ∧ s.trv.step ≠ TrvStep.fault) ∧
    (∃ (s : State) (v : Word), s.rested ∧ s.trv.k < 24 ∧ s.on 5 = true ∧ s.trv.step = TrvStep.fault ∧ F.MEAS_TRV_CTRL.MODE.read v = 0) ∧
    (∃ (s : State) (k : Nat), s.rested ∧ s.trv.k < 24 ∧ s.trvMay = true ∧ s.trv.step = TrvStep.idle ∧ s.get F.MEAS_TRV_CTRL.MODE = 1 ∧ s.trvPick = some k) ∧
    (∃ (s : State) (k : Nat), s.rested ∧ s.trv.k < 24 ∧ s.trvMay = true ∧ s.trv.step = TrvStep.idle ∧ s.get F.MEAS_TRV_CTRL.MODE = 2 ∧ s.trvPin = some k ∧ s.rbit A.MEAS_CH_EN k = true ∧ s.rbit A.MEAS_CONV_FAIL k = false) ∧
    (∃ (s : State), s.rested ∧ s.trv.k < 24 ∧ s.trvMay = true ∧ s.trv.step = TrvStep.pinned ∧ (s.get F.MEAS_TRV_CTRL.MODE = 2 ∧ s.get F.MEAS_TRV_CTRL.PIN_CH = F.MEAS_TRV_CTRL.PIN_CH.read s.trv.ctrl ∧ s.trvPin = some s.trv.k)) ∧
    (∃ (s : State), s.rested ∧ s.trv.k < 24 ∧ s.trvMay = true ∧ s.trv.step = TrvStep.pinned ∧ (¬(s.get F.MEAS_TRV_CTRL.MODE = 2 ∧ s.get F.MEAS_TRV_CTRL.PIN_CH = F.MEAS_TRV_CTRL.PIN_CH.read s.trv.ctrl ∧ s.trvPin = some s.trv.k))) ∧
    (∃ (s : State), s.rested ∧ s.trv.k < 24 ∧ s.trvMay = true ∧ s.trv.step = TrvStep.pinned ∧ (¬(s.get F.MEAS_TRV_CTRL.MODE = 2 ∧ s.get F.MEAS_TRV_CTRL.PIN_CH = F.MEAS_TRV_CTRL.PIN_CH.read s.trv.ctrl ∧ s.trvPin = some s.trv.k))) ∧
    (∃ (s : State), s.rested ∧ s.trv.k < 24 ∧ s.trv.step = TrvStep.takeover ∧ s.trv.released = false ∧ s.trv.pairs = 64) ∧
    (∃ (s : State), s.rested ∧ s.trv.k < 24 ∧ (s.trv.step = TrvStep.hold ∧ s.trv.released = false ∨ s.trv.step = TrvStep.secondCal)) ∧
    (∃ (s : State), s.rested ∧ s.trv.k < 24 ∧ (s.trv.step = TrvStep.hold ∧ s.trv.released = false ∨ s.trv.step = TrvStep.secondCal)) ∧
    (∃ (s : State), s.rested ∧ s.trv.k < 24 ∧ s.trv.step ∈ [TrvStep.handback, TrvStep.secondHandback, TrvStep.release] ∧ s.trv.pairs = 64) ∧
    (∃ (s : State), s.rested ∧ s.trv.k < 24 ∧ s.trv.step ∈ [TrvStep.handback, TrvStep.secondHandback, TrvStep.release] ∧ s.trv.pairs = 64) ∧
    (∃ (s : State), s.rested ∧ s.trv.k < 24 ∧ s.trv.step ∈ [TrvStep.handback, TrvStep.secondHandback, TrvStep.release] ∧ s.trv.pairs = 64) ∧
    (∃ (s : State), s.rested ∧ s.trv.k < 24 ∧ s.trv.step = TrvStep.offset) ∧
    (∃ (s : State), s.rested ∧ s.trv.k < 24 ∧ s.trv.step = TrvStep.parked ∧ s.trv.releaseWaits = true ∧ s.converts = true ∧ s.banks = true) :=
  ⟨⟨(s0.onTrv fun t => { t with k := 23 }).atRest, State.atRest_rested rfl, by decide, by decide, by decide⟩,
   ⟨(s0.onTrv fun t => { t with step := .fault }).atRest, 0, State.atRest_rested rfl, by decide, by decide, by decide, by decide⟩,
   ⟨((((s0.put F.MEAS_CTRL.ARRAY_EN 1).put F.MEAS_TRV_CTRL.MODE 1).put F.MEAS_TRV_CTRL.LAST 23 |>.setReg A.MEAS_CH_EN 0x1FFFFFF).put F.MEAS_TRV_CTRL.FIRST 23).atRest, 23, State.atRest_rested rfl, by decide, by decide, by decide, by decide, by decide⟩,
   ⟨((((s0.put F.MEAS_CTRL.ARRAY_EN 1).put F.MEAS_TRV_CTRL.MODE 2).put F.MEAS_TRV_CTRL.LAST 23 |>.setReg A.MEAS_CH_EN 0x1FFFFFF).put F.MEAS_TRV_CTRL.PIN_CH 5).atRest, 5, State.atRest_rested rfl, by decide, by decide, by decide, by decide, by decide, by decide, by decide⟩,
   ⟨((((s0.put F.MEAS_CTRL.ARRAY_EN 1).put F.MEAS_TRV_CTRL.MODE 2).put F.MEAS_TRV_CTRL.LAST 23 |>.setReg A.MEAS_CH_EN 0x1FFFFFF).onTrv fun t => { t with step := .pinned }).atRest, State.atRest_rested rfl, by decide, by decide, by decide, by decide⟩,
   ⟨((((s0.put F.MEAS_CTRL.ARRAY_EN 1).put F.MEAS_TRV_CTRL.MODE 1).put F.MEAS_TRV_CTRL.LAST 23 |>.setReg A.MEAS_CH_EN 0x1FFFFFF).onTrv fun t => { t with step := .pinned }).atRest, State.atRest_rested rfl, by decide, by decide, by decide, by decide⟩,
   ⟨(((((s0.put F.MEAS_CTRL.ARRAY_EN 1).put F.MEAS_TRV_CTRL.MODE 2).put F.MEAS_TRV_CTRL.LAST 23 |>.setReg A.MEAS_CH_EN 0x1FFFFFF).put F.MEAS_TRV_CTRL.FIRST 1).onTrv fun t => { t with step := .pinned }).atRest, State.atRest_rested rfl, by decide, by decide, by decide, by decide⟩,
   ⟨(s0.onTrv fun t => { t with step := .takeover, pairs := 64 }).atRest, State.atRest_rested rfl, by decide, by decide, by decide, by decide⟩,
   ⟨(s0.onTrv fun t => { t with step := .hold }).atRest, State.atRest_rested rfl, by decide, by decide⟩,
   ⟨(s0.onTrv fun t => { t with step := .secondCal }).atRest, State.atRest_rested rfl, by decide, by decide⟩,
   ⟨(s0.onTrv fun t => { t with step := .handback, pairs := 64 }).atRest, State.atRest_rested rfl, by decide, by decide, by decide⟩,
   ⟨(s0.onTrv fun t => { t with step := .secondHandback, pairs := 64, sum := 10 ^ 15 }).atRest, State.atRest_rested rfl, by decide, by decide, by decide⟩,
   ⟨(s0.onTrv fun t => { t with step := .release, pairs := 64 }).atRest, State.atRest_rested rfl, by decide, by decide, by decide⟩,
   ⟨(s0.onTrv fun t => { t with step := .offset }).atRest, State.atRest_rested rfl, by decide, by decide⟩,
   ⟨((s0.put F.MEAS_CTRL.ARRAY_EN 1).onTrv fun t => { t with step := .parked, releaseWaits := true }).atRest, State.atRest_rested rfl, by decide, by decide, by decide, by decide, by decide⟩⟩

/-- Meets the hypotheses of `Obligations.ArrayHousekeeping`. -/
theorem test_w_ArrayHousekeeping :
    (∃ (s : State), s.rested ∧ s.bit F.MEAS_CTRL.HK_EN = true ∧ s.on 3 = true ∧ s.meas.round = none ∧ (∃ n, n < 16 ∧ s.rbit A.MEAS_HK_MASK n = true)) ∧
    (∃ (s : State), s.rested ∧ s.bit F.MEAS_CTRL.HK_EN = true ∧ s.on 3 = true ∧ s.meas.round.isSome = true) ∧
    (∃ (s : State) (value : Nat) (ch : Nat), s.rested ∧ s.on 3 = true ∧ s.meas.injRun = some ch ∧ ch < 16 ∧ value < 65536) ∧
    (∃ (s : State) (value : Nat) (ch : Nat) (rest : List Nat), s.rested ∧ s.on 3 = true ∧ s.meas.injRun = none ∧ s.hkHeld = false ∧ s.meas.round = some (ch :: rest) ∧ ch < 16 ∧ value < 65536) ∧
    (∃ (s : State) (v : Word), s.rested ∧ s.on 5 = true ∧ F.MEAS_HK_INJ.GO.read v = 1 ∧ s.meas.injWait = none ∧ s.meas.injRun = none) ∧
    (∃ (s : State) (v : Word), s.rested ∧ s.on 5 = true ∧ F.MEAS_HK_INJ.GO.read v = 1 ∧ (s.meas.injWait.isSome = true ∨ s.meas.injRun.isSome = true)) ∧
    (∃ (s : State) (v : Word), s.rested ∧ s.on 5 = true ∧ F.MEAS_HK_INJ.GO.read v = 1 ∧ (s.meas.injWait.isSome = true ∨ s.meas.injRun.isSome = true)) ∧
    (∃ (s : State), s.rested ∧ s.on 5 = true ∧ s.meas.round = none) ∧
    (∃ (s : State), s.rested ∧ s.on 5 = true ∧ s.hkHeld = false ∧ s.meas.round.isSome = true) ∧
    (∃ (s : State), s.rested ∧ s.on 5 = true ∧ s.hkHeld = true ∧ s.meas.round.isSome = true) :=
  ⟨⟨((s0.put F.MEAS_CTRL.HK_EN 1).setReg A.MEAS_HK_MASK 0x8000).atRest, State.atRest_rested rfl, by decide, by decide, by decide, ⟨15, by decide, by decide⟩⟩,
   ⟨((s0.put F.MEAS_CTRL.HK_EN 1).onMeas fun m => { m with round := some [0] }).atRest, State.atRest_rested rfl, by decide, by decide, by decide⟩,
   ⟨(s0.onMeas fun m => { m with injRun := some 15 }).atRest, 65535, 15, State.atRest_rested rfl, by decide, by decide, by decide, by decide⟩,
   ⟨(s0.onMeas fun m => { m with round := some [15] }).atRest, 65535, 15, [], State.atRest_rested rfl, by decide, by decide, by decide, by decide, by decide, by decide⟩,
   ⟨(s0).atRest, F.MEAS_HK_INJ.GO.write 0 1, State.atRest_rested rfl, by decide, by decide, by decide, by decide⟩,
   ⟨(s0.onMeas fun m => { m with injWait := some 0 }).atRest, F.MEAS_HK_INJ.GO.write 0 1, State.atRest_rested rfl, by decide, by decide, by decide⟩,
   ⟨(s0.onMeas fun m => { m with injRun := some 0 }).atRest, F.MEAS_HK_INJ.GO.write 0 1, State.atRest_rested rfl, by decide, by decide, by decide⟩,
   ⟨(s0).atRest, State.atRest_rested rfl, by decide, by decide⟩,
   ⟨(s0.onMeas fun m => { m with round := some [1] }).atRest, State.atRest_rested rfl, by decide, by decide, by decide⟩,
   ⟨(s0.onMeas fun m => { m with round := some [1], injRun := some 0 }).atRest, State.atRest_rested rfl, by decide, by decide, by decide⟩⟩

/-- Meets the hypotheses of `Obligations.ArrayOpenWire`. -/
theorem test_w_ArrayOpenWire :
    (∃ (s : State) (v : Word), s.rested ∧ s.on 5 = true ∧ F.MEAS_OW_CTRL.GO.read v = 1 ∧ (s.owRuns = true ∨ s.bit F.MEAS_CTRL.ARRAY_EN = false)) ∧
    (∃ (s : State) (v : Word), s.rested ∧ s.on 5 = true ∧ F.MEAS_OW_CTRL.GO.read v = 1 ∧ (s.owRuns = true ∨ s.bit F.MEAS_CTRL.ARRAY_EN = false)) ∧
    (∃ (s : State) (v : Word), s.rested ∧ s.on 5 = true ∧ F.MEAS_OW_CTRL.GO.read v = 1 ∧ s.owRuns = false ∧ s.bit F.MEAS_CTRL.ARRAY_EN = true ∧ F.MEAS_OW_CTRL.PINS.read v = 0) ∧
    (∃ (s : State) (v : Word), s.rested ∧ s.on 5 = true ∧ F.MEAS_OW_CTRL.GO.read v = 1 ∧ s.owRuns = false ∧ s.bit F.MEAS_CTRL.ARRAY_EN = true ∧ F.MEAS_OW_CTRL.PINS.read v ≠ 0) ∧
    (∃ (s : State), s.rested ∧ s.ow.step = OwStep.before) ∧
    (∃ (s : State), s.rested ∧ s.ow.step = OwStep.sinks) ∧
    (∃ (s : State), s.rested ∧ s.ow.step = OwStep.after) ∧
    (∃ (s : State), s.rested ∧ s.ow.step = OwStep.after) :=
  ⟨⟨(s0).atRest, F.MEAS_OW_CTRL.GO.write 0 1, State.atRest_rested rfl, by decide, by decide, by decide⟩,
   ⟨((s0.put F.MEAS_CTRL.ARRAY_EN 1).onOw fun o => { o with step := .before }).atRest, F.MEAS_OW_CTRL.GO.write 0 1, State.atRest_rested rfl, by decide, by decide, by decide⟩,
   ⟨(s0.put F.MEAS_CTRL.ARRAY_EN 1).atRest, F.MEAS_OW_CTRL.GO.write 0 1, State.atRest_rested rfl, by decide, by decide, by decide, by decide, by decide⟩,
   ⟨(s0.put F.MEAS_CTRL.ARRAY_EN 1).atRest, F.MEAS_OW_CTRL.GO.write (F.MEAS_OW_CTRL.PINS.write 0 1) 1, State.atRest_rested rfl, by decide, by decide, by decide, by decide, by decide⟩,
   ⟨(s0.onOw fun o => { o with step := .before }).atRest, State.atRest_rested rfl, by decide⟩,
   ⟨(s0.onOw fun o => { o with step := .sinks }).atRest, State.atRest_rested rfl, by decide⟩,
   ⟨(s0.onOw fun o => { o with step := .after, odd := true, sel := 0x1FFFFFF }).atRest, State.atRest_rested rfl, by decide⟩,
   ⟨(s0.onOw fun o => { o with step := .after, sel := 1 }).atRest, State.atRest_rested rfl, by decide⟩⟩

/-- Meets the hypotheses of `Obligations.DatapathWrites`. -/
theorem test_w_DatapathWrites :
    (∃ (s : State) (n : Nat), s.rested ∧ s.on 5 = true ∧ n < 24 ∧ s.bit (F.SDP_SCFG.EN n) = false) ∧
    (∃ (s : State) (n : Nat), s.rested ∧ s.on 5 = true ∧ n < 24 ∧ s.bit (F.SDP_SCFG.EN n) = true) ∧
    (∃ (s : State) (n : Nat) (v : Word), s.rested ∧ s.on 5 = true ∧ n < 24 ∧ 2 ≤ (F.SDP_SCFG.SRC n).read v) ∧
    (∃ (s : State) (n : Nat) (v : Word), s.rested ∧ s.on 5 = true ∧ n < 24 ∧ (F.SDP_SCFG.SRC n).read v < 2 ∧ s.bit (F.SDP_SCFG.EN n) = false ∧ ¬(F.SDP_SCFG.EN n).read v = 1) ∧
    (∃ (s : State) (n : Nat) (v : Word), s.rested ∧ s.on 5 = true ∧ n < 24 ∧ (F.SDP_SCFG.SRC n).read v < 2 ∧ s.bit (F.SDP_SCFG.EN n) = false ∧ (F.SDP_SCFG.EN n).read v = 1 ∧ s.streamBad n ((F.SDP_SCFG.SRC n).read v) = true) ∧
    (∃ (s : State) (n : Nat) (v : Word), s.rested ∧ s.on 5 = true ∧ n < 24 ∧ (F.SDP_SCFG.SRC n).read v < 2 ∧ s.bit (F.SDP_SCFG.EN n) = false ∧ (F.SDP_SCFG.EN n).read v = 1 ∧ s.streamBad n ((F.SDP_SCFG.SRC n).read v) = false) ∧
    (∃ (s : State) (n : Nat) (v : Word), s.rested ∧ s.on 5 = true ∧ n < 24 ∧ (F.SDP_SCFG.SRC n).read v < 2 ∧ s.bit (F.SDP_SCFG.EN n) = true ∧ (F.SDP_SCFG.EN n).read v = 1) ∧
    (∃ (s : State) (n : Nat) (v : Word), s.rested ∧ s.on 5 = true ∧ n < 24 ∧ (F.SDP_SCFG.SRC n).read v < 2 ∧ s.bit (F.SDP_SCFG.EN n) = true ∧ ¬(F.SDP_SCFG.EN n).read v = 1) ∧
    (∃ (s : State) (n : Nat) (v : Word), s.rested ∧ s.on 5 = true ∧ n < 24 ∧ (6 ≤ F.SDP_CFG.RATE.read v ∨ s.bit F.SDP_CFG.EN = true ∧ F.SDP_CFG.RATE.read v ≠ s.get F.SDP_CFG.RATE)) ∧
    (∃ (s : State) (n : Nat) (v : Word), s.rested ∧ s.on 5 = true ∧ n < 24 ∧ F.SDP_CFG.RATE.read v < 6 ∧ s.bit F.SDP_CFG.EN = false) ∧
    (∃ (s : State) (n : Nat) (v : Word), s.rested ∧ s.on 5 = true ∧ n < 24 ∧ (6 ≤ F.SDP_CFG.RATE.read v ∨ s.bit F.SDP_CFG.EN = true ∧ F.SDP_CFG.RATE.read v ≠ s.get F.SDP_CFG.RATE)) ∧
    (∃ (s : State) (n : Nat) (v : Word), s.rested ∧ s.on 5 = true ∧ n < 24 ∧ F.SDP_CFG.RATE.read v = s.get F.SDP_CFG.RATE ∧ s.get F.SDP_CFG.RATE < 6 ∧ s.bit F.SDP_CFG.EN = true ∧ F.SDP_CFG.EN.read v = 0) :=
  ⟨⟨(s0).atRest, 23, State.atRest_rested rfl, by decide, by decide, by decide⟩,
   ⟨(s0.put (F.SDP_SCFG.EN 23) 1).atRest, 23, State.atRest_rested rfl, by decide, by decide, by decide⟩,
   ⟨(s0).atRest, 23, (F.SDP_SCFG.SRC 23).write 0 2, State.atRest_rested rfl, by decide, by decide, by decide⟩,
   ⟨(s0).atRest, 0, 0, State.atRest_rested rfl, by decide, by decide, by decide, by decide, by decide⟩,
   ⟨(s0).atRest, 23, (F.SDP_SCFG.EN 23).write 0 1, State.atRest_rested rfl, by decide, by decide, by decide, by decide, by decide, by decide⟩,
   ⟨(((s0.setReg (A.SDP_SMASK 23) 1).setReg A.SDP_CH_EN 1)).atRest, 23, (F.SDP_SCFG.EN 23).write 0 1, State.atRest_rested rfl, by decide, by decide, by decide, by decide, by decide, by decide⟩,
   ⟨(s0.put (F.SDP_SCFG.EN 23) 1).atRest, 23, (F.SDP_SCFG.EN 23).write ((F.SDP_SCFG.SRC 23).write 0 1) 1, State.atRest_rested rfl, by decide, by decide, by decide, by decide, by decide⟩,
   ⟨(s0.put (F.SDP_SCFG.EN 23) 1).atRest, 23, (F.SDP_SCFG.SRC 23).write 0 1, State.atRest_rested rfl, by decide, by decide, by decide, by decide, by decide⟩,
   ⟨(s0).atRest, 0, F.SDP_CFG.RATE.write 0 6, State.atRest_rested rfl, by decide, by decide, by decide⟩,
   ⟨(s0).atRest, 0, F.SDP_CFG.RATE.write 0 5, State.atRest_rested rfl, by decide, by decide, by decide, by decide⟩,
   ⟨((s0.put F.SDP_CFG.EN 1).put F.SDP_CFG.RATE 5).atRest, 0, F.SDP_CFG.RATE.write 0 4, State.atRest_rested rfl, by decide, by decide, by decide⟩,
   ⟨((s0.put F.SDP_CFG.EN 1).put F.SDP_CFG.RATE 5).atRest, 0, F.SDP_CFG.RATE.write 0 5, State.atRest_rested rfl, by decide, by decide, by decide, by decide, by decide, by decide⟩⟩

/-- Meets the hypotheses of `Obligations.DatapathSets`. -/
theorem test_w_DatapathSets :
    (∃ (s : State), s.rested ∧ s.sdp.ch.length = 25 ∧ s.sdpRuns = false) ∧
    (∃ (s : State) (ts : Time) (e : Ecc) (r : Nat → Run), s.rested ∧ s.sdp.ch.length = 25 ∧ e ≠ Ecc.uncorrectable ∧ s.sdpRuns = true ∧ s.enabledChans ≠ [] ∧ BitVec.toNat s.sdp.lastInst < BitVec.toNat ts ∧ (∀ (n : Nat), n ∈ s.enabledChans → s.chanRun n ts = some (r n))) ∧
    (∃ (s : State) (ts : Time) (e : Ecc), s.rested ∧ s.sdp.ch.length = 25 ∧ s.sdpRuns = true ∧ BitVec.toNat s.sdp.lastInst < BitVec.toNat ts ∧ ((s.onGrid ts (ratePeriod (s.get F.SDP_CFG.RATE)) = true ∧ (∀ (n : Nat), n ∈ s.enabledChans → s.spanOver n ts = true) ∧ ∃ n, n ∈ s.enabledChans ∧ s.chanRun n ts = none) ∨ e = Ecc.uncorrectable ∧ s.enabledChans ≠ [] ∧ ∀ (n : Nat), n ∈ s.enabledChans → s.chanRun n ts ≠ none)) ∧
    (∃ (s : State) (ts : Time) (e : Ecc), s.rested ∧ s.sdp.ch.length = 25 ∧ s.sdpRuns = true ∧ BitVec.toNat s.sdp.lastInst < BitVec.toNat ts ∧ ((s.onGrid ts (ratePeriod (s.get F.SDP_CFG.RATE)) = true ∧ (∀ (n : Nat), n ∈ s.enabledChans → s.spanOver n ts = true) ∧ ∃ n, n ∈ s.enabledChans ∧ s.chanRun n ts = none) ∨ e = Ecc.uncorrectable ∧ s.enabledChans ≠ [] ∧ ∀ (n : Nat), n ∈ s.enabledChans → s.chanRun n ts ≠ none)) ∧
    (∃ (s : State) (n : Nat), s.rested ∧ s.sdp.ch.length = 25 ∧ s.on 5 = true ∧ n < 25) ∧
    (∃ (s : State) (v : Word), s.rested ∧ s.sdp.ch.length = 25 ∧ s.on 5 = true ∧ F.SDP_ACC_CTRL.SNAP.read v = 0) ∧
    (∃ (s : State) (v : Word), s.rested ∧ s.sdp.ch.length = 25 ∧ s.on 5 = true ∧ F.SDP_ACC_CTRL.SNAP.read v = 1) :=
  ⟨⟨(s0).atRest, State.atRest_rested rfl, by decide, by decide⟩,
   ⟨((((s0.put F.SDP_CFG.EN 1).put F.SDP_CFG.RATE 5).setReg A.SDP_CH_EN 0x1000000).onChan 24 fun c => { c with run := some run0 }).atRest, 65625, .corrected, fun _ => run0, State.atRest_rested rfl, by decide, by decide, by decide, by decide, by decide, by decide⟩,
   ⟨((((s0.put F.SDP_CFG.EN 1).put F.SDP_CFG.RATE 5).setReg A.SDP_CH_EN 0x1000000)).atRest, 3125, .clean, State.atRest_rested rfl, by decide, by decide, by decide, .inl ⟨by decide, by decide, 24, by decide, by decide⟩⟩,
   ⟨((((s0.put F.SDP_CFG.EN 1).put F.SDP_CFG.RATE 5).setReg A.SDP_CH_EN 0x1000000).onChan 24 fun c => { c with run := some run0 }).atRest, 65625, .uncorrectable, State.atRest_rested rfl, by decide, by decide, by decide, .inr ⟨rfl, by decide, by decide⟩⟩,
   ⟨(s0).atRest, 24, State.atRest_rested rfl, by decide, by decide, by decide⟩,
   ⟨(s0).atRest, 0, State.atRest_rested rfl, by decide, by decide, by decide⟩,
   ⟨(s0).atRest, F.SDP_ACC_CTRL.SNAP.write 0 1, State.atRest_rested rfl, by decide, by decide, by decide⟩⟩

/-- Meets the hypotheses of `Obligations.ImpedanceWrites`. -/
theorem test_w_ImpedanceWrites :
    (∃ (s : State) (n : Nat) (c : Nat) (v : Word), s.rested ∧ s.on 5 = true ∧ n < 6 ∧ c < 160 ∧ s.bit F.IMP_CTRL.EN = false ∧ (F.IMP_CTRL.EXC.read v = 3 ∨ F.IMP_CTRL.EN.read v = 1 ∧ F.IMP_CTRL.EXC.read v = 1 ∧ s.get F.IMP_RSHUNT.RSH = 0)) ∧
    (∃ (s : State) (n : Nat) (c : Nat) (v : Word), s.rested ∧ s.on 5 = true ∧ n < 6 ∧ c < 160 ∧ s.bit F.IMP_CTRL.EN = false ∧ (F.IMP_CTRL.EXC.read v = 3 ∨ F.IMP_CTRL.EN.read v = 1 ∧ F.IMP_CTRL.EXC.read v = 1 ∧ s.get F.IMP_RSHUNT.RSH = 0)) ∧
    (∃ (s : State) (n : Nat) (c : Nat) (v : Word), s.rested ∧ s.on 5 = true ∧ n < 6 ∧ c < 160 ∧ s.bit F.IMP_CTRL.EN = false ∧ F.IMP_CTRL.EXC.read v ≠ 3 ∧ (F.IMP_CTRL.EN.read v = 1 → F.IMP_CTRL.EXC.read v = 1 → s.get F.IMP_RSHUNT.RSH ≠ 0) ∧ s.bit (F.IMP_TONE.EN n) = false ∧ ((F.IMP_TONE.EN n).read v = 0 ∨ s.toneBad n (max 1 ((F.IMP_TONE.H n).read v)) (min 128 ((F.IMP_TONE.AMP n).read v)) = false)) ∧
    (∃ (s : State) (n : Nat) (c : Nat) (v : Word), s.rested ∧ s.on 5 = true ∧ n < 6 ∧ c < 160 ∧ s.bit F.IMP_CTRL.EN = true ∧ F.IMP_CTRL.EN.read v = 1) ∧
    (∃ (s : State) (n : Nat) (c : Nat) (v : Word), s.rested ∧ s.on 5 = true ∧ n < 6 ∧ c < 160 ∧ s.bit F.IMP_CTRL.EN = true ∧ F.IMP_CTRL.EN.read v = 0) ∧
    (∃ (s : State) (n : Nat) (c : Nat) (v : Word), s.rested ∧ s.on 5 = true ∧ n < 6 ∧ c < 160 ∧ s.bit (F.IMP_TONE.EN n) = true ∧ (F.IMP_TONE.EN n).read v = 1) ∧
    (∃ (s : State) (n : Nat) (c : Nat) (v : Word), s.rested ∧ s.on 5 = true ∧ n < 6 ∧ c < 160 ∧ s.bit (F.IMP_TONE.EN n) = false ∧ (F.IMP_TONE.EN n).read v = 1 ∧ s.toneBad n (max 1 ((F.IMP_TONE.H n).read v)) (min 128 ((F.IMP_TONE.AMP n).read v)) = true) ∧
    (∃ (s : State) (n : Nat) (c : Nat) (v : Word), s.rested ∧ s.on 5 = true ∧ n < 6 ∧ c < 160 ∧ s.bit (F.IMP_TONE.EN n) = true ∧ (F.IMP_TONE.EN n).read v = 0) ∧
    (∃ (s : State) (n : Nat) (c : Nat) (v : Word), s.rested ∧ s.on 5 = true ∧ n < 6 ∧ c < 160 ∧ s.ctxBad c v = true) ∧
    (∃ (s : State) (n : Nat) (c : Nat) (v : Word), s.rested ∧ s.on 5 = true ∧ n < 6 ∧ c < 160 ∧ s.ctxBad c v = false ∧ (F.IMP_CTX_CFG.EN c).read v = 0 ∧ s.imp.ctx.length = 160 ∧ (s.ctx c).integ.isSome = true) ∧
    (∃ (s : State) (n : Nat) (c : Nat) (v : Word), s.rested ∧ s.on 5 = true ∧ n < 6 ∧ c < 160 ∧ s.ctxBad c v = false ∧ ((F.IMP_CTX_CFG.EN c).read v = 1 ∨ (s.ctx c).integ = none ∧ (s.ctx c).ready = none)) ∧
    (∃ (s : State) (n : Nat) (c : Nat) (v : Word), s.rested ∧ s.on 5 = true ∧ n < 6 ∧ c < 160 ∧ s.bit F.IMP_FB_CTRL.EN = true ∧ F.IMP_FB_CTRL.EN.read v = 1) ∧
    (∃ (s : State) (n : Nat) (c : Nat) (v : Word), s.rested ∧ s.on 5 = true ∧ n < 6 ∧ c < 160 ∧ s.bit F.IMP_FB_CTRL.EN = false ∧ (F.IMP_FB_CTRL.EN.read v = 0 ∨ s.fbBad = false)) ∧
    (∃ (s : State) (n : Nat) (c : Nat) (v : Word), s.rested ∧ s.on 5 = true ∧ n < 6 ∧ c < 160 ∧ s.bit F.IMP_FB_CTRL.EN = false ∧ F.IMP_FB_CTRL.EN.read v = 1 ∧ s.fbBad = true) ∧
    (∃ (s : State) (n : Nat) (c : Nat) (v : Word), s.rested ∧ s.on 5 = true ∧ n < 6 ∧ c < 160 ∧ s.bit F.IMP_FB_CTRL.EN = true ∧ F.IMP_FB_CTRL.EN.read v = 0) :=
  ⟨⟨(s0).atRest, 0, 0, F.IMP_CTRL.EXC.write 0 3, State.atRest_rested rfl, by decide, by decide, by decide, by decide, by decide⟩,
   ⟨(s0.put F.IMP_RSHUNT.RSH 0).atRest, 0, 0, F.IMP_CTRL.EN.write (F.IMP_CTRL.EXC.write 0 1) 1, State.atRest_rested rfl, by decide, by decide, by decide, by decide, by decide⟩,
   ⟨(s0.put F.IMP_RSHUNT.RSH 1).atRest, 5, 0, F.IMP_CTRL.EXC.write 0 0, State.atRest_rested rfl, by decide, by decide, by decide, by decide, by decide, by decide, by decide, by decide⟩,
   ⟨(s0.put F.IMP_CTRL.EN 1).atRest, 0, 0, F.IMP_CTRL.EN.write 0 1, State.atRest_rested rfl, by decide, by decide, by decide, by decide, by decide⟩,
   ⟨(s0.put F.IMP_CTRL.EN 1).atRest, 0, 0, 0, State.atRest_rested rfl, by decide, by decide, by decide, by decide, by decide⟩,
   ⟨(s0.put (F.IMP_TONE.EN 5) 1).atRest, 5, 159, (F.IMP_TONE.EN 5).write 0 1, State.atRest_rested rfl, by decide, by decide, by decide, by decide, by decide⟩,
   ⟨(s0.put F.IMP_GRID.L 0xFFFFF).atRest, 5, 0, (F.IMP_TONE.EN 5).write 0 1, State.atRest_rested rfl, by decide, by decide, by decide, by decide, by decide, by decide⟩,
   ⟨(s0.put (F.IMP_TONE.EN 5) 1).atRest, 5, 0, 0, State.atRest_rested rfl, by decide, by decide, by decide, by decide, by decide⟩,
   ⟨(s0).atRest, 0, 159, (F.IMP_CTX_CFG.TONE 159).write 0 6, State.atRest_rested rfl, by decide, by decide, by decide, by decide⟩,
   ⟨(s0.onCtx 159 fun x => { x with integ := some 0 }).atRest, 0, 159, (F.IMP_CTX_CFG.TONE 159).write 0 5, State.atRest_rested rfl, by decide, by decide, by decide, by decide, by decide, by decide +kernel, by decide⟩,
   ⟨(s0).atRest, 0, 159, (F.IMP_CTX_CFG.TONE 159).write 0 5, State.atRest_rested rfl, by decide, by decide, by decide, by decide, by decide⟩,
   ⟨(s0.put F.IMP_FB_CTRL.EN 1).atRest, 0, 0, F.IMP_FB_CTRL.EN.write 0 1, State.atRest_rested rfl, by decide, by decide, by decide, by decide, by decide⟩,
   ⟨(s0).atRest, 0, 0, 0, State.atRest_rested rfl, by decide, by decide, by decide, by decide, by decide⟩,
   ⟨(s0).atRest, 0, 0, F.IMP_FB_CTRL.EN.write 0 1, State.atRest_rested rfl, by decide, by decide, by decide, by decide, by decide, by decide⟩,
   ⟨(s0.put F.IMP_FB_CTRL.EN 1).atRest, 0, 0, 0, State.atRest_rested rfl, by decide, by decide, by decide, by decide, by decide⟩⟩

/-- Meets the hypotheses of `Obligations.ImpedanceResults`. -/
theorem test_w_ImpedanceResults :
    (∃ (s : State) (t0 : Time), s.rested ∧ s.bit F.IMP_CTRL.EN = true ∧ (s.onGrid t0 s.fundTicks = true) ∧ s.timeMay t0 = true) ∧
    (∃ (s : State), s.rested ∧ s.bit F.IMP_CTRL.EN = false) ∧
    (∃ (s : State) (c : Nat), s.rested ∧ (s.ctx c).ready = none) ∧
    (∃ (s : State) (c : Nat) (r : WinReady) (re : Bool) (im : Bool) (o : ResultObs), s.rested ∧ c < 160 ∧ (s.ctx c).ready = some r ∧ WinReady.needs c r ≤ r.acc.got ∧ r.seen.residue = false ∧ (re || im || o.bad || o.acc == Ecc.uncorrectable) = true ∧ o.stage ≠ Ecc.uncorrectable ∧ (F.IMP_CTX_CFG.KIND c).read r.cfg ≠ 0) ∧
    (∃ (s : State) (c : Nat) (r : WinReady) (re : Bool) (im : Bool) (o : ResultObs), s.rested ∧ c < 160 ∧ (s.ctx c).ready = some r ∧ WinReady.needs c r ≤ r.acc.got ∧ r.seen.residue = false ∧ (re || im || o.bad || o.acc == Ecc.uncorrectable) = true ∧ o.stage ≠ Ecc.uncorrectable ∧ (F.IMP_CTX_CFG.KIND c).read r.cfg ≠ 0) ∧
    (∃ (s : State) (c : Nat) (r : WinReady) (o : ResultObs), s.rested ∧ c < 160 ∧ (s.ctx c).ready = some r ∧ WinReady.needs c r ≤ r.acc.got ∧ r.seen.residue = false ∧ o.stage = Ecc.uncorrectable ∧ (F.IMP_CTX_CFG.KIND c).read r.cfg ≠ 0) ∧
    (∃ (s : State) (c : Nat) (r : WinReady) (o : ResultObs), s.rested ∧ c < 160 ∧ (s.ctx c).ready = some r ∧ WinReady.needs c r ≤ r.acc.got ∧ r.seen.residue = false ∧ (F.IMP_CTX_CFG.KIND c).read r.cfg = 2 ∧ 0 < ((pathResponse r.acc.l r.acc.h).fst * (pathResponse r.acc.l r.acc.h).fst + (pathResponse r.acc.l r.acc.h).snd * (pathResponse r.acc.l r.acc.h).snd) * (16 * (↑r.periods * ↑r.acc.l)) ∧ o.bad = false ∧ o.acc ≠ Ecc.uncorrectable ∧ o.stage ≠ Ecc.uncorrectable) ∧
    (∃ (s : State) (c : Nat) (r : WinReady) (o : ResultObs), s.rested ∧ c < 160 ∧ (s.ctx c).ready = some r ∧ WinReady.needs c r ≤ r.acc.got ∧ r.seen.residue = false ∧ (F.IMP_CTX_CFG.KIND c).read r.cfg = 1 ∧ 0 < ((pathResponse r.acc.l r.acc.h).fst * (pathResponse r.acc.l r.acc.h).fst + (pathResponse r.acc.l r.acc.h).snd * (pathResponse r.acc.l r.acc.h).snd) * (16 * (↑r.periods * ↑r.acc.l) * ↑(s.get F.IMP_RSHUNT.RSH)) ∧ o.bad = false ∧ o.acc ≠ Ecc.uncorrectable ∧ o.stage ≠ Ecc.uncorrectable) ∧
    (∃ (s : State) (c : Nat) (r : WinReady) (rc : Nat) (q : RefResult) (o : ResultObs), s.rested ∧ c < 160 ∧ (s.ctx c).ready = some r ∧ WinReady.needs c r ≤ r.acc.got ∧ r.seen.residue = false ∧ (F.IMP_CTX_CFG.KIND c).read r.cfg = 0 ∧ rc = (F.IMP_CTX_CFG.REF c).read r.cfg ∧ (s.ctx rc).ready = none ∧ (s.ctx rc).ref = some q ∧ q.w = r.w ∧ q.cause = 0 ∧ 0 < (q.re * q.re + q.im * q.im) * 1000 ∧ o.bad = false ∧ o.acc ≠ Ecc.uncorrectable ∧ o.stage ≠ Ecc.uncorrectable) ∧
    (∃ (s : State), s.rested ∧ s.fbRuns = true ∧ s.bit F.IMP_STAT.FB_BUSY = true ∧ s.imp.fb.withheld = false) ∧
    (∃ (s : State), s.rested ∧ (∀ (r : WinReady), s.imp.fb.ready = some r → r.fbLacks = true)) ∧
    (∃ (s : State) (r : WinReady) (re : Bool) (im : Bool) (o : ResultObs), s.rested ∧ s.imp.fb.ready = some r ∧ r.fbLacks = false ∧ (re || im || o.bad || o.acc == Ecc.uncorrectable) = true ∧ o.stage ≠ Ecc.uncorrectable) ∧
    (∃ (s : State) (r : WinReady) (o : ResultObs), s.rested ∧ s.imp.fb.ready = some r ∧ r.fbLacks = false ∧ r.seen.residue = false ∧ 0 < r.acc.sum ∧ o.bad = false ∧ o.acc ≠ Ecc.uncorrectable ∧ o.stage ≠ Ecc.uncorrectable) ∧
    (∃ (s : State), s.rested) :=
  ⟨⟨(s0.put F.IMP_CTRL.EN 1).atRest, s0.ofTrig, State.atRest_rested rfl, by decide, by decide, by decide⟩,
   ⟨(s0).atRest, State.atRest_rested rfl, by decide⟩,
   ⟨(s0).atRest, 160, State.atRest_rested rfl, by decide⟩,
   ⟨(s0.onCtx 159 fun x => { x with ready := some ({ (default : WinReady) with cfg := (F.IMP_CTX_CFG.KIND 159).write 0 2, acc := { (default : Demod) with l := 50, h := 1, got := 50, sum := 1 }, periods := 1 }) }).atRest, 159, { (default : WinReady) with cfg := (F.IMP_CTX_CFG.KIND 159).write 0 2, acc := { (default : Demod) with l := 50, h := 1, got := 50, sum := 1 }, periods := 1 }, false, true, ⟨false, .clean, .clean⟩, State.atRest_rested rfl, by decide, by decide, by decide, by decide, by decide, by decide, by decide⟩,
   ⟨(s0.onCtx 159 fun x => { x with ready := some ({ (default : WinReady) with cfg := (F.IMP_CTX_CFG.KIND 159).write 0 1, acc := { (default : Demod) with l := 50, h := 1, got := 50, sum := 1 }, periods := 1 }) }).atRest, 159, { (default : WinReady) with cfg := (F.IMP_CTX_CFG.KIND 159).write 0 1, acc := { (default : Demod) with l := 50, h := 1, got := 50, sum := 1 }, periods := 1 }, false, false, ⟨false, .uncorrectable, .clean⟩, State.atRest_rested rfl, by decide, by decide, by decide, by decide, by decide, by decide, by decide⟩,
   ⟨(s0.onCtx 159 fun x => { x with ready := some ({ (default : WinReady) with cfg := (F.IMP_CTX_CFG.KIND 159).write 0 1, acc := { (default : Demod) with l := 50, h := 1, got := 50, sum := 1 }, periods := 1 }) }).atRest, 159, { (default : WinReady) with cfg := (F.IMP_CTX_CFG.KIND 159).write 0 1, acc := { (default : Demod) with l := 50, h := 1, got := 50, sum := 1 }, periods := 1 }, ⟨false, .clean, .uncorrectable⟩, State.atRest_rested rfl, by decide, by decide, by decide, by decide, by decide, by decide⟩,
   ⟨(s0.onCtx 159 fun x => { x with ready := some ({ (default : WinReady) with cfg := (F.IMP_CTX_CFG.KIND 159).write 0 2, acc := { (default : Demod) with l := 50, h := 1, got := 50, sum := 1 }, periods := 1 }) }).atRest, 159, { (default : WinReady) with cfg := (F.IMP_CTX_CFG.KIND 159).write 0 2, acc := { (default : Demod) with l := 50, h := 1, got := 50, sum := 1 }, periods := 1 }, ⟨false, .corrected, .clean⟩, State.atRest_rested rfl, by decide, by decide, by decide, by decide, by decide, by decide +kernel, by decide, by decide, by decide⟩,
   ⟨((s0.onCtx 159 fun x => { x with ready := some ({ (default : WinReady) with cfg := (F.IMP_CTX_CFG.KIND 159).write 0 1, acc := { (default : Demod) with l := 50, h := 1, got := 50, sum := 1 }, periods := 1 }) }).put F.IMP_RSHUNT.RSH 1).atRest, 159, { (default : WinReady) with cfg := (F.IMP_CTX_CFG.KIND 159).write 0 1, acc := { (default : Demod) with l := 50, h := 1, got := 50, sum := 1 }, periods := 1 }, ⟨false, .clean, .clean⟩, State.atRest_rested rfl, by decide, by decide, by decide, by decide, by decide, by decide +kernel, by decide, by decide, by decide⟩,
   ⟨((s0.onCtx 159 fun x => { x with ready := some ({ (default : WinReady) with cfg := (F.IMP_CTX_CFG.KIND 159).write 0 0, acc := { (default : Demod) with l := 50, h := 1, got := 50, sum := 1 }, periods := 1 }) }).onCtx 0 fun x => { x with ref := some ⟨0, 1, 0, 0, false⟩ }).atRest, 159, { (default : WinReady) with cfg := (F.IMP_CTX_CFG.KIND 159).write 0 0, acc := { (default : Demod) with l := 50, h := 1, got := 50, sum := 1 }, periods := 1 }, 0, ⟨0, 1, 0, 0, false⟩, ⟨false, .clean, .clean⟩, State.atRest_rested rfl, by decide, by decide, by decide, by decide, by decide, by decide, by decide, by decide, by decide, by decide, by decide, by decide, by decide, by decide⟩,
   ⟨(((((s0.put F.IMP_FB_CTRL.EN 1).put F.IMP_CTRL.EXC 2).put F.IMP_CTRL.EN 1).put F.SDP_CFG.EN 1).raise F.IMP_STAT.FB_BUSY).atRest, State.atRest_rested rfl, by decide, by decide, by decide⟩,
   ⟨(s0).atRest, State.atRest_rested rfl, (fun r h => nomatch h)⟩,
   ⟨(s0.onFb fun f => { f with ready := some ({ (default : WinReady) with acc := { (default : Demod) with l := 50, h := 1, got := 50, sum := 1 } }) }).atRest, { (default : WinReady) with acc := { (default : Demod) with l := 50, h := 1, got := 50, sum := 1 } }, false, false, ⟨true, .clean, .clean⟩, State.atRest_rested rfl, by decide, by decide, by decide, by decide⟩,
   ⟨(s0.onFb fun f => { f with ready := some ({ (default : WinReady) with acc := { (default : Demod) with l := 50, h := 1, got := 50, sum := 1 } }) }).atRest, { (default : WinReady) with acc := { (default : Demod) with l := 50, h := 1, got := 50, sum := 1 } }, ⟨false, .clean, .clean⟩, State.atRest_rested rfl, by decide, by decide, by decide, by decide, by decide, by decide, by decide⟩,
   ⟨(s0).atRest, State.atRest_rested rfl⟩⟩

/-- Meets the hypotheses of `Obligations.PhaseStarts`. -/
theorem test_w_PhaseStarts :
    (∃ (s : State) (v : Word), s.rested ∧ s.phc.phases.length = 6 ∧ s.on 5 = true ∧ s.bit F.PHC_CTRL.EN = false ∧ s.phcBad (F.PHC_CTRL.PH_EN.read v) = true) ∧
    (∃ (s : State) (v : Word), s.rested ∧ s.phc.phases.length = 6 ∧ s.on 5 = true ∧ s.bit F.PHC_CTRL.EN = false ∧ s.phcBad (F.PHC_CTRL.PH_EN.read v) = false ∧ s.phcState = 0 ∧ s.phcPowered = true ∧ (∃ x, x < 6 ∧ (F.PHC_CTRL.PH_EN.read v).testBit x = true ∧ (s.get F.PHC_FAIL.SENSE ||| s.get F.PHC_FAIL.OPEN).testBit x = false)) ∧
    (∃ (s : State), s.rested ∧ s.phc.phases.length = 6 ∧ s.on 5 = true ∧ s.bit F.PHC_CTRL.EN = true ∧ s.phcState ≠ 4) ∧
    (∃ (s : State), s.rested ∧ s.phc.phases.length = 6 ∧ s.on 5 = true ∧ s.phcState ≠ 4) ∧
    (∃ (s : State), s.rested ∧ s.phc.phases.length = 6 ∧ s.on 5 = true ∧ s.phcState = 4 ∧ s.bit F.PHC_CTRL.EN = true ∧ s.phcPowered = true ∧ s.phc.vinLow = false ∧ (∃ x, x < 6 ∧ (s.get F.PHC_CTRL.PH_EN).testBit x = true ∧ (s.get F.PHC_FAIL.SENSE ||| s.get F.PHC_FAIL.OPEN).testBit x = false)) ∧
    (∃ (s : State), s.rested ∧ s.phc.phases.length = 6 ∧ (s.phcState ≠ 1 ∨ s.phc.stopping = true)) ∧
    (∃ (s : State) (o : StartObs), s.rested ∧ s.phc.phases.length = 6 ∧ s.phcState = 1 ∧ s.phc.stopping = false ∧ s.phc.checked = false ∧ ↑o.vout * 5000 * s.vtarget.snd ≤ s.vtarget.fst ∧ s.get F.PHC_STAT.THROWS ≠ s.get F.PHC_SS.THROWS_MAX) ∧
    (∃ (s : State) (o : StartObs), s.rested ∧ s.phc.phases.length = 6 ∧ s.phcState = 1 ∧ s.phc.stopping = false ∧ (s.phc.checked = true ∨ s.vtarget.fst < ↑o.vout * 5000 * s.vtarget.snd) ∧ (s.phc.checked = true ∨ s.vtarget.fst ≤ ↑(5 * o.vStart - s.phc.vsetS + 50 * s.get F.PHC_VSET.VSET) * 200 * s.vtarget.snd)) ∧
    (∃ (s : State) (o : StartObs), s.rested ∧ s.phc.phases.length = 6 ∧ s.phcState = 1 ∧ s.phc.stopping = false ∧ (s.phc.checked = true ∨ s.vtarget.fst < ↑o.vout * 5000 * s.vtarget.snd) ∧ (¬(s.phc.checked = true ∨ s.vtarget.fst ≤ ↑(5 * o.vStart - s.phc.vsetS + 50 * s.get F.PHC_VSET.VSET) * 200 * s.vtarget.snd))) ∧
    (∃ (s : State), s.rested ∧ s.phc.phases.length = 6 ∧ s.phcState ≠ 3) ∧
    (∃ (s : State), s.rested ∧ s.phc.phases.length = 6 ∧ s.phcState = 3 ∧ s.bit F.PHC_CTRL.EN = true ∧ s.phcPowered = true ∧ s.phc.vinLow = false ∧ (∃ x, x < 6 ∧ (s.get F.PHC_CTRL.PH_EN).testBit x = true ∧ (s.get F.PHC_FAIL.SENSE ||| s.get F.PHC_FAIL.OPEN).testBit x = false)) ∧
    (∃ (s : State), s.rested ∧ s.phc.phases.length = 6 ∧ s.phcRegulates = true) :=
  ⟨⟨(s0).atRest, 0, State.atRest_rested rfl, by decide, by decide, by decide, by decide⟩,
   ⟨((phc0 0).put F.PHC_CTRL.EN 0).atRest, F.PHC_CTRL.PH_EN.write 0 1, State.atRest_rested rfl, by decide, by decide, by decide, by decide, by decide, by decide, ⟨0, by decide, by decide, by decide⟩⟩,
   ⟨(phc0 0).atRest, State.atRest_rested rfl, by decide, by decide, by decide, by decide⟩,
   ⟨(phc0 0).atRest, State.atRest_rested rfl, by decide, by decide, by decide⟩,
   ⟨(phc0 4).atRest, State.atRest_rested rfl, by decide, by decide, by decide, by decide, by decide, by decide, ⟨0, by decide, by decide, by decide⟩⟩,
   ⟨(phc0 0).atRest, State.atRest_rested rfl, by decide, by decide⟩,
   ⟨({ phc0 1 with phc := { (phc0 1).phc with vset := 1 } }).atRest, ⟨0, 0⟩, State.atRest_rested rfl, by decide, by decide, by decide, by decide, by decide, by decide⟩,
   ⟨({ phc0 1 with phc := { (phc0 1).phc with checked := true } }).atRest, ⟨0, 0⟩, State.atRest_rested rfl, by decide, by decide, by decide, by decide, by decide⟩,
   ⟨(({ phc0 1 with phc := { (phc0 1).phc with vset := 150000 } } : State).put F.PHC_VSET.VSET 2000).atRest, ⟨40000, 0⟩, State.atRest_rested rfl, by decide, by decide, by decide, by decide, by decide⟩,
   ⟨(phc0 2).atRest, State.atRest_rested rfl, by decide, by decide⟩,
   ⟨(phc0 3).atRest, State.atRest_rested rfl, by decide, by decide, by decide, by decide, by decide, ⟨0, by decide, by decide, by decide⟩⟩,
   ⟨(phc0 2).atRest, State.atRest_rested rfl, by decide, by decide⟩⟩

/-- Meets the hypotheses of `Obligations.PhaseProtection`. -/
theorem test_w_PhaseProtection :
    (∃ (s : State) (x : Nat), s.rested ∧ s.phc.phases.length = 6 ∧ 16 ≤ (s.phase x).boundRun) ∧
    (∃ (s : State), s.rested ∧ s.phc.phases.length = 6 ∧ s.phcRegulates = true ∧ s.get F.PHC_STAT.THROWS ≠ s.get F.PHC_SS.THROWS_MAX) ∧
    (∃ (s : State), s.rested ∧ s.phc.phases.length = 6 ∧ s.phcRegulates = true ∧ s.get F.PHC_STAT.THROWS = s.get F.PHC_SS.THROWS_MAX) ∧
    (∃ (s : State), s.rested ∧ s.phc.phases.length = 6 ∧ s.on 9 = true ∧ (s.phcSwitching = true ∨ s.phcState = 3 ∧ s.phc.stopping = false)) ∧
    (∃ (s : State), s.rested ∧ s.phc.phases.length = 6 ∧ s.on 9 = true ∧ (s.phcSwitching = true ∨ s.phcState = 3 ∧ s.phc.stopping = false)) ∧
    (∃ (s : State), s.rested ∧ s.phc.phases.length = 6 ∧ s.on 9 = true ∧ s.phcSwitching = false ∧ s.phc.stopping = false ∧ s.phcState ≠ 3 ∧ s.phcState ≠ 5) ∧
    (∃ (s : State), s.rested ∧ s.phc.phases.length = 6 ∧ s.on 9 = true ∧ s.phcSwitching = false ∧ s.phc.stopping = false ∧ s.phcState ≠ 3) ∧
    (∃ (s : State), s.rested ∧ s.phc.phases.length = 6 ∧ s.phcState = 5 ∧ s.bit F.PHC_CTRL.EN = true ∧ s.phcPowered = true ∧ (∃ y, y < 6 ∧ (s.get F.PHC_CTRL.PH_EN).testBit y = true ∧ (s.get F.PHC_FAIL.SENSE ||| s.get F.PHC_FAIL.OPEN).testBit y = false)) ∧
    (∃ (s : State), s.rested ∧ s.phc.phases.length = 6 ∧ s.phcRegulates = true ∧ s.bit F.PHC_STAT.BUS_OV = false) ∧
    (∃ (s : State), s.rested ∧ s.phc.phases.length = 6 ∧ s.phcRegulates = false) ∧
    (∃ (s : State), s.rested ∧ s.phc.phases.length = 6 ∧ s.bit F.PHC_STAT.BUS_OV = true) ∧
    (∃ (s : State) (x : Nat), s.rested ∧ s.phc.phases.length = 6 ∧ s.on 9 = true ∧ x ∈ s.phEn ∧ s.rbit A.PHC_FAIL (8 + x) = false ∧ s.phc.stopping = false ∧ (∃ y, y ∈ s.phAvail ∧ y ≠ x)) ∧
    (∃ (s : State) (x : Nat), s.rested ∧ s.phc.phases.length = 6 ∧ s.phcSwitching = true ∧ x ∈ s.phAct ∧ s.openNeeds ≤ (s.phase x).openRun ∧ (∃ y, y ∈ s.phAvail ∧ y ≠ x)) ∧
    (∃ (s : State) (x : Nat), s.rested ∧ s.phc.phases.length = 6 ∧ s.phcSwitching = true ∧ x ∈ s.phAct ∧ 4 ≤ (s.phase x).scRun ∧ (s.phase x).forced = false ∧ (∃ y, y ∈ s.phAct ∧ (s.phase y).scAdd < 4)) ∧
    (∃ (s : State) (x : Nat), s.rested ∧ s.phc.phases.length = 6 ∧ s.phcSwitching = true ∧ x ∈ s.phAct ∧ 4 ≤ (s.phase x).scRun ∧ (∀ (y : Nat), y ∈ s.phAct → 4 ≤ (s.phase y).scAdd) ∧ s.get F.PHC_STAT.N_ACT < s.phAvail.length) :=
  ⟨⟨(s0.onPhase 5 fun p => { p with boundRun := 16 }).atRest, 5, State.atRest_rested rfl, by decide, by decide⟩,
   ⟨((phc0 2).put F.PHC_SS.THROWS_MAX 1).atRest, State.atRest_rested rfl, by decide, by decide, by decide⟩,
   ⟨((phc0 2).put F.PHC_SS.THROWS_MAX 0).atRest, State.atRest_rested rfl, by decide, by decide, by decide⟩,
   ⟨(phc0 3).atRest, State.atRest_rested rfl, by decide, by decide, by decide⟩,
   ⟨(phc0 1).atRest, State.atRest_rested rfl, by decide, by decide, by decide⟩,
   ⟨(phc0 0).atRest, State.atRest_rested rfl, by decide, by decide, by decide, by decide, by decide, by decide⟩,
   ⟨(phc0 4).atRest, State.atRest_rested rfl, by decide, by decide, by decide, by decide, by decide⟩,
   ⟨(phc0 5).atRest, State.atRest_rested rfl, by decide, by decide, by decide, by decide, ⟨0, by decide, by decide, by decide⟩⟩,
   ⟨(phc0 2).atRest, State.atRest_rested rfl, by decide, by decide, by decide⟩,
   ⟨(phc0 0).atRest, State.atRest_rested rfl, by decide, by decide⟩,
   ⟨((phc0 2).raise F.PHC_STAT.BUS_OV).atRest, State.atRest_rested rfl, by decide, by decide⟩,
   ⟨(phc0 0).atRest, 1, State.atRest_rested rfl, by decide, by decide, by decide, by decide, by decide, ⟨0, by decide, by decide⟩⟩,
   ⟨(((phc0 2).put F.PHC_STAT.ACT 2).onPhase 1 fun p => { p with openRun := 1024 }).atRest, 1, State.atRest_rested rfl, by decide, by decide, by decide, by decide, ⟨0, by decide, by decide⟩⟩,
   ⟨(((phc0 2).put F.PHC_STAT.ACT 3).onPhase 1 fun p => { p with scRun := 4 }).atRest, 1, State.atRest_rested rfl, by decide, by decide, by decide, by decide, by decide, ⟨0, by decide, by decide⟩⟩,
   ⟨(((phc0 2).put F.PHC_STAT.ACT 2).onPhase 1 fun p => { p with scRun := 4, scAdd := 4 }).atRest, 1, State.atRest_rested rfl, by decide, by decide, by decide, by decide, by decide, by decide⟩⟩

/-- Meets the hypotheses of `Obligations.PhaseCycles`. -/
theorem test_w_PhaseCycles :
    (∃ (s : State) (o : PhcObs), s.rested ∧ s.phc.phases.length = 6 ∧ (s.on 9 = false ∨ s.bit F.PHC_STAT.BUS_OV = true ∨ (s.phase o.x).leaving = false ∧ (s.phcSwitching = false ∨ ¬o.x ∈ s.phAct))) ∧
    (∃ (s : State) (o : PhcObs), s.rested ∧ s.phc.phases.length = 6 ∧ (s.on 9 = false ∨ s.bit F.PHC_STAT.BUS_OV = true ∨ (s.phase o.x).leaving = false ∧ (s.phcSwitching = false ∨ ¬o.x ∈ s.phAct))) ∧
    (∃ (s : State) (o : PhcObs), s.rested ∧ s.phc.phases.length = 6 ∧ s.on 9 = true ∧ s.bit F.PHC_STAT.BUS_OV = false ∧ (s.phase o.x).leaving = true) ∧
    (∃ (s : State) (o : PhcObs), s.rested ∧ s.phc.phases.length = 6 ∧ s.phcSwitching = true ∧ s.on 9 = true ∧ s.bit F.PHC_STAT.BUS_OV = false ∧ (s.phase o.x).leaving = false ∧ o.x ∈ s.phAct) :=
  ⟨⟨(phc0 0).atRest, { (default : PhcObs) with x := 0 }, State.atRest_rested rfl, by decide, by decide⟩,
   ⟨((phc0 2).raise F.PHC_STAT.BUS_OV).atRest, { (default : PhcObs) with x := 0 }, State.atRest_rested rfl, by decide, by decide⟩,
   ⟨((phc0 0).onPhase 5 fun p => { p with leaving := true }).atRest, { (default : PhcObs) with x := 5 }, State.atRest_rested rfl, by decide, by decide, by decide, by decide⟩,
   ⟨((phc0 2).put F.PHC_STAT.ACT 32).atRest, { (default : PhcObs) with x := 5 }, State.atRest_rested rfl, by decide, by decide, by decide, by decide, by decide, by decide⟩⟩

/-- Meets the hypotheses of `Obligations.BalanceSlots`. -/
theorem test_w_BalanceSlots :
    (∃ (s : State) (t0 : Time), s.rested ∧ s.on 5 = true ∧ (↑(BitVec.toNat t0) - ↑(BitVec.toNat s.base)) % 1000000 = 0 ∧ s.timeMay t0 = true ∧ s.bal.inSlot = false) ∧
    (∃ (s : State) (t0 : Time), s.rested ∧ s.on 5 = true ∧ (↑(BitVec.toNat t0) - ↑(BitVec.toNat s.base)) % 1000000 = 0 ∧ s.timeMay t0 = true ∧ s.bal.inSlot = true) ∧
    (∃ (s : State) (t0 : Time), s.rested ∧ (s.on 5 = false ∨ (↑(BitVec.toNat t0) - ↑(BitVec.toNat s.base)) % 1000000 ≠ 0 ∨ s.timeMay t0 = false)) ∧
    (∃ (s : State), s.rested ∧ s.bal.inSlot = false) ∧
    (∃ (s : State), s.rested ∧ s.bal.inSlot = true) ∧
    (∃ (s : State) (n : Nat), s.rested ∧ n < 24 ∧ s.blClosed n = false ∧ s.on 5 = true) ∧
    (∃ (s : State) (n : Nat), s.rested ∧ n < 24 ∧ s.blClosed n = true) :=
  ⟨⟨(s0).atRest, 1000000, State.atRest_rested rfl, by decide, by decide, by decide, by decide⟩,
   ⟨({ s0 with bal := { s0.bal with inSlot := true } }).atRest, 1000000, State.atRest_rested rfl, by decide, by decide, by decide, by decide⟩,
   ⟨(s0).atRest, 1, State.atRest_rested rfl, by decide⟩,
   ⟨(s0).atRest, State.atRest_rested rfl, by decide⟩,
   ⟨({ s0 with bal := { s0.bal with inSlot := true } }).atRest, State.atRest_rested rfl, by decide⟩,
   ⟨(s0).atRest, 23, State.atRest_rested rfl, by decide, by decide, by decide⟩,
   ⟨(s0.put F.BAL_STAT.ON 0x800000).atRest, 23, State.atRest_rested rfl, by decide, by decide⟩⟩

/-- Meets the hypotheses of `Obligations.ThermalLevel`. -/
theorem test_w_ThermalLevel :
    (∃ (s : State), s.rested ∧ s.on 5 = false) ∧
    (∃ (s : State), s.rested ∧ s.on 5 = true ∧ s.thm.sensors.length = 5) ∧
    (∃ (s : State), s.rested ∧ s.thm.quiet < 1000) ∧
    (∃ (s : State), s.rested ∧ 1000 ≤ s.thm.quiet) ∧
    (∃ (s : State), s.rested ∧ s.allFailed = true) ∧
    (∃ (s : State), s.rested ∧ s.on 5 = true ∧ s.allFailed = false) ∧
    (∃ (s : State), s.rested ∧ s.on 0 = true ∧ s.on 5 = true ∧ s.dieValid = false ∧ s.sensorValue 4 = none ∧ s.ptr.dev ≠ DevState.off) ∧
    (∃ (s : State), s.rested ∧ s.on 5 = true ∧ s.dieValid = true ∧ (s.dieValid = true ∨ (s.sensorValue 4).isSome = true)) ∧
    (∃ (s : State), s.rested ∧ s.thm.closing = true) ∧
    (∃ (s : State), s.rested ∧ s.ptr.dev = DevState.standby ∧ s.thm.cooled = true) :=
  ⟨⟨(s0.domOnly 0).atRest, State.atRest_rested rfl, by decide⟩,
   ⟨(s0).atRest, State.atRest_rested rfl, by decide, by decide⟩,
   ⟨({ s0 with thm := { s0.thm with quiet := 999 } }).atRest, State.atRest_rested rfl, by decide⟩,
   ⟨({ s0 with thm := { s0.thm with quiet := 1000 } }).atRest, State.atRest_rested rfl, by decide⟩,
   ⟨(s0.put F.THM_CTRL.SRC 0).atRest, State.atRest_rested rfl, by decide⟩,
   ⟨((s0.put F.THM_CTRL.SRC 8).onSensor 3 fun x => { x with latest := some 0 }).atRest, State.atRest_rested rfl, by decide, by decide⟩,
   ⟨(s0).atRest, State.atRest_rested rfl, by decide, by decide, by decide, by decide, by decide⟩,
   ⟨(s0.onSensor 0 fun x => { x with latest := some 0 }).atRest, State.atRest_rested rfl, by decide, by decide, by decide⟩,
   ⟨({ s0 with thm := { s0.thm with closing := true } }).atRest, State.atRest_rested rfl, by decide⟩,
   ⟨({ s0.inState .standby with thm := { s0.thm with cooled := true } }).atRest, State.atRest_rested rfl, by decide, by decide⟩⟩

/-- Meets the hypotheses of `Obligations.LinkStates`. -/
theorem test_w_LinkStates :
    (∃ (s : State) (p : Port), s.rested ∧ s.on 5 = true ∧ s.bit (F.CHN_P_CTRL.EN p.idx) = false ∧ (s.linkState p ≠ 0 ∨ s.bit (F.CHN_P_CTRL.EN p.idx) = false)) ∧
    (∃ (s : State) (p : Port), s.rested ∧ s.on 5 = true ∧ s.bit (F.CHN_P_CTRL.EN p.idx) = true ∧ s.linkState p = 0) ∧
    (∃ (s : State) (p : Port), s.rested ∧ s.on 5 = true ∧ s.bit (F.CHN_P_CTRL.EN p.idx) = true ∧ s.linkState p ≠ 0) ∧
    (∃ (s : State), s.rested ∧ s.on 5 = false) ∧
    (∃ (s : State) (p : Port), s.rested ∧ s.linkState p ≠ 0 ∧ s.linkState p = 1) ∧
    (∃ (s : State) (p : Port), s.rested ∧ (s.on (portDomain p) = true ∧ s.linkState p = 0)) ∧
    (∃ (s : State) (p : Port), s.rested ∧ s.linkState p ≠ 1) ∧
    (∃ (s : State) (p : Port), s.rested ∧ (s.on (portDomain p) = true ∧ s.linkState p = 0) ∧ s.bit (F.CHN_P_CTRL.EN p.idx) = true) ∧
    (∃ (s : State) (p : Port) (target : Nat), s.rested ∧ (s.linkState p ≠ 0 ∨ s.bit (F.CHN_P_CTRL.EN p.idx) = false) ∧ s.linkState p = 2 ∧ s.linkState p ≠ 3 ∧ target < 16 ∧ (s.linkState p = 2 ∨ s.linkState p = 4)) ∧
    (∃ (s : State) (p : Port) (target : Nat), s.rested ∧ s.linkState p = 4 ∧ s.linkState p ≠ 2 ∧ target < 16 ∧ (s.linkState p = 2 ∨ s.linkState p = 4)) ∧
    (∃ (s : State) (p : Port), s.rested ∧ s.linkState p ≠ 2 ∧ s.linkState p ≠ 4 ∧ s.linkState p = 3) ∧
    (∃ (s : State) (p : Port), s.rested ∧ s.linkState p ≠ 2 ∧ s.linkState p ≠ 4) ∧
    (∃ (s : State) (p : Port), s.rested ∧ s.linkState p = 3 ∧ (s.port p).heard = false ∧ (s.port p).peerHeard = false) ∧
    (∃ (s : State) (p : Port), s.rested ∧ s.linkState p = 3 ∧ (s.port p).heard = true ∧ (s.port p).peerHeard = true) ∧
    (∃ (s : State) (p : Port) (f : Frame), s.rested ∧ s.linkState p = 3 ∧ frameIs 0 1 f = true ∧ f.crcOk = true ∧ frameMalformed f = false ∧ BitVec.extractLsb' 24 8 (f.payload.getD 2 0) ≠ 1) ∧
    (∃ (s : State) (p : Port) (f : Frame), s.rested ∧ s.linkState p = 3 ∧ frameIs 0 1 f = true ∧ f.crcOk = true ∧ frameMalformed f = false ∧ BitVec.extractLsb' 24 8 (f.payload.getD 2 0) = 1) ∧
    (∃ (s : State) (p : Port) (f : Frame), s.rested ∧ s.portUp p = true ∧ frameIs 0 1 f = true ∧ f.crcOk = true ∧ frameMalformed f = false) ∧
    (∃ (s : State) (p : Port), s.rested ∧ s.portUp p = true ∧ (s.portUp p = false ∨ (s.port p).discards < 16)) ∧
    (∃ (s : State) (p : Port), s.rested ∧ s.portUp p = false ∧ (s.portUp p = false ∨ (s.port p).discards < 16)) ∧
    (∃ (s : State) (p : Port), s.rested ∧ s.portUp p = true ∧ 16 ≤ (s.port p).discards) ∧
    (∃ (s : State) (p : Port), s.rested ∧ (s.portUp p = false ∨ (s.port p).discards < 16)) :=
  ⟨⟨(s0.put (F.CHN_P_STAT.STATE Port.south.idx) 0).atRest, .south, State.atRest_rested rfl, by decide, by decide, by decide⟩,
   ⟨((s0.put (F.CHN_P_STAT.STATE Port.south.idx) 0).put (F.CHN_P_CTRL.EN 1) 1).atRest, .south, State.atRest_rested rfl, by decide, by decide, by decide⟩,
   ⟨((s0.put (F.CHN_P_STAT.STATE Port.south.idx) 4).put (F.CHN_P_CTRL.EN 1) 1).atRest, .south, State.atRest_rested rfl, by decide, by decide, by decide⟩,
   ⟨(s0.domOnly 0).atRest, State.atRest_rested rfl, by decide⟩,
   ⟨(s0.put (F.CHN_P_STAT.STATE Port.south.idx) 1).atRest, .south, State.atRest_rested rfl, by decide, by decide⟩,
   ⟨(s0.put (F.CHN_P_STAT.STATE Port.south.idx) 0).atRest, .south, State.atRest_rested rfl, by decide⟩,
   ⟨(s0.put (F.CHN_P_STAT.STATE Port.south.idx) 2).atRest, .south, State.atRest_rested rfl, by decide⟩,
   ⟨((s0.put (F.CHN_P_STAT.STATE Port.south.idx) 0).put (F.CHN_P_CTRL.EN 1) 1).atRest, .south, State.atRest_rested rfl, by decide, by decide⟩,
   ⟨(s0.put (F.CHN_P_STAT.STATE Port.south.idx) 2).atRest, .south, 15, State.atRest_rested rfl, by decide, by decide, by decide, by decide, by decide⟩,
   ⟨(s0.put (F.CHN_P_STAT.STATE Port.south.idx) 4).atRest, .south, 0, State.atRest_rested rfl, by decide, by decide, by decide, by decide⟩,
   ⟨(s0.put (F.CHN_P_STAT.STATE Port.south.idx) 3).atRest, .south, State.atRest_rested rfl, by decide, by decide, by decide⟩,
   ⟨(s0.put (F.CHN_P_STAT.STATE Port.south.idx) 0).atRest, .south, State.atRest_rested rfl, by decide, by decide⟩,
   ⟨(s0.put (F.CHN_P_STAT.STATE Port.south.idx) 3).atRest, .south, State.atRest_rested rfl, by decide, by decide, by decide⟩,
   ⟨((s0.put (F.CHN_P_STAT.STATE Port.south.idx) 3).onPort .south fun q => { q with heard := true, peerHeard := true }).atRest, .south, State.atRest_rested rfl, by decide, by decide, by decide⟩,
   ⟨(s0.put (F.CHN_P_STAT.STATE Port.south.idx) 3).atRest, .south, fr 0 1 0 1 16 [0, 0, 2 <<< 24, 0], State.atRest_rested rfl, by decide, by decide, by decide, by decide, by decide⟩,
   ⟨(s0.put (F.CHN_P_STAT.STATE Port.south.idx) 3).atRest, .south, fr 0 1 0 1 16 [0, 0, 1 <<< 24, 0], State.atRest_rested rfl, by decide, by decide, by decide, by decide, by decide⟩,
   ⟨(s0.put (F.CHN_P_STAT.STATE Port.south.idx) 4).atRest, .south, fr 0 1 0 1 16 [0, 0, 1 <<< 24, 0], State.atRest_rested rfl, by decide, by decide, by decide, by decide⟩,
   ⟨(s0.put (F.CHN_P_STAT.STATE Port.south.idx) 4).atRest, .south, State.atRest_rested rfl, by decide, by decide⟩,
   ⟨(s0.put (F.CHN_P_STAT.STATE Port.south.idx) 3).atRest, .south, State.atRest_rested rfl, by decide, by decide⟩,
   ⟨((s0.put (F.CHN_P_STAT.STATE Port.south.idx) 4).onPort .south fun q => { q with discards := 16 }).atRest, .south, State.atRest_rested rfl, by decide, by decide⟩,
   ⟨((s0.put (F.CHN_P_STAT.STATE Port.south.idx) 4).onPort .south fun q => { q with discards := 15 }).atRest, .south, State.atRest_rested rfl, by decide⟩⟩

/-- Meets the hypotheses of `Obligations.LinkFrames`. -/
theorem test_w_LinkFrames :
    (∃ (s : State) (p : Port) (f : Frame), s.rested ∧ (s.portUp p = true ∧ f.crcOk = true ∧ frameMalformed f = false) ∧ frameIs 0 0 f = true) ∧
    (∃ (s : State) (p : Port) (f : Frame), s.rested ∧ s.portUp p = true ∧ f.cls = 2 ∧ f.crcOk = false) ∧
    (∃ (s : State) (p : Port) (f : Frame), s.rested ∧ (s.portUp p = true ∧ f.crcOk = true ∧ frameMalformed f = false) ∧ f.cls = 2 ∧ f.seq < 256) ∧
    (∃ (s : State) (p : Port), s.rested ∧ 3 ≤ s.linkState p) ∧
    (∃ (s : State) (p : Port), s.rested ∧ s.linkState p < 3 ∧ (s.portUp p = false ∨ s.txNext p ≠ none) ∧ s.portUp p = false) ∧
    (∃ (s : State) (p : Port), s.rested ∧ s.portUp p = true ∧ s.txNext p = none) ∧
    (∃ (s : State) (p : Port), s.rested ∧ (s.portUp p = false ∨ s.txNext p = none)) ∧
    (∃ (s : State) (p : Port), s.rested ∧ (s.portUp p = false ∨ s.txNext p = none)) ∧
    (∃ (s : State) (p : Port) (x : TxFrame) (i : Nat), s.rested ∧ s.portUp p = true ∧ s.txNext p = some (x, i)) ∧
    (∃ (s : State) (p : Port) (x : TxFrame) (i : Nat), s.rested ∧ s.portUp p = true ∧ (((s.port p).oldest fun y => y.stage != TxStage.new) = some (x, i)) ∧ x.stage = TxStage.sent ∧ 7 ≤ x.expiries) ∧
    (∃ (s : State) (p : Port) (x : TxFrame) (i : Nat), s.rested ∧ s.portUp p = true ∧ (((s.port p).oldest fun y => y.stage != TxStage.new) = some (x, i)) ∧ x.stage = TxStage.sent ∧ x.expiries < 7 ∧ s.grd.noteWaits = false) :=
  ⟨⟨(up0).atRest, .south, fr 0 0 0 1 4 [0], State.atRest_rested rfl, by decide, by decide⟩,
   ⟨(up0).atRest, .south, { fr 2 0 0 1 4 [0] with crcOk := false }, State.atRest_rested rfl, by decide, by decide, by decide⟩,
   ⟨(up0).atRest, .south, { fr 2 0 0 1 256 (List.replicate 64 0) with seq := 255 }, State.atRest_rested rfl, by decide, by decide, by decide⟩,
   ⟨(s0.put (F.CHN_P_STAT.STATE Port.south.idx) 3).atRest, .south, State.atRest_rested rfl, by decide⟩,
   ⟨(s0.put (F.CHN_P_STAT.STATE Port.south.idx) 2).atRest, .south, State.atRest_rested rfl, by decide, by decide, by decide⟩,
   ⟨(up0).atRest, .south, State.atRest_rested rfl, by decide, by decide⟩,
   ⟨(up0).atRest, .south, State.atRest_rested rfl, by decide⟩,
   ⟨(s0.put (F.CHN_P_STAT.STATE Port.south.idx) 2).atRest, .south, State.atRest_rested rfl, by decide⟩,
   ⟨((up0.put (F.CHN_P_STAT.STATE 1) 4).onPort .south fun q => { q with tx := [{ (default : TxFrame) with stage := .resend, expiries := 0, frame := fr 1 0 0 1 4 [0] }] }).atRest, .south, { (default : TxFrame) with stage := .resend, expiries := 0, frame := fr 1 0 0 1 4 [0] }, 0, State.atRest_rested rfl, by decide, by decide⟩,
   ⟨(up0.onPort .south fun q => { q with tx := [{ (default : TxFrame) with stage := .sent, expiries := 7, frame := fr 1 0 0 1 4 [0] }] }).atRest, .south, { (default : TxFrame) with stage := .sent, expiries := 7, frame := fr 1 0 0 1 4 [0] }, 0, State.atRest_rested rfl, by decide, by decide, by decide, by decide⟩,
   ⟨(up0.onPort .south fun q => { q with tx := [{ (default : TxFrame) with stage := .sent, expiries := 6, frame := fr 1 0 0 1 4 [0] }] }).atRest, .south, { (default : TxFrame) with stage := .sent, expiries := 6, frame := fr 1 0 0 1 4 [0] }, 0, State.atRest_rested rfl, by decide, by decide, by decide, by decide, by decide⟩⟩

/-- Meets the hypotheses of `Obligations.NetworkSteps`. -/
theorem test_w_NetworkSteps :
    (∃ (s : State) (p : Port) (f : Frame), s.rested ∧ (inOrder s p f ∧ frameIs 0 8 f = true ∧ f.dst = 127) ∧ s.net.headNow = false ∧ frameDir f = false ∧ f.payload.length = 11 ∧ s.portUp p.opp = true) ∧
    (∃ (s : State) (p : Port) (f : Frame), s.rested ∧ (inOrder s p f ∧ frameIs 0 9 f = true ∧ f.dst = 127) ∧ s.net.headNow = false ∧ frameDir f = false ∧ s.bit F.CHN_NET_STAT.SLOTV = false ∧ f.payload.getD 1 0 = s.factoryH ∧ f.payload.getD 2 0 = s.factoryL) ∧
    (∃ (s : State) (p : Port) (f : Frame), s.rested ∧ (inOrder s p f ∧ frameIs 0 10 f = true ∧ f.dst = 127) ∧ s.net.headNow = false ∧ frameDir f = false ∧ BitVec.getLsbD (f.payload.headD 0) 23 = true ∧ f.payload.length = 23 ∧ f.gen < 16) ∧
    (∃ (s : State) (p : Port) (f : Frame), s.rested ∧ (inOrder s p f ∧ frameIs 0 11 f = true ∧ f.dst = 127) ∧ s.net.headNow = false ∧ s.ownLink f = false ∧ BitVec.getLsbD (f.payload.headD 0) 31 = false ∧ f.src < 64 ∧ s.pos f.src < 64) ∧
    (∃ (s : State), s.rested ∧ s.on 5 = true ∧ s.net.headNow = true ∧ s.bit F.CHN_NET_STAT.SRCH_BUSY = false ∧ (s.portUp Port.north = true ∨ s.portUp Port.south = true)) ∧
    (∃ (s : State) (t0 : Time), s.rested ∧ (s.net.headNow = false ∨ s.on 5 = false ∨ s.bit F.CHN_NET_STAT.SRCH_BUSY = true) ∧ (s.net.headNow = false ∨ s.net.search.step = HeadStep.idle) ∧ (s.net.headNow = false ∨ s.on 5 = false) ∧ (s.net.basePending = false ∨ s.isTrigger t0 = false ∨ BitVec.toNat t0 < BitVec.toNat s.actAt)) ∧
    (∃ (s : State), s.rested ∧ s.net.headNow = true ∧ s.net.search.step ≠ HeadStep.idle ∧ 0 < s.net.search.copies) ∧
    (∃ (s : State), s.rested ∧ s.on 5 = true ∧ s.net.headNow = true ∧ BitVec.toNat s.actAt < BitVec.toNat s.timeNow + 100000) ∧
    (∃ (s : State), s.rested ∧ s.on 5 = true ∧ s.net.headNow = true ∧ BitVec.toNat s.timeNow + 100000 ≤ BitVec.toNat s.actAt) ∧
    (∃ (s : State) (t0 : Time), s.rested ∧ s.net.basePending = true ∧ s.isTrigger t0 = true ∧ s.on 4 = true ∧ BitVec.toNat s.actAt ≤ BitVec.toNat t0 ∧ s.timeMay t0 = true) :=
  ⟨⟨(up0).atRest, .south, fr 0 8 0 127 44 (List.replicate 11 0), State.atRest_rested rfl, by unfold inOrder; decide, by decide, by decide, by decide, by decide⟩,
   ⟨(up0).atRest, .south, fr 0 9 0 127 12 [0, 0, 0], State.atRest_rested rfl, by unfold inOrder; decide, by decide, by decide, by decide, by decide, by decide⟩,
   ⟨(up0).atRest, .south, { fr 0 10 0 127 92 (0x800000 :: List.replicate 22 0) with gen := 15 }, State.atRest_rested rfl, by unfold inOrder; decide, by decide, by decide, by decide, by decide, by decide⟩,
   ⟨(mem0).atRest, .south, fr 0 11 3 127 4 [0], State.atRest_rested rfl, by unfold inOrder; decide, by decide, by decide, by decide, by decide, by decide⟩,
   ⟨(head0).atRest, State.atRest_rested rfl, by decide, by decide, by decide, by decide⟩,
   ⟨(s0).atRest, 0, State.atRest_rested rfl, by decide, by decide, by decide, by decide⟩,
   ⟨(head0.onSearch fun x => { x with step := .survey, copies := 1 }).atRest, State.atRest_rested rfl, by decide, by decide, by decide⟩,
   ⟨((head0.put F.PTR_STAT.TVALID 1)).atRest, State.atRest_rested rfl, by decide, by decide, by decide⟩,
   ⟨(head0.setReg A.CHN_EPOCH_ACTL 100000).atRest, State.atRest_rested rfl, by decide, by decide, by decide⟩,
   ⟨(s0.onNet fun n => { n with basePending := true }).atRest, s0.ofTrig, State.atRest_rested rfl, by decide, by decide, by decide, by decide, by decide⟩⟩

/-- Meets the hypotheses of `Obligations.ChainTime`. -/
theorem test_w_ChainTime :
    (∃ (s : State) (p : Port), s.rested ∧ s.timePort = some p) ∧
    (∃ (s : State), s.rested ∧ s.timePort = none) ∧
    (∃ (s : State) (p : Port) (f : Frame), s.rested ∧ (s.portUp p = true ∧ f.crcOk = true ∧ frameMalformed f = false) ∧ frameIs 0 2 f = true ∧ f.len = 8 ∧ rttKind f = 0) ∧
    (∃ (s : State) (p : Port) (f : Frame) (t1 : Int), s.rested ∧ s.net.headNow = false ∧ (s.portUp p = true ∧ f.crcOk = true ∧ frameMalformed f = false) ∧ frameIs 0 2 f = true ∧ f.len = 16 ∧ rttKind f = 1 ∧ s.net.rttSent = some (p, t1)) ∧
    (∃ (s : State) (t0 : Time), s.rested ∧ s.lock = true ∧ BitVec.toNat t0 % 3000 = 0 ∧ s.timeMay t0 = true ∧ s.on 4 = true) ∧
    (∃ (s : State), s.rested ∧ s.lock = false) ∧
    (∃ (s : State) (p : Port) (e : Int), s.rested ∧ s.timePort = some p ∧ e.natAbs ≤ 100 * 256) ∧
    (∃ (s : State) (p : Port), s.rested ∧ s.timePort ≠ some p) ∧
    (∃ (s : State), s.rested ∧ s.net.headNow = false) ∧
    (∃ (s : State) (p : Port) (f : Frame), s.rested ∧ inOrder s p f ∧ frameIs 0 16 f = true ∧ f.dst = 127 ∧ s.ownFrame f = false) :=
  ⟨⟨(mem0.setReg (A.CHN_POS 0) 0x03020001).atRest, .south, State.atRest_rested rfl, by decide⟩,
   ⟨(head0).atRest, State.atRest_rested rfl, by decide⟩,
   ⟨(up0).atRest, .south, fr 0 2 0 1 8 ((0 <<< 30) :: List.replicate 1 0), State.atRest_rested rfl, by decide, by decide, by decide, by decide⟩,
   ⟨(up0.onNet fun n => { n with rttSent := some (.south, -1) }).atRest, .south, fr 0 2 0 1 16 ((1 <<< 30) :: List.replicate 3 0), -1, State.atRest_rested rfl, by decide, by decide, by decide, by decide, by decide, by decide⟩,
   ⟨(head0).atRest, 3000, State.atRest_rested rfl, by decide, by decide, by decide, by decide⟩,
   ⟨(s0).atRest, State.atRest_rested rfl, by decide⟩,
   ⟨(mem0.setReg (A.CHN_POS 0) 0x03020001).atRest, .south, 100 * 256, State.atRest_rested rfl, by decide, by decide⟩,
   ⟨(head0).atRest, .south, State.atRest_rested rfl, by decide⟩,
   ⟨(s0).atRest, State.atRest_rested rfl, by decide⟩,
   ⟨(mem0).atRest, .south, fr 0 16 1 127 4 [0], State.atRest_rested rfl, by unfold inOrder; decide, by decide, by decide, by decide⟩⟩

/-- Meets the hypotheses of `Obligations.RemoteAccesses`. -/
theorem test_w_RemoteAccesses :
    (∃ (s : State) (p : Port) (q : Port) (f : Frame) (a : Nat) (tag : Nat), s.rested ∧ inOrder s p f ∧ f.cls = 1 ∧ s.bit F.CHN_NET_STAT.SLOTV = true ∧ f.dst = s.get F.CHN_NET_STAT.SLOT ∧ f.src < 64 ∧ s.route f.src none = some q ∧ a ∈ codeRegs ∧ f.payload.headD 0 = requestWord tag 1 a ∧ tag < 256 ∧ ((s.port p).rx = [] ∧ s.canAnswer f = true) ∧ f.typ = 0 ∧ f.len = 4 ∧ f.gen = s.get F.CHN_NET_STAT.GEN) ∧
    (∃ (s : State) (p : Port) (q : Port) (f : Frame) (a : Nat) (tag : Nat) (v : Word), s.rested ∧ inOrder s p f ∧ f.cls = 1 ∧ s.bit F.CHN_NET_STAT.SLOTV = true ∧ f.dst = s.get F.CHN_NET_STAT.SLOT ∧ f.src < 64 ∧ s.route f.src none = some q ∧ a ∈ codeRegs ∧ f.payload.headD 0 = requestWord tag 1 a ∧ tag < 256 ∧ ((s.port p).rx = [] ∧ s.canAnswer f = true) ∧ f.typ = 1 ∧ f.len = 8 ∧ f.payload = [requestWord tag 1 a, v] ∧ f.gen = s.get F.CHN_NET_STAT.GEN ∧ s.tagSeen f.src tag = false) ∧
    (∃ (s : State) (p : Port) (q : Port) (f : Frame) (a : Nat) (tag : Nat) (m : Word) (v : Word), s.rested ∧ inOrder s p f ∧ f.cls = 1 ∧ s.bit F.CHN_NET_STAT.SLOTV = true ∧ f.dst = s.get F.CHN_NET_STAT.SLOT ∧ f.src < 64 ∧ s.route f.src none = some q ∧ a ∈ codeRegs ∧ f.payload.headD 0 = requestWord tag 1 a ∧ tag < 256 ∧ ((s.port p).rx = [] ∧ s.canAnswer f = true) ∧ f.typ = 2 ∧ f.len = 12 ∧ f.payload = [requestWord tag 1 a, m, v] ∧ f.gen = s.get F.CHN_NET_STAT.GEN ∧ s.tagSeen f.src tag = false) ∧
    (∃ (s : State) (p : Port) (q : Port) (f : Frame) (a : Nat) (tag : Nat), s.rested ∧ inOrder s p f ∧ f.cls = 1 ∧ s.bit F.CHN_NET_STAT.SLOTV = true ∧ f.dst = s.get F.CHN_NET_STAT.SLOT ∧ f.src < 64 ∧ s.route f.src none = some q ∧ a ∈ codeRegs ∧ f.payload.headD 0 = requestWord tag 1 a ∧ tag < 256 ∧ ((s.port p).rx = [] ∧ s.canAnswer f = true) ∧ f.typ = 1 ∧ f.len = 8 ∧ ¬f.gen = s.get F.CHN_NET_STAT.GEN) ∧
    (∃ (s : State) (p : Port) (q : Port) (f : Frame) (a : Nat) (tag : Nat), s.rested ∧ inOrder s p f ∧ f.cls = 1 ∧ s.bit F.CHN_NET_STAT.SLOTV = true ∧ f.dst = s.get F.CHN_NET_STAT.SLOT ∧ f.src < 64 ∧ s.route f.src none = some q ∧ a ∈ codeRegs ∧ f.payload.headD 0 = requestWord tag 1 a ∧ tag < 256 ∧ ((s.port p).rx = [] ∧ s.canAnswer f = true) ∧ f.typ = 1 ∧ f.len = 8 ∧ f.gen = s.get F.CHN_NET_STAT.GEN ∧ s.tagSeen f.src tag = true) ∧
    (∃ (s : State) (p : Port) (q : Port) (f : Frame) (a : Nat) (tag : Nat), s.rested ∧ inOrder s p f ∧ f.cls = 1 ∧ s.bit F.CHN_NET_STAT.SLOTV = true ∧ f.dst = s.get F.CHN_NET_STAT.SLOT ∧ f.src < 64 ∧ s.route f.src none = some q ∧ a ∈ codeRegs ∧ f.payload.headD 0 = requestWord tag 1 a ∧ tag < 256 ∧ (goodFrame p f s).canAnswer f = false ∧ f.typ = 0) ∧
    (∃ (s : State) (p : Port) (q : Port) (f : Frame) (a : Nat) (tag : Nat), s.rested ∧ inOrder s p f ∧ f.cls = 1 ∧ s.bit F.CHN_NET_STAT.SLOTV = true ∧ f.dst = s.get F.CHN_NET_STAT.SLOT ∧ f.src < 64 ∧ s.route f.src none = some q ∧ a ∈ codeRegs ∧ f.payload.headD 0 = requestWord tag 1 a ∧ tag < 256 ∧ (goodFrame p f s).canAnswer f = false ∧ f.typ = 1) ∧
    (∃ (s : State) (p : Port) (q : Port) (f : Frame) (a : Nat) (tag : Nat), s.rested ∧ inOrder s p f ∧ f.cls = 1 ∧ s.bit F.CHN_NET_STAT.SLOTV = true ∧ f.dst = s.get F.CHN_NET_STAT.SLOT ∧ f.src < 64 ∧ s.route f.src none = some q ∧ a ∈ codeRegs ∧ f.payload.headD 0 = requestWord tag 1 a ∧ tag < 256 ∧ (goodFrame p f s).canAnswer f = false ∧ f.typ = 2) :=
  ⟨⟨(mem0).atRest, .north, .south, { fr 1 0 1 0 4 [requestWord 255 1 A.PTR_EVT] with gen := 0 }, A.PTR_EVT, 255, State.atRest_rested rfl, by unfold inOrder; decide, by decide, by decide, by decide, by decide, by decide, by decide, by decide, by decide, by decide, by decide, by decide, by decide⟩,
   ⟨(mem0).atRest, .north, .south, { fr 1 1 1 0 8 [requestWord 255 1 A.PTR_EVT, 0xFFFFFFFF] with gen := 0 }, A.PTR_EVT, 255, 0xFFFFFFFF, State.atRest_rested rfl, by unfold inOrder; decide, by decide, by decide, by decide, by decide, by decide, by decide, by decide, by decide, by decide, by decide, by decide, by decide, by decide, by decide⟩,
   ⟨(mem0).atRest, .north, .south, { fr 1 2 1 0 12 [requestWord 255 1 A.PTR_EVT, 0xFFFF, 0xFFFFFFFF] with gen := 0 }, A.PTR_EVT, 255, 0xFFFF, 0xFFFFFFFF, State.atRest_rested rfl, by unfold inOrder; decide, by decide, by decide, by decide, by decide, by decide, by decide, by decide, by decide, by decide, by decide, by decide, by decide, by decide, by decide⟩,
   ⟨(mem0).atRest, .north, .south, { fr 1 1 1 0 8 [requestWord 255 1 A.PTR_EVT, 0xFFFFFFFF] with gen := 1 }, A.PTR_EVT, 255, State.atRest_rested rfl, by unfold inOrder; decide, by decide, by decide, by decide, by decide, by decide, by decide, by decide, by decide, by decide, by decide, by decide, by decide⟩,
   ⟨(mem0.onNet fun n => { n with seen := [(1, [255])] }).atRest, .north, .south, { fr 1 1 1 0 8 [requestWord 255 1 A.PTR_EVT, 0xFFFFFFFF] with gen := 0 }, A.PTR_EVT, 255, State.atRest_rested rfl, by unfold inOrder; decide, by decide, by decide, by decide, by decide, by decide, by decide, by decide, by decide, by decide, by decide, by decide, by decide, by decide⟩,
   ⟨(mem0.onPort .south fun q => { q with tx := List.replicate 64 { (default : TxFrame) with frame := fr 1 0 0 1 4 [0] } }).atRest, .north, .south, { fr 1 0 1 0 4 [requestWord 255 1 A.PTR_EVT] with gen := 0 }, A.PTR_EVT, 255, State.atRest_rested rfl, by unfold inOrder; decide, by decide, by decide, by decide, by decide, by decide, by decide, by decide, by decide, by decide, by decide⟩,
   ⟨(mem0.onPort .south fun q => { q with tx := List.replicate 64 { (default : TxFrame) with frame := fr 1 0 0 1 4 [0] } }).atRest, .north, .south, { fr 1 1 1 0 8 [requestWord 255 1 A.PTR_EVT, 0xFFFFFFFF] with gen := 0 }, A.PTR_EVT, 255, State.atRest_rested rfl, by unfold inOrder; decide, by decide, by decide, by decide, by decide, by decide, by decide, by decide, by decide, by decide, by decide⟩,
   ⟨(mem0.onPort .south fun q => { q with tx := List.replicate 64 { (default : TxFrame) with frame := fr 1 0 0 1 4 [0] } }).atRest, .north, .south, { fr 1 2 1 0 12 [requestWord 255 1 A.PTR_EVT, 0xFFFF, 0xFFFFFFFF] with gen := 0 }, A.PTR_EVT, 255, State.atRest_rested rfl, by unfold inOrder; decide, by decide, by decide, by decide, by decide, by decide, by decide, by decide, by decide, by decide, by decide⟩⟩

/-- Meets the hypotheses of `Obligations.RemoteTransfers`. -/
theorem test_w_RemoteTransfers :
    (∃ (s : State) (p : Port) (f : Frame) (w0 : Word) (w1 : Word) (start : Word) (len : Word), s.rested ∧ (inOrder s p f ∧ (s.bit F.CHN_NET_STAT.SLOTV = true ∧ f.dst = s.get F.CHN_NET_STAT.SLOT ∧ f.src < 64) ∧ frameIs 1 3 f = true ∧ f.gen = s.get F.CHN_NET_STAT.GEN ∧ s.tagSeen f.src (wordTag (f.payload.headD 0)) = false ∧ wordCount (f.payload.headD 0) = 0 ∧ (s.port p).rx = [] ∧ s.canAnswer f = true) ∧ f.len = 16 ∧ f.payload = [w0, w1, start, len] ∧ BitVec.extractLsb' 16 4 w1 = 1 ∧ BitVec.toNat start + BitVec.toNat len ≤ 16384) ∧
    (∃ (s : State) (p : Port) (f : Frame) (w0 : Word) (w1 : Word), s.rested ∧ (inOrder s p f ∧ (s.bit F.CHN_NET_STAT.SLOTV = true ∧ f.dst = s.get F.CHN_NET_STAT.SLOT ∧ f.src < 64) ∧ frameIs 1 4 f = true ∧ f.gen = s.get F.CHN_NET_STAT.GEN ∧ s.tagSeen f.src (wordTag (f.payload.headD 0)) = false ∧ wordCount (f.payload.headD 0) = 0 ∧ (s.port p).rx = [] ∧ s.canAnswer f = true) ∧ f.len = 8 ∧ f.payload = [w0, w1]) ∧
    (∃ (s : State) (p : Port) (f : Frame) (w0 : Word) (w1 : Word), s.rested ∧ (inOrder s p f ∧ (s.bit F.CHN_NET_STAT.SLOTV = true ∧ f.dst = s.get F.CHN_NET_STAT.SLOT ∧ f.src < 64) ∧ frameIs 1 5 f = true ∧ f.gen = s.get F.CHN_NET_STAT.GEN ∧ s.tagSeen f.src (wordTag (f.payload.headD 0)) = false ∧ wordCount (f.payload.headD 0) = 0 ∧ (s.port p).rx = [] ∧ s.canAnswer f = true) ∧ f.len = 8 ∧ f.payload = [w0, w1]) ∧
    (∃ (s : State) (p : Port) (f : Frame) (b : BulkIn), s.rested ∧ s.portUp p = true ∧ f.ecc.room ≠ Ecc.uncorrectable ∧ f.crcOk = true ∧ frameMalformed f = false ∧ (s.bit F.CHN_NET_STAT.SLOTV = true ∧ f.dst = s.get F.CHN_NET_STAT.SLOT ∧ f.src < 64) ∧ frameIs 3 0 f = true ∧ 8 ≤ f.len ∧ (List.find? (fun x => x.src == f.src && x.xid == wordTag (f.payload.headD 0)) s.net.bulkIn = some b) ∧ (BitVec.extractLsb' 0 24 (f.payload.headD 0)).toNat = b.next) ∧
    (∃ (s : State) (p : Port) (f : Frame) (r : Request) (htag : Nat), s.rested ∧ inOrder s p f ∧ (s.bit F.CHN_NET_STAT.SLOTV = true ∧ f.dst = s.get F.CHN_NET_STAT.SLOT ∧ f.src < 64) ∧ f.cls = 1 ∧ s.requestAt f.src (wordTag (f.payload.headD 0)) = some r ∧ r.who = Requester.host htag ∧ r.typ = 0 ∧ f.typ = 32 ∧ wordStatus (f.payload.headD 0) = 0) ∧
    (∃ (s : State) (dst : Nat) (tag : Nat) (r : Request), s.rested ∧ s.requestAt dst tag = some r ∧ r.due = false ∧ r.tries < s.get F.CHN_NET_CFG.RETRY) ∧
    (∃ (s : State) (dst : Nat) (tag : Nat), s.rested ∧ s.requestAt dst tag = none) ∧
    (∃ (s : State) (dst : Nat) (tag : Nat) (htag : Nat) (r : Request), s.rested ∧ s.requestAt dst tag = some r ∧ r.due = false ∧ s.get F.CHN_NET_CFG.RETRY ≤ r.tries ∧ r.who = Requester.host htag) ∧
    (∃ (s : State) (n : Nat), s.rested ∧ n < 16 ∧ s.net.headNow = true ∧ s.bit (F.CHN_MIR_A.EN n) = true) ∧
    (∃ (s : State) (n : Nat), s.rested ∧ (s.net.headNow = false ∨ n < 16 ∧ s.bit (F.CHN_MIR_A.EN n) = false)) :=
  ⟨⟨(mem0).atRest, .south, fr 1 3 1 0 16 [0, 0x10000, 16380, 4], 0, 0x10000, 16380, 4, State.atRest_rested rfl, by unfold inOrder; decide, by decide, by decide, by decide, by decide⟩,
   ⟨(mem0).atRest, .south, fr 1 4 1 0 8 [0, 0], 0, 0, State.atRest_rested rfl, by unfold inOrder; decide, by decide, by decide⟩,
   ⟨(mem0).atRest, .south, fr 1 5 1 0 8 [0, 0], 0, 0, State.atRest_rested rfl, by unfold inOrder; decide, by decide, by decide⟩,
   ⟨(mem0.onNet fun n => { n with bulkIn := [⟨1, 0, 8, [], false⟩] }).atRest, .south, fr 3 0 1 0 8 [8, 0], ⟨1, 0, 8, [], false⟩, State.atRest_rested rfl, by decide, by decide, by decide, by decide, by decide, by decide, by decide, by decide, by decide⟩,
   ⟨(mem0.onNet fun n => { n with requests := [⟨.host 3, 1, 0, 0, 1, [], some 7, false, 0⟩] }).atRest, .south, fr 1 32 1 0 8 [0x07000000, 0], ⟨.host 3, 1, 0, 0, 1, [], some 7, false, 0⟩, 3, State.atRest_rested rfl, by unfold inOrder; decide, by decide, by decide, by decide, by decide, by decide, by decide, by decide⟩,
   ⟨((mem0.put F.CHN_NET_CFG.RETRY 2).onNet fun n => { n with requests := [⟨.host 3, 1, 0, 0, 1, [], some 7, false, 1⟩] }).atRest, 1, 7, ⟨.host 3, 1, 0, 0, 1, [], some 7, false, 1⟩, State.atRest_rested rfl, by decide, by decide, by decide⟩,
   ⟨(mem0).atRest, 1, 7, State.atRest_rested rfl, by decide⟩,
   ⟨((mem0.put F.CHN_NET_CFG.RETRY 2).onNet fun n => { n with requests := [⟨.host 3, 1, 0, 0, 1, [], some 7, false, 2⟩] }).atRest, 1, 7, 3, ⟨.host 3, 1, 0, 0, 1, [], some 7, false, 2⟩, State.atRest_rested rfl, by decide, by decide, by decide, by decide⟩,
   ⟨(head0.put (F.CHN_MIR_A.EN 15) 1).atRest, 15, State.atRest_rested rfl, by decide, by decide, by decide⟩,
   ⟨(mem0).atRest, 16, State.atRest_rested rfl, by decide⟩⟩

/-- Meets the hypotheses of `Obligations.HostPort`. -/
theorem test_w_HostPort :
    (∃ (s : State) (r : HostReq), s.rested ∧ s.on 5 = true ∧ s.net.headNow = true ∧ s.loader = false ∧ r.crcOk = true ∧ r.flags < 2 ∧ r.cmd = 1 ∧ r.count = 1 ∧ r.addr / 16384 % 64 = 0 ∧ r.addr % 16384 ∈ codeRegs) ∧
    (∃ (s : State) (r : HostReq), s.rested ∧ s.on 5 = true ∧ s.net.headNow = true ∧ s.loader = false ∧ r.crcOk = true ∧ r.flags < 2 ∧ r.cmd = 1 ∧ 0 < r.count ∧ r.count ≤ 1024 ∧ r.addr % 16384 + r.count ≤ 16384 ∧ (r.addr / 16384 % 64 ≠ 0 ∧ s.assigned (r.addr / 16384 % 64) = true ∧ s.lost (r.addr / 16384 % 64) = false) ∧ s.celReady = true) ∧
    (∃ (s : State) (r : HostReq), s.rested ∧ s.on 5 = true ∧ s.net.headNow = true ∧ s.loader = false ∧ r.crcOk = true ∧ r.flags < 2 ∧ r.cmd = 2 ∧ (r.count = 0 ∨ 63 < r.count)) ∧
    (∃ (s : State) (r : HostReq), s.rested ∧ s.on 5 = true ∧ s.net.headNow = true ∧ s.loader = false ∧ r.crcOk = true ∧ r.flags < 2 ∧ r.cmd = 2 ∧ (r.count = 0 ∨ 63 < r.count)) ∧
    (∃ (s : State) (r : HostReq), s.rested ∧ s.on 5 = true ∧ s.net.headNow = true ∧ s.loader = false ∧ r.crcOk = true ∧ r.flags < 2 ∧ r.cmd = 2 ∧ 0 < r.count ∧ r.count ≤ 63 ∧ ((s.hostPending < 8 ∧ s.hostFull = false) ∧ r.ecc.room ≠ Ecc.uncorrectable) ∧ (r.addr / 16384 % 64 ≠ 0 ∧ s.assigned (r.addr / 16384 % 64) = true ∧ s.lost (r.addr / 16384 % 64) = false)) ∧
    (∃ (s : State) (r : HostReq), s.rested ∧ s.on 5 = true ∧ s.net.headNow = true ∧ s.loader = false ∧ r.crcOk = true ∧ r.flags < 2 ∧ r.cmd = 2 ∧ 0 < r.count ∧ r.count ≤ 63 ∧ ((s.hostPending < 8 ∧ s.hostFull = false) ∧ r.ecc.room ≠ Ecc.uncorrectable) ∧ r.addr / 16384 % 64 ≠ 0 ∧ (s.assigned (r.addr / 16384 % 64) = false ∨ s.lost (r.addr / 16384 % 64) = true)) ∧
    (∃ (s : State) (r : HostReq), s.rested ∧ s.on 5 = true ∧ s.net.headNow = true ∧ s.loader = false ∧ r.crcOk = true ∧ r.flags < 2 ∧ r.cmd = 2 ∧ 0 < r.count ∧ r.count ≤ 63 ∧ (¬(s.hostPending < 8 ∧ s.hostFull = false))) ∧
    (∃ (s : State) (r : HostReq), s.rested ∧ s.on 5 = true ∧ s.net.headNow = true ∧ s.loader = false ∧ r.crcOk = true ∧ r.flags < 2 ∧ r.cmd = 2 ∧ 0 < r.count ∧ r.count ≤ 63 ∧ (s.hostPending < 8 ∧ s.hostFull = false) ∧ r.ecc.room = Ecc.uncorrectable) ∧
    (∃ (s : State) (r : HostReq), s.rested ∧ s.on 5 = true ∧ s.net.headNow = true ∧ s.loader = false ∧ r.crcOk = true ∧ r.flags < 2 ∧ r.cmd = 1 ∧ r.count = 1 ∧ r.addr / 16384 % 64 = 0 ∧ isMailbox (r.addr % 16384) = true ∧ isReserved (r.addr % 16384) = false ∧ r.ecc.data = Ecc.uncorrectable) ∧
    (∃ (s : State) (r : HostReq), s.rested ∧ s.on 5 = true ∧ s.net.headNow = true ∧ s.loader = false ∧ r.crcOk = true ∧ r.flags < 2 ∧ r.cmd = 3 ∧ 0 < r.count ∧ r.count ≤ 63 ∧ s.get F.CHN_HOST_CFG.AUTH_REQ = 0 ∧ ((s.hostPending < 8 ∧ s.hostFull = false) ∧ r.ecc.room ≠ Ecc.uncorrectable) ∧ (r.addr / 16384 % 64 ≠ 0 ∧ s.assigned (r.addr / 16384 % 64) = true ∧ s.lost (r.addr / 16384 % 64) = false) ∧ r.data.length = r.count) ∧
    (∃ (s : State) (r : HostReq), s.rested ∧ s.on 5 = true ∧ s.net.headNow = true ∧ s.loader = false ∧ r.crcOk = true ∧ r.flags < 2 ∧ r.cmd = 3 ∧ 0 < r.count ∧ r.count ≤ 63 ∧ ¬s.get F.CHN_HOST_CFG.AUTH_REQ = 0 ∧ s.authOk r r.count = false) ∧
    (∃ (s : State) (r : HostReq), s.rested ∧ s.on 5 = true ∧ s.net.headNow = true ∧ s.loader = false ∧ r.crcOk = true ∧ r.flags < 2 ∧ r.cmd = 4 ∧ r.count = 1 ∧ s.get F.CHN_HOST_CFG.AUTH_REQ = 0 ∧ ((s.hostPending < 8 ∧ s.hostFull = false) ∧ r.ecc.room ≠ Ecc.uncorrectable) ∧ (r.addr / 16384 % 64 ≠ 0 ∧ s.assigned (r.addr / 16384 % 64) = true ∧ s.lost (r.addr / 16384 % 64) = false) ∧ r.data.length = 2) ∧
    (∃ (s : State) (r : HostReq) (x : HostResult) (xs : List HostResult), s.rested ∧ s.on 5 = true ∧ s.net.headNow = true ∧ s.loader = false ∧ r.crcOk = true ∧ r.flags < 2 ∧ r.cmd = 5 ∧ r.count = 0 ∧ s.host.results = x :: xs) ∧
    (∃ (s : State) (r : HostReq), s.rested ∧ s.on 5 = true ∧ s.net.headNow = true ∧ s.loader = false ∧ r.crcOk = true ∧ r.flags < 2 ∧ r.cmd = 5 ∧ r.count = 0 ∧ s.host.results = []) ∧
    (∃ (s : State) (r : HostReq), s.rested ∧ s.on 5 = true ∧ s.net.headNow = true ∧ s.loader = false ∧ r.crcOk = true ∧ r.flags < 2 ∧ r.cmd = 6 ∧ 0 < r.count ∧ r.count ≤ 1024) ∧
    (∃ (s : State) (r : HostReq), s.rested ∧ s.on 5 = true ∧ s.net.headNow = true ∧ s.loader = false ∧ r.crcOk = true ∧ r.flags < 2 ∧ r.cmd = 7 ∧ r.count = 0) ∧
    (∃ (s : State) (r : HostReq) (v : Word), s.rested ∧ s.on 5 = true ∧ s.net.headNow = true ∧ s.loader = false ∧ r.crcOk = true ∧ r.flags < 2 ∧ r.cmd = 8 ∧ r.count = 1 ∧ s.get F.CHN_HOST_CFG.AUTH_REQ = 0 ∧ ((s.hostPending < 8 ∧ s.hostFull = false) ∧ r.ecc.room ≠ Ecc.uncorrectable) ∧ r.data = [v] ∧ r.addr % 16384 ∈ codeRegs) ∧
    (∃ (s : State) (r : HostReq), s.rested ∧ s.on 5 = true ∧ s.net.headNow = true ∧ s.loader = false ∧ r.crcOk = true ∧ r.flags < 2 ∧ 8 < r.cmd ∧ r.cmd < 64) ∧
    (∃ (s : State) (r : HostReq), s.rested ∧ s.on 5 = true ∧ s.net.headNow = true ∧ s.loader = false ∧ r.crcOk = true ∧ r.flags < 2 ∧ 8 < r.cmd ∧ r.cmd < 64) :=
  ⟨⟨(head0).atRest, hr 1 1 A.PTR_EVT [], State.atRest_rested rfl, by decide, by decide, by decide, by decide, by decide, by decide, by decide, by decide, by decide⟩,
   ⟨(head0.raise F.STO_CEL_STAT.READY).atRest, hr 1 1024 (3 * 0x4000 + 0x3C00) [], State.atRest_rested rfl, by decide, by decide, by decide, by decide, by decide, by decide, by decide, by decide, by decide, by decide, by decide⟩,
   ⟨(head0).atRest, hr 2 64 0x4000 [], State.atRest_rested rfl, by decide, by decide, by decide, by decide, by decide, by decide, by decide⟩,
   ⟨(head0).atRest, hr 2 0 0x4000 [], State.atRest_rested rfl, by decide, by decide, by decide, by decide, by decide, by decide, by decide⟩,
   ⟨(head0.onHost fun h => { h with results := List.replicate 7 default }).atRest, hr 2 63 0x4000 [], State.atRest_rested rfl, by decide, by decide, by decide, by decide, by decide, by decide, by decide, by decide, by decide, by decide⟩,
   ⟨(head0).atRest, hr 2 1 (63 * 0x4000) [], State.atRest_rested rfl, by decide, by decide, by decide, by decide, by decide, by decide, by decide, by decide, by decide, by decide, by decide⟩,
   ⟨(head0.onHost fun h => { h with results := List.replicate 8 default }).atRest, hr 2 63 0x4000 [], State.atRest_rested rfl, by decide, by decide, by decide, by decide, by decide, by decide, by decide, by decide, by decide⟩,
   ⟨(head0).atRest, { hr 2 63 (0x4000) [] with ecc := { room := .uncorrectable } }, State.atRest_rested rfl, by decide, by decide, by decide, by decide, by decide, by decide, by decide, by decide, by decide, by decide⟩,
   ⟨(head0).atRest, { hr 1 1 (0x3FFF) [] with ecc := { data := .uncorrectable } }, State.atRest_rested rfl, by decide, by decide, by decide, by decide, by decide, by decide, by decide, by decide, by decide, by decide, by decide⟩,
   ⟨(head0).atRest, hr 3 2 0x4000 [1, 2], State.atRest_rested rfl, by decide, by decide, by decide, by decide, by decide, by decide, by decide, by decide, by decide, by decide, by decide, by decide⟩,
   ⟨(head0.put F.CHN_HOST_CFG.AUTH_REQ 1).atRest, hr 3 1 0x4000 [1], State.atRest_rested rfl, by decide, by decide, by decide, by decide, by decide, by decide, by decide, by decide, by decide, by decide⟩,
   ⟨(head0).atRest, hr 4 1 0x4000 [1, 2], State.atRest_rested rfl, by decide, by decide, by decide, by decide, by decide, by decide, by decide, by decide, by decide, by decide, by decide⟩,
   ⟨(head0.onHost fun h => { h with results := [default] }).atRest, hr 5 0 0 [], default, [], State.atRest_rested rfl, by decide, by decide, by decide, by decide, by decide, by decide, by decide, by decide⟩,
   ⟨(head0).atRest, hr 5 0 0 [], State.atRest_rested rfl, by decide, by decide, by decide, by decide, by decide, by decide, by decide, by decide⟩,
   ⟨(head0).atRest, hr 6 1024 0 [], State.atRest_rested rfl, by decide, by decide, by decide, by decide, by decide, by decide, by decide, by decide⟩,
   ⟨(head0).atRest, hr 7 0 0 [], State.atRest_rested rfl, by decide, by decide, by decide, by decide, by decide, by decide, by decide⟩,
   ⟨(head0).atRest, hr 8 1 A.PTR_EVT [1], 1, State.atRest_rested rfl, by decide, by decide, by decide, by decide, by decide, by decide, by decide, by decide, by decide, by decide, by decide⟩,
   ⟨(head0).atRest, hr 9 0 0 [], State.atRest_rested rfl, by decide, by decide, by decide, by decide, by decide, by decide, by decide⟩,
   ⟨(head0).atRest, hr 63 0 0 [], State.atRest_rested rfl, by decide, by decide, by decide, by decide, by decide, by decide, by decide⟩⟩

/-- Meets the hypotheses of `Obligations.LoaderFlash`. -/
theorem test_w_LoaderFlash :
    (∃ (s : State) (r : HostReq), s.rested ∧ s.on 5 = true ∧ (s.loader = true ∧ r.crcOk = true ∧ r.flags < 2) ∧ r.cmd = 64 ∧ r.count = 0) ∧
    (∃ (s : State) (r : HostReq), s.rested ∧ s.on 5 = true ∧ (s.loader = true ∧ r.crcOk = true ∧ r.flags < 2) ∧ r.cmd = 65 ∧ r.count = 0 ∧ r.addr % flashSize % 4096 = 0 ∧ s.tru.hostKey ≠ KeyReg.blank ∧ s.authOk r 0 = false) ∧
    (∃ (s : State) (r : HostReq), s.rested ∧ s.on 5 = true ∧ (s.loader = true ∧ r.crcOk = true ∧ r.flags < 2) ∧ r.cmd = 65 ∧ r.count = 0 ∧ r.addr % flashSize % 4096 = 0 ∧ (s.tru.hostKey = KeyReg.blank ∨ s.authOk r 0 = true) ∧ s.boot.flashOp.isSome = true) ∧
    (∃ (s : State) (r : HostReq), s.rested ∧ s.on 5 = true ∧ (s.loader = true ∧ r.crcOk = true ∧ r.flags < 2) ∧ r.cmd = 65 ∧ r.count = 0 ∧ r.addr % flashSize % 4096 = 0 ∧ (s.tru.hostKey = KeyReg.blank ∨ s.authOk r 0 = true) ∧ s.boot.flashOp = none) ∧
    (∃ (s : State) (r : HostReq), s.rested ∧ s.on 5 = true ∧ (s.loader = true ∧ r.crcOk = true ∧ r.flags < 2) ∧ r.cmd = 66 ∧ 0 < r.count ∧ r.count ≤ 64 ∧ r.addr % flashSize % 4 = 0 ∧ r.addr % flashSize % 256 + 4 * r.count ≤ 256 ∧ r.data.length = r.count ∧ s.tru.hostKey ≠ KeyReg.blank ∧ s.authOk r r.count = false) ∧
    (∃ (s : State) (r : HostReq), s.rested ∧ s.on 5 = true ∧ (s.loader = true ∧ r.crcOk = true ∧ r.flags < 2) ∧ r.cmd = 66 ∧ 0 < r.count ∧ r.count ≤ 64 ∧ r.addr % flashSize % 4 = 0 ∧ r.addr % flashSize % 256 + 4 * r.count ≤ 256 ∧ r.data.length = r.count ∧ (s.tru.hostKey = KeyReg.blank ∨ s.authOk r r.count = true) ∧ s.boot.flashOp.isSome = true) ∧
    (∃ (s : State) (r : HostReq), s.rested ∧ s.on 5 = true ∧ (s.loader = true ∧ r.crcOk = true ∧ r.flags < 2) ∧ r.cmd = 66 ∧ 0 < r.count ∧ r.count ≤ 64 ∧ r.addr % flashSize % 4 = 0 ∧ r.addr % flashSize % 256 + 4 * r.count ≤ 256 ∧ r.data.length = r.count ∧ (s.tru.hostKey = KeyReg.blank ∨ s.authOk r r.count = true) ∧ s.boot.flashOp = none) ∧
    (∃ (s : State) (r : HostReq), s.rested ∧ s.on 5 = true ∧ (s.loader = true ∧ r.crcOk = true ∧ r.flags < 2) ∧ r.cmd = 67 ∧ 0 < r.count ∧ r.count ≤ 1024 ∧ r.addr % flashSize + 4 * r.count ≤ flashSize) ∧
    (∃ (s : State) (r : HostReq), s.rested ∧ s.on 5 = true ∧ (s.loader = true ∧ r.crcOk = true ∧ r.flags < 2) ∧ r.cmd = 68 ∧ r.count = 0 ∧ s.tru.hostKey ≠ KeyReg.blank ∧ s.authOk r 0 = false) ∧
    (∃ (s : State) (r : HostReq), s.rested ∧ s.on 5 = true ∧ (s.loader = true ∧ r.crcOk = true ∧ r.flags < 2) ∧ r.cmd = 68 ∧ r.count = 0 ∧ (s.tru.hostKey = KeyReg.blank ∨ s.authOk r 0 = true) ∧ s.boot.flashOp.isSome = true) ∧
    (∃ (s : State) (r : HostReq), s.rested ∧ s.on 5 = true ∧ (s.loader = true ∧ r.crcOk = true ∧ r.flags < 2) ∧ r.cmd = 68 ∧ r.count = 0 ∧ (s.tru.hostKey = KeyReg.blank ∨ s.authOk r 0 = true) ∧ s.boot.flashOp = none) ∧
    (∃ (s : State), s.rested ∧ s.on 5 = true ∧ s.boot.flashOp = none) ∧
    (∃ (s : State) (b : Nat), s.rested ∧ s.on 5 = true ∧ s.boot.flashOp = some (FlashOp.erase b)) ∧
    (∃ (s : State) (b : Nat) (ws : List Word), s.rested ∧ s.on 5 = true ∧ s.boot.flashOp = some (FlashOp.program b ws)) :=
  ⟨⟨(load0).atRest, hr 64 0 0 [], State.atRest_rested rfl, by decide, by decide, by decide, by decide⟩,
   ⟨(load0.onTru fun t => { t with hostKey := .unusable }).atRest, hr 65 0 0xFFF000 [], State.atRest_rested rfl, by decide, by decide, by decide, by decide, by decide, by decide, by decide⟩,
   ⟨(load0.onBoot fun b => { b with flashOp := some (.erase 0) }).atRest, hr 65 0 0xFFF000 [], State.atRest_rested rfl, by decide, by decide, by decide, by decide, by decide, by decide, by decide⟩,
   ⟨(load0).atRest, hr 65 0 0xFFF000 [], State.atRest_rested rfl, by decide, by decide, by decide, by decide, by decide, by decide, by decide⟩,
   ⟨(load0.onTru fun t => { t with hostKey := .unusable }).atRest, hr 66 64 0xFFFF00 (List.replicate 64 0), State.atRest_rested rfl, by decide, by decide, by decide, by decide, by decide, by decide, by decide, by decide, by decide, by decide⟩,
   ⟨(load0.onBoot fun b => { b with flashOp := some (.erase 0) }).atRest, hr 66 64 0xFFFF00 (List.replicate 64 0), State.atRest_rested rfl, by decide, by decide, by decide, by decide, by decide, by decide, by decide, by decide, by decide, by decide⟩,
   ⟨(load0).atRest, hr 66 64 0xFFFF00 (List.replicate 64 0), State.atRest_rested rfl, by decide, by decide, by decide, by decide, by decide, by decide, by decide, by decide, by decide, by decide⟩,
   ⟨(load0).atRest, hr 67 1024 0xFFF000 [], State.atRest_rested rfl, by decide, by decide, by decide, by decide, by decide, by decide⟩,
   ⟨(load0.onTru fun t => { t with hostKey := .unusable }).atRest, hr 68 0 0 [], State.atRest_rested rfl, by decide, by decide, by decide, by decide, by decide, by decide⟩,
   ⟨(load0.onBoot fun b => { b with flashOp := some (.erase 0) }).atRest, hr 68 0 0 [], State.atRest_rested rfl, by decide, by decide, by decide, by decide, by decide, by decide⟩,
   ⟨(load0).atRest, hr 68 0 0 [], State.atRest_rested rfl, by decide, by decide, by decide, by decide, by decide, by decide⟩,
   ⟨(load0).atRest, State.atRest_rested rfl, by decide, by decide⟩,
   ⟨(load0.onBoot fun b => { b with flashOp := some (.erase 0) }).atRest, 0, State.atRest_rested rfl, by decide, by decide⟩,
   ⟨(load0.onBoot fun b => { b with flashOp := some (.program 0 [1]) }).atRest, 0, [1], State.atRest_rested rfl, by decide, by decide⟩⟩

set_option maxRecDepth 20000 in
/-- Meets the hypotheses of `Obligations.StartSequence`. -/
theorem test_w_StartSequence :
    (∃ (s : State), s.rested ∧ s.ptr.dev = DevState.start ∧ s.boot.step = BootStep.entry ∧ s.ptr.nrstLow = false) ∧
    (∃ (s : State), s.rested ∧ s.boot.step ≠ BootStep.entry) ∧
    (∃ (s : State), s.rested ∧ s.boot.step = BootStep.pll) ∧
    (∃ (s : State), s.rested ∧ s.boot.step ≠ BootStep.pll) ∧
    (∃ (s : State), s.rested ∧ s.loading = false ∧ s.on 4 = true ∧ s.on 5 = true) ∧
    (∃ (s : State) (e : Ecc), s.rested ∧ s.boot.step = BootStep.copyA ∧ (copyJudge (copyBase false) (e == Ecc.uncorrectable) s).fst ≠ 0) ∧
    (∃ (s : State) (e : Ecc), s.rested ∧ s.boot.step = BootStep.copyB ∧ (copyJudge (copyBase true) (e == Ecc.uncorrectable) s).fst ≠ 0) ∧
    (∃ (s : State) (second : Bool) (e : Ecc), s.rested ∧ (s.boot.step = if second = true then BootStep.copyB else BootStep.copyA) ∧ (copyJudge (copyBase second) (e == Ecc.uncorrectable) s).fst = 0 ∧ s.ptr.dev = DevState.start ∧ secLen (s.flashWords (copyBase second) 20) 0 = 0 ∧ secLen (s.flashWords (copyBase second) 20) 4 = 0 ∧ secLen (s.flashWords (copyBase second) 20) 5 = 0) :=
  ⟨⟨(State.reset).atRest, State.atRest_rested rfl, by decide, by decide, by decide⟩,
   ⟨(s0.onBoot fun b => { b with step := .done }).atRest, State.atRest_rested rfl, by decide⟩,
   ⟨(s0.onBoot fun b => { b with step := .pll }).atRest, State.atRest_rested rfl, by decide⟩,
   ⟨(s0).atRest, State.atRest_rested rfl, by decide⟩,
   ⟨(s0).atRest, State.atRest_rested rfl, by decide, by decide, by decide⟩,
   ⟨(s0.onBoot fun b => { b with step := .copyA }).atRest, .clean, State.atRest_rested rfl, by decide, by decide⟩,
   ⟨(s0.onBoot fun b => { b with step := .copyB }).atRest, .clean, State.atRest_rested rfl, by decide, by decide⟩,
   ⟨((s0.inState .start).onBoot fun b => { b with step := .copyA, flash := Mem.setWords 0xFF [] 0 tinyImage }).atRest, false, .corrected, State.atRest_rested rfl, by decide, by decide +kernel, by decide, by decide +kernel, by decide +kernel, by decide +kernel⟩⟩

/-- Meets the hypotheses of `Obligations.SatTransactions`. -/
theorem test_w_SatTransactions :
    (∃ (s : State) (v : Word), s.rested ∧ s.on 5 = true ∧ F.SAT_XCTL.GO.read v = 1 ∧ (¬(s.sat.work = SatWork.xact ∨ s.sat.search.isSome = true)) ∧ (¬(F.SAT_XCTL.BC.read v = 1 ∧ F.SAT_XCTL.NREP.read v ≠ 0)) ∧ s.bit F.SAT_STAT.SHORT = true) ∧
    (∃ (s : State) (v : Word), s.rested ∧ s.on 5 = true ∧ F.SAT_XCTL.GO.read v = 1 ∧ (¬(s.sat.work = SatWork.xact ∨ s.sat.search.isSome = true)) ∧ (¬(F.SAT_XCTL.BC.read v = 1 ∧ F.SAT_XCTL.NREP.read v ≠ 0)) ∧ s.bit F.SAT_STAT.SHORT = false ∧ s.satMay = false) ∧
    (∃ (s : State) (v : Word), s.rested ∧ s.on 5 = true ∧ F.SAT_XCTL.GO.read v = 1 ∧ (¬(s.sat.work = SatWork.xact ∨ s.sat.search.isSome = true)) ∧ (¬(F.SAT_XCTL.BC.read v = 1 ∧ F.SAT_XCTL.NREP.read v ≠ 0)) ∧ s.satRuns = true ∧ s.sat.work = SatWork.idle ∧ s.sat.round = none ∧ F.SAT_XCTL.BC.read v = 1) ∧
    (∃ (s : State) (v : Word), s.rested ∧ s.on 5 = true ∧ F.SAT_XCTL.GO.read v = 1 ∧ (¬(s.sat.work = SatWork.xact ∨ s.sat.search.isSome = true)) ∧ (¬(F.SAT_XCTL.BC.read v = 1 ∧ F.SAT_XCTL.NREP.read v ≠ 0)) ∧ s.satRuns = true ∧ s.sat.work = SatWork.idle ∧ s.sat.round = none ∧ F.SAT_XCTL.BC.read v = 0 ∧ s.podValid (F.SAT_XCTL.POD.read v) = true) ∧
    (∃ (s : State) (v : Word), s.rested ∧ s.on 5 = true ∧ F.SAT_XCTL.GO.read v = 1 ∧ (¬(s.sat.work = SatWork.xact ∨ s.sat.search.isSome = true)) ∧ (¬(F.SAT_XCTL.BC.read v = 1 ∧ F.SAT_XCTL.NREP.read v ≠ 0)) ∧ s.satRuns = true ∧ s.sat.work = SatWork.idle ∧ s.sat.round = none ∧ F.SAT_XCTL.BC.read v = 0 ∧ s.podValid (F.SAT_XCTL.POD.read v) = false) ∧
    (∃ (s : State) (v : Word), s.rested ∧ s.on 5 = true ∧ F.SAT_XCTL.GO.read v = 1 ∧ s.satRuns = true ∧ (¬(s.sat.work = SatWork.xact ∨ s.sat.search.isSome = true)) ∧ (¬(F.SAT_XCTL.BC.read v = 1 ∧ F.SAT_XCTL.NREP.read v ≠ 0)) ∧ (s.sat.work ≠ SatWork.idle ∨ s.sat.round.isSome = true)) ∧
    (∃ (s : State) (v : Word), s.rested ∧ s.on 5 = true ∧ F.SAT_XCTL.GO.read v = 0 ∧ (¬(s.sat.work = SatWork.xact ∨ s.sat.search.isSome = true))) ∧
    (∃ (s : State) (v : Word), s.rested ∧ s.on 5 = true ∧ ((s.sat.work = SatWork.xact ∨ s.sat.search.isSome = true) ∨ F.SAT_XCTL.GO.read v = 1 ∧ F.SAT_XCTL.BC.read v = 1 ∧ F.SAT_XCTL.NREP.read v ≠ 0)) ∧
    (∃ (s : State) (v : Word), s.rested ∧ s.on 5 = true ∧ ((s.sat.work = SatWork.xact ∨ s.sat.search.isSome = true) ∨ F.SAT_XCTL.GO.read v = 1 ∧ F.SAT_XCTL.BC.read v = 1 ∧ F.SAT_XCTL.NREP.read v ≠ 0)) ∧
    (∃ (s : State) (o : SatObs), s.rested ∧ s.sat.work = SatWork.xact ∧ s.sat.spu = false ∧ s.sat.xactHeld = false ∧ (¬(o.present = true ∨ o.attn = true))) ∧
    (∃ (s : State) (o : SatObs), s.rested ∧ s.sat.work = SatWork.xact ∧ s.sat.spu = false ∧ s.sat.xactHeld = false ∧ (o.present = true ∨ o.attn = true) ∧ s.get F.SAT_XCTL.NREP ≠ 0 ∧ (crc8 (List.take (s.get F.SAT_XCTL.NREP) (padTo 255 (s.get F.SAT_XCTL.NREP + 1) o.reply)) = (padTo 255 (s.get F.SAT_XCTL.NREP + 1) o.reply).getD (s.get F.SAT_XCTL.NREP) 0 ∧ ∃ b, b ∈ padTo 255 (s.get F.SAT_XCTL.NREP + 1) o.reply ∧ b ≠ 255)) ∧
    (∃ (s : State) (o : SatObs), s.rested ∧ s.sat.work = SatWork.xact ∧ s.sat.spu = false ∧ s.sat.xactHeld = false ∧ (o.present = true ∨ o.attn = true) ∧ s.get F.SAT_XCTL.NREP ≠ 0 ∧ (¬(crc8 (List.take (s.get F.SAT_XCTL.NREP) (padTo 255 (s.get F.SAT_XCTL.NREP + 1) o.reply)) = (padTo 255 (s.get F.SAT_XCTL.NREP + 1) o.reply).getD (s.get F.SAT_XCTL.NREP) 0 ∧ ∃ b, b ∈ padTo 255 (s.get F.SAT_XCTL.NREP + 1) o.reply ∧ b ≠ 255)) ∧ s.sat.tries < F.SAT_CFG.RETRY.read s.sat.xcfg) ∧
    (∃ (s : State) (o : SatObs), s.rested ∧ s.sat.work = SatWork.xact ∧ s.sat.spu = false ∧ s.sat.xactHeld = false ∧ (o.present = true ∨ o.attn = true) ∧ s.get F.SAT_XCTL.NREP ≠ 0 ∧ (¬(crc8 (List.take (s.get F.SAT_XCTL.NREP) (padTo 255 (s.get F.SAT_XCTL.NREP + 1) o.reply)) = (padTo 255 (s.get F.SAT_XCTL.NREP + 1) o.reply).getD (s.get F.SAT_XCTL.NREP) 0 ∧ ∃ b, b ∈ padTo 255 (s.get F.SAT_XCTL.NREP + 1) o.reply ∧ b ≠ 255)) ∧ F.SAT_CFG.RETRY.read s.sat.xcfg ≤ s.sat.tries) ∧
    (∃ (s : State) (o : SatObs), s.rested ∧ s.sat.work = SatWork.xact ∧ s.sat.spu = false ∧ s.sat.xactHeld = false ∧ (o.present = true ∨ o.attn = true) ∧ s.get F.SAT_XCTL.NREP = 0 ∧ s.bit F.SAT_XCTL.SPU = false) ∧
    (∃ (s : State) (o : SatObs), s.rested ∧ s.sat.work = SatWork.xact ∧ s.sat.spu = false ∧ s.sat.xactHeld = false ∧ (o.present = true ∨ o.attn = true) ∧ s.get F.SAT_XCTL.NREP = 0 ∧ s.bit F.SAT_XCTL.SPU = true ∧ s.satRuns = true) ∧
    (∃ (s : State), s.rested ∧ s.sat.work = SatWork.xact ∧ s.sat.spu = true ∧ s.sat.xactHeld = false) ∧
    (∃ (s : State) (v : Word), s.rested ∧ s.on 5 = true ∧ ((s.sat.work = SatWork.xact ∨ s.sat.search.isSome = true) ∨ F.SAT_XCTL.GO.read v = 1 ∧ F.SAT_XCTL.BC.read v = 1 ∧ F.SAT_XCTL.NREP.read v ≠ 0)) :=
  ⟨⟨(sat0.raise F.SAT_STAT.SHORT).atRest, F.SAT_XCTL.GO.write 0 1, State.atRest_rested rfl, by decide, by decide, by decide, by decide, by decide⟩,
   ⟨(s0.put F.SAT_CTRL.EN 0).atRest, F.SAT_XCTL.GO.write 0 1, State.atRest_rested rfl, by decide, by decide, by decide, by decide, by decide, by decide⟩,
   ⟨(sat0).atRest, F.SAT_XCTL.BC.write (F.SAT_XCTL.GO.write 0 1) 1, State.atRest_rested rfl, by decide, by decide, by decide, by decide, by decide, by decide, by decide, by decide⟩,
   ⟨(sat0.setReg A.SAT_VALID 1).atRest, F.SAT_XCTL.GO.write 0 1, State.atRest_rested rfl, by decide, by decide, by decide, by decide, by decide, by decide, by decide, by decide, by decide⟩,
   ⟨(sat0).atRest, F.SAT_XCTL.GO.write 0 1, State.atRest_rested rfl, by decide, by decide, by decide, by decide, by decide, by decide, by decide, by decide, by decide⟩,
   ⟨(sat0.onSat fun x => { x with round := some [] }).atRest, F.SAT_XCTL.GO.write 0 1, State.atRest_rested rfl, by decide, by decide, by decide, by decide, by decide, by decide⟩,
   ⟨(sat0).atRest, 0, State.atRest_rested rfl, by decide, by decide, by decide⟩,
   ⟨(sat0.onSat fun x => { x with work := .xact }).atRest, F.SAT_XCTL.GO.write 0 1, State.atRest_rested rfl, by decide, by decide⟩,
   ⟨(sat0).atRest, F.SAT_XCTL.NREP.write (F.SAT_XCTL.BC.write (F.SAT_XCTL.GO.write 0 1) 1) 1, State.atRest_rested rfl, by decide, by decide⟩,
   ⟨(sat0.onSat fun x => { x with work := .xact }).atRest, so false false [], State.atRest_rested rfl, by decide, by decide, by decide, by decide⟩,
   ⟨((sat0.onSat fun x => { x with work := .xact }).put F.SAT_XCTL.NREP 1).atRest, so false true [0, 0xBD], State.atRest_rested rfl, by decide, by decide, by decide, by decide, by decide, by decide⟩,
   ⟨((sat0.onSat fun x => { x with work := .xact, xcfg := F.SAT_CFG.RETRY.write 0 1 }).put F.SAT_XCTL.NREP 1).atRest, so true false [0, 1], State.atRest_rested rfl, by decide, by decide, by decide, by decide, by decide, by decide, by decide⟩,
   ⟨((sat0.onSat fun x => { x with work := .xact, tries := 1, xcfg := F.SAT_CFG.RETRY.write 0 1 }).put F.SAT_XCTL.NREP 1).atRest, so true false [0, 1], State.atRest_rested rfl, by decide, by decide, by decide, by decide, by decide, by decide, by decide⟩,
   ⟨((sat0.onSat fun x => { x with work := .xact }).put F.SAT_XCTL.NREP 0).atRest, so true false [], State.atRest_rested rfl, by decide, by decide, by decide, by decide, by decide, by decide⟩,
   ⟨(((sat0.onSat fun x => { x with work := .xact }).put F.SAT_XCTL.NREP 0).put F.SAT_XCTL.SPU 1).atRest, so true false [], State.atRest_rested rfl, by decide, by decide, by decide, by decide, by decide, by decide, by decide⟩,
   ⟨(sat0.onSat fun x => { x with work := .xact, spu := true }).atRest, State.atRest_rested rfl, by decide, by decide, by decide⟩,
   ⟨(sat0.onSat fun x => { x with work := .search, search := some default }).atRest, F.SAT_XCTL.GO.write 0 1, State.atRest_rested rfl, by decide, by decide⟩⟩

/-- Meets the hypotheses of `Obligations.SatPolls`. -/
theorem test_w_SatPolls :
    (∃ (s : State) (o : SatObs), s.rested ∧ s.satRuns = true ∧ s.bit F.SAT_CTRL.POLL = true ∧ s.sat.work = SatWork.idle ∧ s.sat.round = none ∧ (o.present = true ∨ o.attn = true)) ∧
    (∃ (s : State), s.rested ∧ s.satRuns = true ∧ s.bit F.SAT_CTRL.POLL = true ∧ s.satActive = true) ∧
    (∃ (s : State) (o : SatObs), s.rested ∧ s.satRuns = true ∧ s.bit F.SAT_CTRL.POLL = true ∧ s.sat.work = SatWork.idle ∧ s.sat.round = none ∧ s.sat.xactHeld = false ∧ o.present = false ∧ o.attn = false) ∧
    (∃ (s : State), s.rested ∧ (s.satRuns = false ∨ s.bit F.SAT_CTRL.POLL = false)) ∧
    (∃ (s : State) (ns : List Nat) (rest : List Nat) (n : Nat), s.rested ∧ s.satRuns = true ∧ s.sat.work = SatWork.sample ∧ s.sat.spu = true ∧ s.sat.xactHeld = false ∧ s.sat.round = some ns ∧ List.filter s.podValid ns = n :: rest) ∧
    (∃ (s : State) (o : SatObs) (n : Nat), s.rested ∧ s.sat.work = SatWork.read n ∧ n < 32 ∧ ((o.present = true ∨ o.attn = true) ∧ crc8 (List.take 6 (padTo 255 7 o.reply)) = (padTo 255 7 o.reply).getD 6 0 ∧ ∃ b, b ∈ padTo 255 7 o.reply ∧ b ≠ 255)) ∧
    (∃ (s : State) (o : SatObs) (n : Nat), s.rested ∧ s.sat.work = SatWork.read n ∧ n < 32 ∧ o.present = false ∧ o.attn = false) ∧
    (∃ (s : State) (o : SatObs) (n : Nat), s.rested ∧ s.sat.work = SatWork.found n ∧ n < 32 ∧ s.satRuns = true ∧ ((o.present = true ∨ o.attn = true) ∧ crc8 (List.take 6 (padTo 255 7 o.reply)) = (padTo 255 7 o.reply).getD 6 0 ∧ ∃ b, b ∈ padTo 255 7 o.reply ∧ b ≠ 255)) ∧
    (∃ (s : State), s.rested ∧ s.satRuns = true ∧ (s.satMay = false ∨ s.bit F.SAT_STAT.SHORT = false) ∧ s.on 5 = true ∧ s.bit F.SAT_CTRL.EN = true) ∧
    (∃ (s : State), s.rested ∧ s.satMay = true ∧ s.bit F.SAT_STAT.SHORT = true) :=
  ⟨⟨(sat0.put F.SAT_CTRL.POLL 1).atRest, so false true [], State.atRest_rested rfl, by decide, by decide, by decide, by decide, by decide⟩,
   ⟨((sat0.put F.SAT_CTRL.POLL 1).onSat fun x => { x with work := .xact }).atRest, State.atRest_rested rfl, by decide, by decide, by decide⟩,
   ⟨(sat0.put F.SAT_CTRL.POLL 1).atRest, so false false [], State.atRest_rested rfl, by decide, by decide, by decide, by decide, by decide, by decide, by decide⟩,
   ⟨(s0.put F.SAT_CTRL.EN 0).atRest, State.atRest_rested rfl, by decide⟩,
   ⟨((sat0.setReg A.SAT_VALID 0x80000000).onSat fun x => { x with work := .sample, spu := true, round := some [0, 31] }).atRest, [0, 31], [], 31, State.atRest_rested rfl, by decide, by decide, by decide, by decide, by decide, by decide⟩,
   ⟨(sat0.onSat fun x => { x with work := .read 31 }).atRest, so true false [0, 0, 0, 0, 0, 0, 0x9F], 31, State.atRest_rested rfl, by decide, by decide, by decide +kernel⟩,
   ⟨(sat0.onSat fun x => { x with work := .read 31 }).atRest, so false false [0, 0, 0, 0, 0, 0, 0x9F], 31, State.atRest_rested rfl, by decide, by decide, by decide, by decide⟩,
   ⟨(sat0.onSat fun x => { x with work := .found 31 }).atRest, so true false [0, 0, 0, 0, 0, 0, 0x9F], 31, State.atRest_rested rfl, by decide, by decide, by decide, by decide +kernel⟩,
   ⟨(sat0).atRest, State.atRest_rested rfl, by decide, by decide, by decide, by decide⟩,
   ⟨(sat0.raise F.SAT_STAT.SHORT).atRest, State.atRest_rested rfl, by decide, by decide⟩⟩

/-- Meets the hypotheses of `Obligations.SatSearches`. -/
theorem test_w_SatSearches :
    (∃ (s : State), s.rested ∧ s.on 5 = true ∧ s.satRuns = true ∧ (¬(s.sat.work = SatWork.xact ∨ s.sat.search.isSome = true)) ∧ s.sat.work = SatWork.idle ∧ s.sat.round = none) ∧
    (∃ (s : State), s.rested ∧ s.on 5 = true ∧ s.satRuns = true ∧ (¬(s.sat.work = SatWork.xact ∨ s.sat.search.isSome = true)) ∧ (s.sat.work ≠ SatWork.idle ∨ s.sat.round.isSome = true)) ∧
    (∃ (s : State), s.rested ∧ s.on 5 = true ∧ (s.sat.work = SatWork.xact ∨ s.sat.search.isSome = true)) ∧
    (∃ (s : State), s.rested ∧ s.on 5 = true ∧ s.satRuns = false ∧ (¬(s.sat.work = SatWork.xact ∨ s.sat.search.isSome = true))) ∧
    (∃ (s : State) (cells : List (BitVec 16)) (q : SatSearch) (id : List (BitVec 4)), s.rested ∧ s.sat.work = SatWork.search ∧ s.sat.search = some q ∧ searchSteps (padTo (BitVec.allOnes 16) 16 cells) (q.branches.headD []) [] q.branches.tail = some (id, []) ∧ crc8 (List.take 7 ((wordBytes (nibblesWord (List.take 8 id))).reverse ++ (wordBytes (nibblesWord (List.drop 8 id))).reverse)) = ((wordBytes (nibblesWord (List.take 8 id))).reverse ++ (wordBytes (nibblesWord (List.drop 8 id))).reverse).getD 7 0 ∧ (∃ n, n < 32 ∧ s.podValid n = false)) ∧
    (∃ (s : State) (cells : List (BitVec 16)) (q : SatSearch), s.rested ∧ s.sat.work = SatWork.search ∧ s.sat.search = some q ∧ searchSteps (padTo (BitVec.allOnes 16) 16 cells) (q.branches.headD []) [] q.branches.tail = none) :=
  ⟨⟨(sat0).atRest, State.atRest_rested rfl, by decide, by decide, by decide, by decide, by decide⟩,
   ⟨(sat0.onSat fun x => { x with round := some [] }).atRest, State.atRest_rested rfl, by decide, by decide, by decide, by decide⟩,
   ⟨(sat0.onSat fun x => { x with work := .xact }).atRest, State.atRest_rested rfl, by decide, by decide⟩,
   ⟨(s0.put F.SAT_CTRL.EN 0).atRest, State.atRest_rested rfl, by decide, by decide, by decide⟩,
   ⟨(sat0.onSat fun x => { x with work := .search, search := some default }).atRest, List.replicate 14 0xFFFE ++ [0xFFBF, 0xFBFF], default, List.replicate 14 0 ++ [6, 10], State.atRest_rested rfl, by decide, by decide, by decide, by decide +kernel, ⟨31, by decide, by decide⟩⟩,
   ⟨(sat0.onSat fun x => { x with work := .search, search := some default }).atRest, [], default, State.atRest_rested rfl, by decide, by decide, by decide⟩⟩

/-- Meets the hypotheses of `Obligations.GuardFaults`. -/
theorem test_w_GuardFaults :
    (∃ (s : State) (n : Nat) (x : Int) (y : Int), s.rested ∧ s.on 6 = true ∧ n < 24 ∧ s.grdWatches (GuardCond.ov n) = true ∧ s.grdJudges (GuardCond.ov n) = true ∧ s.grdShows 0 (⟨GuardCond.ov n, x, y⟩ : GuardSample) = true ∧ s.filtCount (GuardCond.ov n) + 1 = s.filtNeeds (GuardCond.ov n)) ∧
    (∃ (s : State) (n : Nat) (x : Int) (y : Int), s.rested ∧ s.on 6 = true ∧ n < 24 ∧ s.grdWatches (GuardCond.uv n) = true ∧ s.grdJudges (GuardCond.uv n) = true ∧ s.grdShows 0 (⟨GuardCond.uv n, x, y⟩ : GuardSample) = true ∧ s.filtCount (GuardCond.uv n) + 1 = s.filtNeeds (GuardCond.uv n)) ∧
    (∃ (s : State) (k : Nat) (x : Int) (y : Int), s.rested ∧ s.on 6 = true ∧ k < 4 ∧ s.grdWatches (GuardCond.th k) = true ∧ s.grdJudges (GuardCond.th k) = true ∧ s.grdShows 0 (⟨GuardCond.th k, x, y⟩ : GuardSample) = true ∧ s.filtCount (GuardCond.th k) + 1 = s.filtNeeds (GuardCond.th k)) ∧
    (∃ (s : State) (pos : Bool) (x : Int) (y : Int), s.rested ∧ s.on 6 = true ∧ s.grdWatches (GuardCond.oc pos) = true ∧ s.grdJudges (GuardCond.oc pos) = true ∧ s.grdShows 0 (⟨GuardCond.oc pos, x, y⟩ : GuardSample) = true ∧ s.filtCount (GuardCond.oc pos) + 1 = s.filtNeeds (GuardCond.oc pos)) ∧
    (∃ (s : State) (pos : Bool) (x : Int) (y : Int), s.rested ∧ s.on 6 = true ∧ s.grdWatches (GuardCond.oc pos) = true ∧ s.grdJudges (GuardCond.oc pos) = true ∧ s.grdShows 0 (⟨GuardCond.oc pos, x, y⟩ : GuardSample) = true ∧ s.filtCount (GuardCond.oc pos) + 1 = s.filtNeeds (GuardCond.oc pos)) ∧
    (∃ (s : State) (x : Int) (y : Int), s.rested ∧ s.on 6 = true ∧ s.grdWatches (GuardCond.die) = true ∧ s.grdJudges (GuardCond.die) = true ∧ s.grdShows 0 (⟨GuardCond.die, x, y⟩ : GuardSample) = true ∧ s.filtCount (GuardCond.die) + 1 = s.filtNeeds (GuardCond.die)) ∧
    (∃ (s : State) (m : GuardSample), s.rested ∧ s.on 6 = true ∧ s.grdWatches m.c = true ∧ s.filtTrips m = false) ∧
    (∃ (s : State) (m : GuardSample), s.rested ∧ s.on 6 = true ∧ s.grdWatches m.c = false) ∧
    (∃ (s : State) (n : Nat), s.rested ∧ s.on 6 = true ∧ (n < 875000 ∨ 1125000 < n)) ∧
    (∃ (s : State) (n : Nat), s.rested ∧ s.on 6 = true ∧ (n < 875000 ∨ 1125000 < n)) ∧
    (∃ (s : State) (n : Nat), s.rested ∧ s.on 6 = true ∧ 875000 ≤ n ∧ n ≤ 1125000) ∧
    (∃ (s : State) (n : Nat), s.rested ∧ s.on 6 = true ∧ 875000 ≤ n ∧ n ≤ 1125000) ∧
    (∃ (s : State) (k : Nat), s.rested ∧ s.on 6 = true ∧ s.grdJudging = true ∧ s.pairEn k = true ∧ k < 4 ∧ s.discLimit k ≤ s.grd.disc.getD k 0 ∧ s.soaExpected = false ∧ s.grdOk = false ∧ s.on 5 = true) ∧
    (∃ (s : State), s.rested ∧ s.on 6 = true ∧ s.soaExpected = true ∧ s.grdOk = true) :=
  ⟨⟨(grd0.onGrd fun g => { g with filt := [⟨⟨.ov 23, 5000001, 10⟩, 24⟩] }).atRest, 23, 5000001, 0, State.atRest_rested rfl, by decide, by decide, by decide, by decide, by decide, by decide⟩,
   ⟨(grd0.onGrd fun g => { g with filt := [⟨⟨.uv 23, 999999, 10⟩, 24⟩] }).atRest, 23, 999999, 0, State.atRest_rested rfl, by decide, by decide, by decide, by decide, by decide, by decide⟩,
   ⟨(grd0.onGrd fun g => { g with filt := [⟨⟨.th 3, 1, 10⟩, 24⟩] }).atRest, 3, 1, 10, State.atRest_rested rfl, by decide, by decide, by decide, by decide, by decide, by decide⟩,
   ⟨(grd0).atRest, true, 1, 0, State.atRest_rested rfl, by decide, by decide, by decide, by decide, by decide⟩,
   ⟨(grd0).atRest, false, -1, 0, State.atRest_rested rfl, by decide, by decide, by decide, by decide, by decide⟩,
   ⟨((grd0.onGrd fun g => { g with filt := [⟨⟨.die, 0, 10⟩, 99⟩] }).inState .test).atRest, 15801, 0, State.atRest_rested rfl, by decide, by decide, by decide, by show decide (15000 + ((Config.dieTrip % 801 : Nat) : Int) ≤ 15801) = true; exact decide_eq_true (by omega), by decide⟩,
   ⟨(grd0).atRest, ⟨.ov 23, 1000000, 0⟩, State.atRest_rested rfl, by decide, by decide, by decide⟩,
   ⟨(s0.inState .standby).atRest, ⟨.die, 0, 0⟩, State.atRest_rested rfl, by decide, by decide⟩,
   ⟨(grd0).atRest, 874999, State.atRest_rested rfl, by decide, by decide⟩,
   ⟨(grd0).atRest, 1125001, State.atRest_rested rfl, by decide, by decide⟩,
   ⟨(grd0).atRest, 875000, State.atRest_rested rfl, by decide, by decide, by decide⟩,
   ⟨(grd0).atRest, 1125000, State.atRest_rested rfl, by decide, by decide, by decide⟩,
   ⟨(grd0).atRest, 3, State.atRest_rested rfl, by decide, by decide, by decide, by decide, by decide, by decide, by decide, by decide⟩,
   ⟨(ok0.put F.INK_SAFE.SOA 1).atRest, State.atRest_rested rfl, by decide, by decide, by decide⟩⟩

/-- Meets the hypotheses of `Obligations.GuardInputs`. -/
theorem test_w_GuardInputs :
    (∃ (s : State), s.on 6 = false) ∧
    (∃ (s : State) (b : Nat), s.rbit A.GRD_FLT b = true) ∧
    (∃ (s : State), s.grd.sobRead = none ∧ s.grd.soaRead = none) ∧
    (∃ (s : State) (k : Nat) (b : Bool) (o : SiObs), s.rested ∧ s.grdJudging = true ∧ s.pairEn k = true ∧ k < 4 ∧ ((if s.grd.si.getLsbD (2 * k + b.toNat) = o.level then s.grd.held.getD (2 * k + b.toNat) 0 else 0) + o.cycles < s.siNeeds k)) ∧
    (∃ (s : State) (k : Nat) (b : Bool) (o : SiObs), s.rested ∧ s.grdJudging = true ∧ s.pairEn k = true ∧ k < 4 ∧ (s.siNeeds k ≤ (if s.grd.si.getLsbD (2 * k + b.toNat) = o.level then s.grd.held.getD (2 * k + b.toNat) 0 else 0) + o.cycles)) ∧
    (∃ (s : State) (k : Nat) (b : Bool) (o : SiObs), s.rested ∧ s.grdJudging = true ∧ s.pairEn k = true ∧ k < 4 ∧ (s.siNeeds k ≤ (if s.grd.si.getLsbD (2 * k + b.toNat) = o.level then s.grd.held.getD (2 * k + b.toNat) 0 else 0) + o.cycles)) ∧
    (∃ (s : State) (k : Nat), s.rested ∧ (s.grdJudging = false ∨ s.pairEn k = false)) ∧
    (∃ (s : State) (k : Nat), s.rested ∧ (s.grdJudging = false ∨ s.pairEn k = false)) ∧
    (∃ (s : State), s.rested ∧ s.on 6 = true ∧ s.grdJudging = true) ∧
    (∃ (s : State), s.rested ∧ s.on 6 = false) ∧
    (∃ (s : State), s.rested ∧ s.grdJudging = true ∧ s.grd.sutRun = 21 ∧ s.bit F.GRD_STAT.SUT_DONE = false) ∧
    (∃ (s : State), s.rested ∧ s.grd.sutRun ≠ 21) ∧
    (∃ (s : State), s.rested ∧ s.on 6 = true ∧ s.bit F.GRD_STAT.FLI_OK = true) ∧
    (∃ (s : State), s.rested ∧ s.on 6 = true ∧ s.bit F.GRD_STAT.FLI_OK = false) ∧
    (∃ (s : State), s.rested ∧ s.on 6 = true ∧ s.ptr.dev = DevState.standby) ∧
    (∃ (s : State), s.rested ∧ s.ptr.dev ≠ DevState.standby ∧ s.grd.checking = false) ∧
    (∃ (s : State), s.rested ∧ s.on 6 = true ∧ s.grd.checking = true) :=
  ⟨⟨(s0.domOnly 0x3BF).atRest, by decide⟩,
   ⟨(s0.setReg A.GRD_FLT 0x80000000).atRest, 31, by decide⟩,
   ⟨(s0).atRest, by decide, by decide⟩,
   ⟨(grd0).atRest, 3, true, ⟨true, 949⟩, State.atRest_rested rfl, by decide, by decide, by decide, by decide⟩,
   ⟨(grd0).atRest, 3, true, ⟨true, 950⟩, State.atRest_rested rfl, by decide, by decide, by decide, by decide⟩,
   ⟨(grd0.onGrd fun g => { g with si := 0x80, held := g.held.set 7 949 }).atRest, 3, true, ⟨true, 1⟩, State.atRest_rested rfl, by decide, by decide, by decide, by decide⟩,
   ⟨(grd0.inState .dormant).atRest, 3, State.atRest_rested rfl, by decide⟩,
   ⟨(grd0).atRest, 0, State.atRest_rested rfl, by decide⟩,
   ⟨(grd0).atRest, State.atRest_rested rfl, by decide, by decide⟩,
   ⟨(s0.domOnly 0x3BF).atRest, State.atRest_rested rfl, by decide⟩,
   ⟨(grd0.onGrd fun g => { g with sutRun := 21 }).atRest, State.atRest_rested rfl, by decide, by decide, by decide⟩,
   ⟨(grd0.onGrd fun g => { g with sutRun := 20 }).atRest, State.atRest_rested rfl, by decide⟩,
   ⟨(grd0.put F.GRD_STAT.FLI_OK 1).atRest, State.atRest_rested rfl, by decide, by decide⟩,
   ⟨(grd0.put F.GRD_STAT.FLI_OK 0).atRest, State.atRest_rested rfl, by decide, by decide⟩,
   ⟨(grd0.inState .standby).atRest, State.atRest_rested rfl, by decide, by decide⟩,
   ⟨(grd0).atRest, State.atRest_rested rfl, by decide, by decide⟩,
   ⟨(grd0.onGrd fun g => { g with checking := true }).atRest, State.atRest_rested rfl, by decide, by decide⟩⟩

/-- Meets the hypotheses of `Obligations.GuardWatchdog`. -/
theorem test_w_GuardWatchdog :
    (∃ (s : State), s.rested ∧ s.wdRuns = true ∧ s.wdState ≠ 2) ∧
    (∃ (s : State), s.rested ∧ (s.wdRuns = false ∨ s.wdState = 2)) ∧
    (∃ (s : State), s.rested ∧ (s.wdRuns = false ∨ s.wdState = 2) ∧ (s.wdRuns = false ∨ s.wdState ≠ 2)) ∧
    (∃ (s : State), s.rested ∧ s.wdRuns = true ∧ s.wdState = 2) ∧
    (∃ (s : State), s.rested ∧ (s.wdRuns = false ∨ s.wdState ≠ 2)) ∧
    (∃ (s : State), s.rested ∧ s.grd.resp = []) ∧
    (∃ (s : State) (r : BitVec 16) (rs : List (BitVec 16)), s.rested ∧ s.grd.resp = r :: rs ∧ s.wdRuns = true ∧ s.wdState = 1) ∧
    (∃ (s : State) (r : BitVec 16) (rs : List (BitVec 16)), s.rested ∧ s.grd.resp = r :: rs ∧ s.wdRuns = true ∧ s.wdState = 2 ∧ (¬(s.grd.window = true ∧ r = wdAnswer s.grd.chal))) ∧
    (∃ (s : State) (r : BitVec 16) (rs : List (BitVec 16)), s.rested ∧ s.grd.resp = r :: rs ∧ s.wdRuns = true ∧ (s.wdState = 0 ∨ s.wdState = 2) ∧ (s.grd.window = true ∧ r = wdAnswer s.grd.chal)) ∧
    (∃ (s : State) (r : BitVec 16) (rs : List (BitVec 16)), s.rested ∧ s.grd.resp = r :: rs ∧ s.wdRuns = true ∧ (s.wdState = 0 ∨ s.wdState = 2) ∧ (s.grd.window = true ∧ r = wdAnswer s.grd.chal)) ∧
    (∃ (s : State) (r : BitVec 16) (rs : List (BitVec 16)), s.rested ∧ s.grd.resp = r :: rs ∧ s.wdRuns = true ∧ s.wdState = 0 ∧ (¬(s.grd.window = true ∧ r = wdAnswer s.grd.chal))) :=
  ⟨⟨(wd0 1 []).atRest, State.atRest_rested rfl, by decide, by decide⟩,
   ⟨(wd0 2 []).atRest, State.atRest_rested rfl, by decide⟩,
   ⟨(s0.domOnly 0x3BF).atRest, State.atRest_rested rfl, by decide, by decide⟩,
   ⟨(wd0 2 []).atRest, State.atRest_rested rfl, by decide, by decide⟩,
   ⟨(wd0 1 []).atRest, State.atRest_rested rfl, by decide⟩,
   ⟨(wd0 2 []).atRest, State.atRest_rested rfl, by decide⟩,
   ⟨(wd0 1 [0]).atRest, 0, [], State.atRest_rested rfl, by decide, by decide, by decide⟩,
   ⟨((wd0 2 [0x1A42]).onGrd fun g => { g with chal := 0x3A5C }).atRest, 0x1A42, [], State.atRest_rested rfl, by decide, by decide, by decide, by decide⟩,
   ⟨((wd0 0 [0x1A43]).onGrd fun g => { g with chal := 0x3A5C }).atRest, 0x1A43, [], State.atRest_rested rfl, by decide, by decide, by decide, by decide⟩,
   ⟨((wd0 2 [0x1A43]).onGrd fun g => { g with chal := 0x3A5C }).atRest, 0x1A43, [], State.atRest_rested rfl, by decide, by decide, by decide, by decide⟩,
   ⟨((wd0 0 [0x1A42]).onGrd fun g => { g with chal := 0x3A5C }).atRest, 0x1A42, [], State.atRest_rested rfl, by decide, by decide, by decide, by decide⟩⟩

/-- Meets the hypotheses of `Obligations.GuardCommit`. -/
theorem test_w_GuardCommit :
    (∃ (s : State), s.rested ∧ s.on 5 = true ∧ s.on 6 = true) ∧
    (∃ (s : State) (v : Word) (e : InkEnv) (rd : BitVec 4) (ra : BitVec 4) (imm : BitVec 18), s.rested ∧ s.on 5 = true ∧ s.on 6 = true ∧ s.inkGoes e ∧ e.fetch = Ecc.clean ∧ s.g rd = v ∧ s.g ra + BitVec.signExtend 32 imm = Word.ofNat A.GRD_UNLK) ∧
    (∃ (s : State) (v : Word) (e : InkEnv) (rd : BitVec 4) (ra : BitVec 4) (imm : BitVec 18), s.rested ∧ s.on 5 = true ∧ s.on 6 = true ∧ s.inkGoes e ∧ e.fetch = Ecc.clean ∧ s.g rd = v ∧ s.g ra + BitVec.signExtend 32 imm = Word.ofNat A.GRD_COMMIT) :=
  ⟨⟨(s0).atRest, State.atRest_rested rfl, by decide, by decide⟩,
   ⟨((ink0.putG 1 7).putG 2 (Word.ofNat A.GRD_UNLK)).atRest, 7, InkEnv.ok, 1, 2, 0, State.atRest_rested rfl, by decide, by decide, by unfold State.inkGoes; decide, by decide, by decide, by decide⟩,
   ⟨((ink0.putG 1 7).putG 2 (Word.ofNat A.GRD_COMMIT)).atRest, 7, InkEnv.ok, 1, 2, 0, State.atRest_rested rfl, by decide, by decide, by unfold State.inkGoes; decide, by decide, by decide, by decide⟩⟩

/-- Meets the hypotheses of `Obligations.CellarState`. -/
theorem test_w_CellarState :
    (∃ (s : State) (v : Word), s.rested ∧ s.on 5 = true ∧ s.bit F.STO_CEL_CTRL.EN = false ∧ F.STO_CEL_CTRL.EN.read v = 1) ∧
    (∃ (s : State) (v : Word), s.rested ∧ s.on 5 = true ∧ s.bit F.STO_CEL_CTRL.EN = true ∧ F.STO_CEL_CTRL.EN.read v = 1 ∧ F.STO_CEL_CTRL.SIZE.read v ≠ s.get F.STO_CEL_CTRL.SIZE) ∧
    (∃ (s : State) (v : Word), s.rested ∧ s.on 5 = true ∧ s.bit F.STO_CEL_CTRL.EN = true ∧ F.STO_CEL_CTRL.EN.read v = 0) ∧
    (∃ (s : State), s.rested ∧ s.bit F.STO_CEL_STAT.INIT = true) ∧
    (∃ (s : State), s.rested ∧ s.bit F.STO_CEL_STAT.INIT = false ∧ s.host.waits = none ∧ (s.celReady = false ∨ s.bit F.STO_CEL_CTRL.SCRUB = false) ∧ s.bit F.STO_CEL_CTRL.EN = false) ∧
    (∃ (s : State), s.rested ∧ s.celReady = true ∧ s.bit F.STO_CEL_CTRL.SCRUB = true) :=
  ⟨⟨(s0).atRest, F.STO_CEL_CTRL.EN.write 0 1, State.atRest_rested rfl, by decide, by decide, by decide⟩,
   ⟨(s0.put F.STO_CEL_CTRL.EN 1).atRest, F.STO_CEL_CTRL.SIZE.write (F.STO_CEL_CTRL.EN.write 0 1) 3, State.atRest_rested rfl, by decide, by decide, by decide, by decide⟩,
   ⟨(s0.put F.STO_CEL_CTRL.EN 1).atRest, 0, State.atRest_rested rfl, by decide, by decide, by decide⟩,
   ⟨(s0.put F.STO_CEL_STAT.INIT 1).atRest, State.atRest_rested rfl, by decide⟩,
   ⟨(s0).atRest, State.atRest_rested rfl, by decide, by decide, by decide, by decide⟩,
   ⟨((s0.raise F.STO_CEL_STAT.READY).raise F.STO_CEL_CTRL.SCRUB).atRest, State.atRest_rested rfl, by decide, by decide⟩⟩

/-- Meets the hypotheses of `Obligations.Rings`. -/
theorem test_w_Rings :
    (∃ (s : State) (n : Nat) (v : Word), s.rested ∧ s.on 5 = true ∧ n < 16 ∧ s.bit (F.STO_RING_CFG.EN n) = false ∧ (F.STO_RING_CFG.EN n).read v = 1 ∧ (s.celReady = true ∧ s.get (F.STO_RING_SIZE.SIZE n) ≠ 0 ∧ ringClash s n = false)) ∧
    (∃ (s : State) (n : Nat) (v : Word), s.rested ∧ s.on 5 = true ∧ n < 16 ∧ s.bit (F.STO_RING_CFG.EN n) = false ∧ (F.STO_RING_CFG.EN n).read v = 1 ∧ (¬(s.celReady = true ∧ s.get (F.STO_RING_SIZE.SIZE n) ≠ 0 ∧ ringClash s n = false))) ∧
    (∃ (s : State) (n : Nat) (v : Word), s.rested ∧ s.on 5 = true ∧ n < 16 ∧ (F.STO_RING_CFG.EN n).read v = 0) ∧
    (∃ (s : State) (n : Nat) (v : Word), s.rested ∧ s.on 5 = true ∧ n < 16 ∧ s.bit (F.STO_RING_CFG.EN n) = true ∧ (F.STO_RING_CFG.EN n).read v = 1) ∧
    (∃ (s : State) (n : Nat) (v : Word), s.rested ∧ s.on 5 = true ∧ n < 16 ∧ ((F.STO_RING_RD.OFF n).read v % 4 = 0 ∧ (F.STO_RING_RD.OFF n).read v < s.ringSize n ∧ ringDist (s.ringSize n) (s.ringRd n) ((F.STO_RING_RD.OFF n).read v) ≤ ringDist (s.ringSize n) (s.ringRd n) (s.ringWr n))) ∧
    (∃ (s : State) (n : Nat) (v : Word), s.rested ∧ s.on 5 = true ∧ n < 16 ∧ (¬((F.STO_RING_RD.OFF n).read v % 4 = 0 ∧ (F.STO_RING_RD.OFF n).read v < s.ringSize n ∧ ringDist (s.ringSize n) (s.ringRd n) ((F.STO_RING_RD.OFF n).read v) ≤ ringDist (s.ringSize n) (s.ringRd n) (s.ringWr n)))) ∧
    (∃ (s : State) (n : Nat) (p : Port) (f : Frame), s.rested ∧ s.on 5 = true ∧ n < 16 ∧ s.net.headNow = true ∧ s.portUp p = true ∧ f.crcOk = true ∧ frameMalformed f = false ∧ f.cls = 2 ∧ f.dst ≠ 127 ∧ s.mine f = true ∧ f.src ≠ 127 ∧ f.strm < 24 ∧ (s.port p).rx = [] ∧ f.ecc.room = Ecc.clean ∧ f.ecc.entry = Ecc.clean) ∧
    (∃ (s : State) (n : Nat) (b : StagedBlock) (bs : List StagedBlock), s.rested ∧ s.on 5 = true ∧ n < 16 ∧ s.pending = [] ∧ s.ink.state ≠ InkState.running ∧ s.ink.state ≠ InkState.waiting ∧ s.ptr.dev ≠ DevState.off ∧ s.cel.blocks = b :: bs ∧ b.ring < 16) :=
  ⟨⟨(((s0.raise F.STO_CEL_STAT.READY).put (F.STO_RING_SIZE.SIZE 15) 1).put (F.STO_RING_BASE.BASE 15) 0).atRest, 15, (F.STO_RING_CFG.EN 15).write 0 1, State.atRest_rested rfl, by decide, by decide, by decide, by decide, by decide⟩,
   ⟨(s0).atRest, 15, (F.STO_RING_CFG.EN 15).write 0 1, State.atRest_rested rfl, by decide, by decide, by decide, by decide, by decide⟩,
   ⟨(s0).atRest, 15, 0, State.atRest_rested rfl, by decide, by decide, by decide⟩,
   ⟨((((s0.raise F.STO_CEL_STAT.READY).put (F.STO_RING_SIZE.SIZE 15) 1).put (F.STO_RING_BASE.BASE 15) 0).put (F.STO_RING_CFG.EN 15) 1).atRest, 15, (F.STO_RING_CFG.EN 15).write 0 1, State.atRest_rested rfl, by decide, by decide, by decide, by decide⟩,
   ⟨((((s0.raise F.STO_CEL_STAT.READY).put (F.STO_RING_SIZE.SIZE 15) 1).put (F.STO_RING_BASE.BASE 15) 0).put (F.STO_RING_WR.OFF 15) 4092).atRest, 15, 4092, State.atRest_rested rfl, by decide, by decide, by decide⟩,
   ⟨((((s0.raise F.STO_CEL_STAT.READY).put (F.STO_RING_SIZE.SIZE 15) 1).put (F.STO_RING_BASE.BASE 15) 0).put (F.STO_RING_WR.OFF 15) 4088).atRest, 15, 4092, State.atRest_rested rfl, by decide, by decide, by decide⟩,
   ⟨(head0).atRest, 15, .south, { fr 2 0 1 0 4 [0] with strm := 23, seq := 0 }, State.atRest_rested rfl, by decide, by decide, by decide, by decide, by decide, by decide, by decide, by decide, by decide, by decide, by decide, by decide, by decide, by decide⟩,
   ⟨({ s0 with cel := { s0.cel with blocks := [⟨23, 15, [], 0⟩] } }).atRest, 15, ⟨23, 15, [], 0⟩, [], State.atRest_rested rfl, by decide, by decide, by decide, by decide, by decide, by decide, by decide, by decide⟩⟩

/-- Meets the hypotheses of `Obligations.LedgerWriter`. -/
theorem test_w_LedgerWriter :
    (∃ (s : State) (typ : Nat) (c : List Word) (p : Nat), s.rested ∧ s.on 5 = true ∧ s.thm.closing = false ∧ s.led.writing = none ∧ s.led.erasing = none ∧ s.led.retry = [] ∧ ledFront s = some (typ, c) ∧ positionFor s (areaOf typ) = some p) ∧
    (∃ (s : State), s.rested ∧ (s.on 5 = false ∨ s.thm.closing = true)) ∧
    (∃ (s : State), s.rested ∧ (s.on 5 = false ∨ s.thm.closing = true)) ∧
    (∃ (s : State) (w : LedWrite) (e : Ecc), s.rested ∧ e ≠ Ecc.uncorrectable ∧ s.led.writing = some w ∧ w.words.length = 64 ∧ w.attempt = 0) ∧
    (∃ (s : State) (w : LedWrite) (e : Ecc), s.rested ∧ e ≠ Ecc.uncorrectable ∧ s.led.writing = some w ∧ w.attempt ≠ 0 ∧ w.item ≠ LedItem.record 49) ∧
    (∃ (s : State) (w : LedWrite) (typ : Nat), s.rested ∧ s.led.writing = some w ∧ w.item = LedItem.record typ ∧ typ ≠ 49) ∧
    (∃ (s : State), s.rested ∧ s.led.writing = none ∧ s.led.erasing = none ∧ s.on 5 = true) ∧
    (∃ (s : State) (sec : Nat), s.rested ∧ s.led.erasing = some sec) :=
  ⟨⟨({ s0 with led := { s0.led with q31 := some [], erased := 15 } }).atRest, 0x31, [], 0, State.atRest_rested rfl, by decide, by decide, by decide, by decide, by decide, by decide, by decide⟩,
   ⟨(s0.domOnly 0).atRest, State.atRest_rested rfl, by decide⟩,
   ⟨({ s0 with thm := { s0.thm with closing := true } }).atRest, State.atRest_rested rfl, by decide⟩,
   ⟨({ s0 with led := { s0.led with writing := some ⟨.record 0x31, List.replicate 64 0, 0, 0⟩ } }).atRest, ⟨.record 0x31, List.replicate 64 0, 0, 0⟩, .corrected, State.atRest_rested rfl, by decide, by decide, by decide, by decide⟩,
   ⟨({ s0 with led := { s0.led with writing := some ⟨.copy 0, List.replicate 64 0, 0, 1⟩ } }).atRest, ⟨.copy 0, List.replicate 64 0, 0, 1⟩, .clean, State.atRest_rested rfl, by decide, by decide, by decide, by decide⟩,
   ⟨({ s0 with led := { s0.led with writing := some ⟨.record 0x41, List.replicate 64 0, 0, 1⟩ } }).atRest, ⟨.record 0x41, List.replicate 64 0, 0, 1⟩, 0x41, State.atRest_rested rfl, by decide, by decide, by decide⟩,
   ⟨(s0).atRest, State.atRest_rested rfl, by decide, by decide, by decide⟩,
   ⟨({ s0 with led := { s0.led with erasing := some 3 } }).atRest, 3, State.atRest_rested rfl, by decide⟩⟩

/-- Meets the hypotheses of `Obligations.CheckUnits`. -/
theorem test_w_CheckUnits :
    (∃ (s : State) (u : Nat) (v : Word), s.rested ∧ s.on 5 = true ∧ u < 4 ∧ (F.STO_CRC_CFG.INIT u).read v = 1) ∧
    (∃ (s : State) (u : Nat) (v : Word), s.rested ∧ s.on 5 = true ∧ u < 4 ∧ (F.STO_CRC_CFG.INIT u).read v = 0) :=
  ⟨⟨(s0).atRest, 3, (F.STO_CRC_CFG.INIT 3).write 0 1, State.atRest_rested rfl, by decide, by decide, by decide⟩,
   ⟨(s0).atRest, 3, 0, State.atRest_rested rfl, by decide, by decide, by decide⟩⟩

/-- Meets the hypotheses of `Obligations.PorterRequests`. -/
theorem test_w_PorterRequests :
    (∃ (s : State) (v : Word) (row : Nat), s.rested ∧ s.on 5 = true ∧ F.PTR_REQ.KEY.read v = 94 ∧ s.thm.closing = false ∧ s.ptr.won = some (row, s.ptr.time) ∧ F.PTR_REQ.TARGET.read v = 4 ∧ row < 8) ∧
    (∃ (s : State) (v : Word) (row : Nat), s.rested ∧ s.on 5 = true ∧ F.PTR_REQ.KEY.read v = 94 ∧ s.thm.closing = false ∧ s.ptr.won = some (row, s.ptr.time) ∧ F.PTR_REQ.TARGET.read v = 5 ∧ row < 9) ∧
    (∃ (s : State) (v : Word) (row : Nat), s.rested ∧ s.on 5 = true ∧ F.PTR_REQ.KEY.read v = 94 ∧ s.thm.closing = false ∧ s.ptr.won = some (row, s.ptr.time) ∧ F.PTR_REQ.TARGET.read v = 7 ∧ row < 7) ∧
    (∃ (s : State) (v : Word) (tst : Bool), s.rested ∧ s.on 5 = true ∧ F.PTR_REQ.TARGET.read v = 4 ∧ F.PTR_REQ.KEY.read v = 94 ∧ (s.thm.closing = false ∧ Option.map (fun x => x.snd) s.ptr.won ≠ some s.ptr.time) ∧ s.ptr.dev = DevState.start ∧ (s.bit F.TRU_STAT.OTP_INCOMPLETE = false ∧ s.inkRuns = true) ∧ tst = false ∧ s.ptr.owedInk = false ∧ s.ptr.owedGrd = false) ∧
    (∃ (s : State) (v : Word) (tst : Bool), s.rested ∧ s.on 5 = true ∧ F.PTR_REQ.TARGET.read v = 4 ∧ F.PTR_REQ.KEY.read v = 94 ∧ (s.thm.closing = false ∧ Option.map (fun x => x.snd) s.ptr.won ≠ some s.ptr.time) ∧ s.ptr.dev = DevState.start ∧ (s.bit F.TRU_STAT.OTP_INCOMPLETE = false ∧ s.inkRuns = true) ∧ tst = false ∧ (s.ptr.owedInk = true ∨ s.ptr.owedGrd = true)) ∧
    (∃ (s : State) (v : Word), s.rested ∧ s.on 5 = true ∧ F.PTR_REQ.TARGET.read v = 4 ∧ F.PTR_REQ.KEY.read v = 94 ∧ (s.thm.closing = false ∧ Option.map (fun x => x.snd) s.ptr.won ≠ some s.ptr.time) ∧ s.ptr.dev = DevState.recover ∧ s.bit F.PTR_RCV.INK = false ∧ s.bit F.PTR_RCV.GRD = false ∧ s.ptr.owedInk = false ∧ s.ptr.owedGrd = false) ∧
    (∃ (s : State) (v : Word), s.rested ∧ s.on 5 = true ∧ F.PTR_REQ.TARGET.read v = 4 ∧ F.PTR_REQ.KEY.read v = 94 ∧ (s.thm.closing = false ∧ Option.map (fun x => x.snd) s.ptr.won ≠ some s.ptr.time) ∧ s.ptr.dev = DevState.recover ∧ s.bit F.PTR_RCV.INK = false ∧ s.bit F.PTR_RCV.GRD = false ∧ (s.ptr.owedInk = true ∨ s.ptr.owedGrd = true)) ∧
    (∃ (s : State) (v : Word), s.rested ∧ s.on 5 = true ∧ F.PTR_REQ.TARGET.read v = 4 ∧ ¬F.PTR_REQ.KEY.read v = 94) ∧
    (∃ (s : State) (v : Word), s.rested ∧ s.on 5 = true ∧ F.PTR_REQ.TARGET.read v = 4 ∧ F.PTR_REQ.KEY.read v = 94 ∧ s.thm.closing = true) ∧
    (∃ (s : State) (v : Word), s.rested ∧ s.on 5 = true ∧ F.PTR_REQ.TARGET.read v = 4 ∧ F.PTR_REQ.KEY.read v = 94 ∧ (s.thm.closing = false ∧ Option.map (fun x => x.snd) s.ptr.won ≠ some s.ptr.time) ∧ s.ptr.dev = DevState.start ∧ s.bit F.TRU_STAT.OTP_INCOMPLETE = true) ∧
    (∃ (s : State) (v : Word), s.rested ∧ s.on 5 = true ∧ F.PTR_REQ.TARGET.read v = 4 ∧ F.PTR_REQ.KEY.read v = 94 ∧ (s.thm.closing = false ∧ Option.map (fun x => x.snd) s.ptr.won ≠ some s.ptr.time) ∧ s.ptr.dev = DevState.start ∧ s.bit F.TRU_STAT.OTP_INCOMPLETE = false ∧ s.inkRuns = false) ∧
    (∃ (s : State) (v : Word) (tst : Bool), s.rested ∧ s.on 5 = true ∧ F.PTR_REQ.TARGET.read v = 4 ∧ F.PTR_REQ.KEY.read v = 94 ∧ (s.thm.closing = false ∧ Option.map (fun x => x.snd) s.ptr.won ≠ some s.ptr.time) ∧ s.ptr.dev = DevState.start ∧ (s.bit F.TRU_STAT.OTP_INCOMPLETE = false ∧ s.inkRuns = true) ∧ tst = true) ∧
    (∃ (s : State) (v : Word), s.rested ∧ s.on 5 = true ∧ F.PTR_REQ.TARGET.read v = 4 ∧ F.PTR_REQ.KEY.read v = 94 ∧ (s.thm.closing = false ∧ Option.map (fun x => x.snd) s.ptr.won ≠ some s.ptr.time) ∧ s.ptr.dev = DevState.recover ∧ (s.bit F.PTR_RCV.INK = true ∨ s.bit F.PTR_RCV.GRD = true)) ∧
    (∃ (s : State) (v : Word), s.rested ∧ s.on 5 = true ∧ F.PTR_REQ.TARGET.read v = 4 ∧ F.PTR_REQ.KEY.read v = 94 ∧ (s.thm.closing = false ∧ Option.map (fun x => x.snd) s.ptr.won ≠ some s.ptr.time) ∧ s.ptr.dev = DevState.halt) ∧
    (∃ (s : State) (v : Word), s.rested ∧ s.on 5 = true ∧ F.PTR_REQ.TARGET.read v = 5 ∧ F.PTR_REQ.KEY.read v = 94 ∧ (s.thm.closing = false ∧ Option.map (fun x => x.snd) s.ptr.won ≠ some s.ptr.time) ∧ s.ptr.dev = DevState.run) ∧
    (∃ (s : State) (v : Word), s.rested ∧ s.on 5 = true ∧ F.PTR_REQ.TARGET.read v = 5 ∧ F.PTR_REQ.KEY.read v = 94 ∧ (s.thm.closing = false ∧ Option.map (fun x => x.snd) s.ptr.won ≠ some s.ptr.time) ∧ (s.ptr.dev = DevState.start ∨ s.ptr.dev = DevState.halt)) ∧
    (∃ (s : State) (v : Word), s.rested ∧ s.on 5 = true ∧ F.PTR_REQ.TARGET.read v = 7 ∧ F.PTR_REQ.KEY.read v = 94 ∧ (s.thm.closing = false ∧ Option.map (fun x => x.snd) s.ptr.won ≠ some s.ptr.time) ∧ (s.ptr.dev = DevState.start ∨ s.ptr.dev = DevState.run ∨ s.ptr.dev = DevState.recover)) ∧
    (∃ (s : State) (v : Word), s.rested ∧ s.on 5 = true ∧ F.PTR_REQ.TARGET.read v ≠ 4 ∧ F.PTR_REQ.TARGET.read v ≠ 5 ∧ F.PTR_REQ.TARGET.read v ≠ 7) :=
  ⟨⟨((s0.inState .recover).onPtr fun p => { p with won := some (7, 0) }).atRest, F.PTR_REQ.KEY.write (F.PTR_REQ.TARGET.write 0 4) 0x5E, 7, State.atRest_rested rfl, by decide, by decide, by decide, by decide, by decide, by decide⟩,
   ⟨((s0.inState .run).onPtr fun p => { p with won := some (8, 0) }).atRest, F.PTR_REQ.KEY.write (F.PTR_REQ.TARGET.write 0 5) 0x5E, 8, State.atRest_rested rfl, by decide, by decide, by decide, by decide, by decide, by decide⟩,
   ⟨((s0.inState .run).onPtr fun p => { p with won := some (6, 0) }).atRest, F.PTR_REQ.KEY.write (F.PTR_REQ.TARGET.write 0 7) 0x5E, 6, State.atRest_rested rfl, by decide, by decide, by decide, by decide, by decide, by decide⟩,
   ⟨(ink0.inState .start).atRest, F.PTR_REQ.KEY.write (F.PTR_REQ.TARGET.write 0 4) 0x5E, false, State.atRest_rested rfl, by decide, by decide, by decide, by decide, by decide, by decide, by decide, by decide, by decide⟩,
   ⟨((ink0.inState .start).onPtr fun p => { p with owedGrd := true }).atRest, F.PTR_REQ.KEY.write (F.PTR_REQ.TARGET.write 0 4) 0x5E, false, State.atRest_rested rfl, by decide, by decide, by decide, by decide, by decide, by decide, by decide, by decide⟩,
   ⟨(s0.inState .recover).atRest, F.PTR_REQ.KEY.write (F.PTR_REQ.TARGET.write 0 4) 0x5E, State.atRest_rested rfl, by decide, by decide, by decide, by decide, by decide, by decide, by decide, by decide, by decide⟩,
   ⟨((s0.inState .recover).onPtr fun p => { p with owedInk := true }).atRest, F.PTR_REQ.KEY.write (F.PTR_REQ.TARGET.write 0 4) 0x5E, State.atRest_rested rfl, by decide, by decide, by decide, by decide, by decide, by decide, by decide, by decide⟩,
   ⟨(s0).atRest, F.PTR_REQ.KEY.write (F.PTR_REQ.TARGET.write 0 4) 0x5F, State.atRest_rested rfl, by decide, by decide, by decide⟩,
   ⟨({ s0 with thm := { s0.thm with closing := true } }).atRest, F.PTR_REQ.KEY.write (F.PTR_REQ.TARGET.write 0 4) 0x5E, State.atRest_rested rfl, by decide, by decide, by decide, by decide⟩,
   ⟨((s0.inState .start).raise F.TRU_STAT.OTP_INCOMPLETE).atRest, F.PTR_REQ.KEY.write (F.PTR_REQ.TARGET.write 0 4) 0x5E, State.atRest_rested rfl, by decide, by decide, by decide, by decide, by decide, by decide⟩,
   ⟨(s0.inState .start).atRest, F.PTR_REQ.KEY.write (F.PTR_REQ.TARGET.write 0 4) 0x5E, State.atRest_rested rfl, by decide, by decide, by decide, by decide, by decide, by decide, by decide⟩,
   ⟨(ink0.inState .start).atRest, F.PTR_REQ.KEY.write (F.PTR_REQ.TARGET.write 0 4) 0x5E, true, State.atRest_rested rfl, by decide, by decide, by decide, by decide, by decide, by decide, by decide⟩,
   ⟨((s0.inState .recover).put F.PTR_RCV.INK 1).atRest, F.PTR_REQ.KEY.write (F.PTR_REQ.TARGET.write 0 4) 0x5E, State.atRest_rested rfl, by decide, by decide, by decide, by decide, by decide, by decide⟩,
   ⟨(s0.inState .halt).atRest, F.PTR_REQ.KEY.write (F.PTR_REQ.TARGET.write 0 4) 0x5E, State.atRest_rested rfl, by decide, by decide, by decide, by decide, by decide⟩,
   ⟨(s0).atRest, F.PTR_REQ.KEY.write (F.PTR_REQ.TARGET.write 0 5) 0x5E, State.atRest_rested rfl, by decide, by decide, by decide, by decide, by decide⟩,
   ⟨(s0.inState .halt).atRest, F.PTR_REQ.KEY.write (F.PTR_REQ.TARGET.write 0 5) 0x5E, State.atRest_rested rfl, by decide, by decide, by decide, by decide, by decide⟩,
   ⟨(s0).atRest, F.PTR_REQ.KEY.write (F.PTR_REQ.TARGET.write 0 7) 0x5E, State.atRest_rested rfl, by decide, by decide, by decide, by decide, by decide⟩,
   ⟨(s0).atRest, F.PTR_REQ.KEY.write (F.PTR_REQ.TARGET.write 0 6) 0x5E, State.atRest_rested rfl, by decide, by decide, by decide, by decide⟩⟩

/-- Meets the hypotheses of `Obligations.PorterDomains`. -/
theorem test_w_PorterDomains :
    (∃ (s : State), s.rested ∧ s.on 5 = true) ∧
    (∃ (s : State) (d : Nat), s.rested ∧ d ∈ domSet ∧ s.on d = false ∧ s.domWant d = true ∧ s.domReady d = true) ∧
    (∃ (s : State) (d : Nat), s.rested ∧ (¬d ∈ domSet ∨ s.on d = true ∨ s.domWant d = false ∨ s.domReady d = false)) ∧
    (∃ (s : State) (d : Nat), s.rested ∧ d ∈ domSet ∧ s.on d = true ∧ s.domWant d = false ∧ s.ptr.dev ≠ DevState.test) ∧
    (∃ (s : State) (d : Nat), s.rested ∧ (¬d ∈ domSet ∨ s.on d = false ∨ s.domWant d = true ∨ s.ptr.dev = DevState.test)) :=
  ⟨⟨(s0).atRest, State.atRest_rested rfl, by decide⟩,
   ⟨((s0.domOnly 0x1FF).setReg A.PTR_DOM 0x200).atRest, 9, State.atRest_rested rfl, by decide, by decide, by decide, by decide⟩,
   ⟨(s0).atRest, 9, State.atRest_rested rfl, by decide⟩,
   ⟨(s0.setReg A.PTR_DOM 0).atRest, 9, State.atRest_rested rfl, by decide, by decide, by decide, by decide⟩,
   ⟨(s0).atRest, 6, State.atRest_rested rfl, by decide⟩⟩

/-- Meets the hypotheses of `Obligations.PorterShutdown`. -/
theorem test_w_PorterShutdown :
    (∃ (s : State), s.rested ∧ (s.ptr.dev = DevState.halt ∧ s.ptr.haltStep = HaltStep.drain ∧ s.thm.closing = false ∧ s.ledIdle = true) ∧ s.ptr.haltLo = true) ∧
    (∃ (s : State), s.rested ∧ (s.ptr.dev = DevState.halt ∧ s.ptr.haltStep = HaltStep.drain ∧ s.thm.closing = false ∧ s.ledIdle = true) ∧ s.on 5 = true ∧ s.ptr.haltLo = false ∧ s.ptr.wakeHeld = none) ∧
    (∃ (s : State), s.rested ∧ (s.ptr.dev = DevState.halt ∧ s.ptr.haltStep = HaltStep.drain ∧ s.thm.closing = false ∧ s.ledIdle = true) ∧ s.ptr.haltLo = false ∧ s.ptr.wakeHeld ≠ none) ∧
    (∃ (s : State), s.rested ∧ (¬(s.ptr.dev = DevState.halt ∧ s.ptr.haltStep = HaltStep.drain ∧ s.thm.closing = false ∧ s.ledIdle = true))) ∧
    (∃ (s : State), s.rested ∧ s.ptr.dev = DevState.halt ∧ s.ptr.haltStep = HaltStep.final ∧ s.thm.closing = false ∧ s.led.writing.isSome = true) ∧
    (∃ (s : State), s.rested ∧ s.tru.item = 0) ∧
    (∃ (s : State), s.rested ∧ 0 < s.tru.item ∧ s.tru.item < 6) ∧
    (∃ (s : State), s.rested ∧ s.tru.item = 6) ∧
    (∃ (s : State), s.rested ∧ s.ptr.dev = DevState.standby ∧ s.get F.PTR_CFG.STBY_MAX ≠ 0 ∧ s.thm.closing = false) ∧
    (∃ (s : State), s.rested ∧ (s.ptr.dev ≠ DevState.standby ∨ s.get F.PTR_CFG.STBY_MAX = 0)) ∧
    (∃ (s : State), s.rested ∧ (s.ptr.dev ≠ DevState.standby ∨ s.get F.PTR_CFG.STBY_MAX = 0)) :=
  ⟨⟨((s0.inState .halt).onPtr fun p => { p with haltStep := .drain, haltLo := true }).atRest, State.atRest_rested rfl, by decide +kernel, by decide⟩,
   ⟨((s0.inState .halt).onPtr fun p => { p with haltStep := .drain }).atRest, State.atRest_rested rfl, by decide +kernel, by decide, by decide, by decide⟩,
   ⟨((s0.inState .halt).onPtr fun p => { p with haltStep := .drain, wakeHeld := some 1 }).atRest, State.atRest_rested rfl, by decide +kernel, by decide, by decide⟩,
   ⟨(s0).atRest, State.atRest_rested rfl, by decide⟩,
   ⟨({ (s0.inState .halt).onPtr (fun p => { p with haltStep := .final }) with led := { s0.led with writing := some ⟨.record 0x31, List.replicate 64 0, 0, 0⟩ } }).atRest, State.atRest_rested rfl, by decide, by decide, by decide, by decide⟩,
   ⟨(s0).atRest, State.atRest_rested rfl, by decide⟩,
   ⟨(s0.onTru fun t => { t with item := 5 }).atRest, State.atRest_rested rfl, by decide, by decide⟩,
   ⟨(s0.onTru fun t => { t with item := 6 }).atRest, State.atRest_rested rfl, by decide⟩,
   ⟨((s0.inState .standby).put F.PTR_CFG.STBY_MAX 1).atRest, State.atRest_rested rfl, by decide, by decide, by decide⟩,
   ⟨(s0).atRest, State.atRest_rested rfl, by decide⟩,
   ⟨((s0.inState .standby).put F.PTR_CFG.STBY_MAX 0).atRest, State.atRest_rested rfl, by decide⟩⟩

/-- Meets the hypotheses of `Obligations.PorterWakes`. -/
theorem test_w_PorterWakes :
    (∃ (s : State) (o : WakeObs), s.rested ∧ (s.ptr.dev = DevState.dormant ∨ s.ptr.dev = DevState.standby) ∧ (s.ptr.nrstLow = false ∧ s.thm.closing = false ∧ (s.ptr.hardHold = false ∨ o.cool = true)) ∧ s.ptr.wakeHeld = none ∧ (({ s with ptr := { s.ptr with wakeHigh := if o.pin = true then s.ptr.wakeHigh + 1 else 0 } } : State).wakeSources ≠ 0)) ∧
    (∃ (s : State) (o : WakeObs), s.rested ∧ s.ptr.dev = DevState.halt ∧ (s.ptr.nrstLow = false ∧ s.thm.closing = false ∧ (s.ptr.hardHold = false ∨ o.cool = true)) ∧ s.ptr.wakeHeld = none ∧ (({ s with ptr := { s.ptr with wakeHigh := if o.pin = true then s.ptr.wakeHigh + 1 else 0 } } : State).wakeSources ≠ 0)) ∧
    (∃ (s : State) (o : WakeObs), s.rested ∧ ((s.ptr.dev = DevState.dormant ∨ s.ptr.dev = DevState.standby) ∨ s.ptr.dev = DevState.halt) ∧ (¬(s.ptr.nrstLow = false ∧ s.thm.closing = false ∧ (s.ptr.hardHold = false ∨ o.cool = true)) ∨ s.ptr.wakeHeld.isSome = true ∨ ({ s with ptr := { s.ptr with wakeHigh := if o.pin = true then s.ptr.wakeHigh + 1 else 0 } } : State).wakeSources = 0)) ∧
    (∃ (s : State) (o : WakeObs), s.rested ∧ (s.ptr.dev = DevState.dormant ∨ s.ptr.dev = DevState.standby) ∧ (s.ptr.nrstLow = false ∧ s.thm.closing = false ∧ (s.ptr.hardHold = false ∨ o.cool = true)) ∧ s.ptr.wakeHeld = none ∧ (({ s with ptr := { s.ptr with wakeHigh := if o.pin = true then s.ptr.wakeHigh + 1 else 0 } } : State).wakeSources ≠ 0)) ∧
    (∃ (s : State) (o : WakeObs), s.rested ∧ ((s.ptr.dev = DevState.dormant ∨ s.ptr.dev = DevState.standby) ∨ s.ptr.dev = DevState.halt) ∧ (¬(s.ptr.nrstLow = false ∧ s.thm.closing = false ∧ (s.ptr.hardHold = false ∨ o.cool = true)) ∨ s.ptr.wakeHeld.isSome = true ∨ ({ s with ptr := { s.ptr with wakeHigh := if o.pin = true then s.ptr.wakeHigh + 1 else 0 } } : State).wakeSources = 0)) ∧
    (∃ (s : State), s.rested ∧ (¬((s.ptr.dev = DevState.dormant ∨ s.ptr.dev = DevState.standby) ∨ s.ptr.dev = DevState.halt))) ∧
    (∃ (s : State) (i : Nat), s.rested ∧ i < 6) ∧
    (∃ (s : State), s.rested ∧ ((s.ptr.dev = DevState.dormant ∨ s.ptr.dev = DevState.standby) ∨ s.ptr.dev = DevState.halt)) ∧
    (∃ (s : State), s.rested ∧ s.ptr.dev = DevState.run) ∧
    (∃ (s : State), s.rested ∧ s.ptr.dev = DevState.dormant ∧ s.ptr.uvWake = true ∧ s.ptr.nrstLow = false ∧ s.ptr.hardHold = false) ∧
    (∃ (s : State), s.rested ∧ (s.ptr.dev ≠ DevState.dormant ∨ s.ptr.uvWake = false ∨ s.ptr.nrstLow = true ∨ s.ptr.hardHold = true)) :=
  ⟨⟨(((s0.put F.PTR_WAKE_EN.EN 1).inState .standby).onPtr fun p => { p with wakeHigh := 65535 }).atRest, ⟨true, false⟩, State.atRest_rested rfl, by decide, by decide, by decide, by decide⟩,
   ⟨(((s0.put F.PTR_WAKE_EN.EN 1).inState .halt).onPtr fun p => { p with wakeHigh := 65535 }).atRest, ⟨true, false⟩, State.atRest_rested rfl, by decide, by decide, by decide, by decide⟩,
   ⟨(((s0.put F.PTR_WAKE_EN.EN 1).inState .standby).onPtr fun p => { p with wakeHigh := 65535 }).atRest, ⟨false, false⟩, State.atRest_rested rfl, by decide, by decide⟩,
   ⟨(((s0.put F.PTR_WAKE_EN.EN 1).inState .dormant).onPtr fun p => { p with wakeHigh := 65535, hardHold := true }).atRest, ⟨true, true⟩, State.atRest_rested rfl, by decide, by decide, by decide, by decide⟩,
   ⟨(((s0.put F.PTR_WAKE_EN.EN 1).inState .dormant).onPtr fun p => { p with wakeHigh := 65535, hardHold := true }).atRest, ⟨true, false⟩, State.atRest_rested rfl, by decide, by decide⟩,
   ⟨(s0).atRest, State.atRest_rested rfl, by decide⟩,
   ⟨(s0).atRest, 5, State.atRest_rested rfl, by decide⟩,
   ⟨(s0.inState .dormant).atRest, State.atRest_rested rfl, by decide⟩,
   ⟨(s0).atRest, State.atRest_rested rfl, by decide⟩,
   ⟨((s0.inState .dormant).onPtr fun p => { p with uvWake := true }).atRest, State.atRest_rested rfl, by decide, by decide, by decide, by decide⟩,
   ⟨(s0).atRest, State.atRest_rested rfl, by decide⟩⟩

/-- Meets the hypotheses of `Obligations.PorterResets`. -/
theorem test_w_PorterResets :
    (∃ (s : State), s.rested ∧ s.ptr.dev ≠ DevState.off ∧ s.ptr.dev ≠ DevState.dormant ∧ s.ptr.vsup = false ∧ s.on 5 = true ∧ s.led.writing = none ∧ s.led.erasing = none ∧ s.tru.burn = none ∧ s.ptr.nrstLow = false) ∧
    (∃ (s : State), s.rested) ∧
    (∃ (s : State), s.rested ∧ (s.ptr.dev = DevState.off ∨ s.ptr.dev = DevState.dormant ∨ s.ptr.vsup = true) ∧ (s.ptr.dev = DevState.off ∨ s.ptr.dev = DevState.dormant) ∧ s.ptr.dev = DevState.off ∧ (s.ptr.dev = DevState.off ∨ s.ptr.nrstLow = true)) ∧
    (∃ (s : State), s.rested ∧ s.ptr.nrstLow = true) :=
  ⟨⟨(s0).atRest, State.atRest_rested rfl, by decide, by decide, by decide, by decide, by decide, by decide, by decide, by decide⟩,
   ⟨(s0).atRest, State.atRest_rested rfl⟩,
   ⟨(s0.inState .off).atRest, State.atRest_rested rfl, by decide, by decide, by decide, by decide⟩,
   ⟨(s0.onPtr fun p => { p with nrstLow := true }).atRest, State.atRest_rested rfl, by decide⟩⟩

/-- Meets the hypotheses of `Obligations.OtpCommands`. -/
theorem test_w_OtpCommands :
    (∃ (s : State) (v : Word), s.rested ∧ s.on 5 = true ∧ F.TRU_PRG_CTRL.GO.read v = 1 ∧ F.TRU_PRG_CTRL.FUSE.read v = 0 ∧ s.ptr.dev ≠ DevState.start) ∧
    (∃ (s : State) (v : Word) (vpp : Bool), s.rested ∧ s.on 5 = true ∧ F.TRU_PRG_CTRL.GO.read v = 1 ∧ F.TRU_PRG_CTRL.FUSE.read v = 0 ∧ s.ptr.dev = DevState.start ∧ vpp = false) ∧
    (∃ (s : State) (v : Word) (vpp : Bool), s.rested ∧ s.on 5 = true ∧ F.TRU_PRG_CTRL.GO.read v = 1 ∧ F.TRU_PRG_CTRL.FUSE.read v = 0 ∧ s.ptr.dev = DevState.start ∧ vpp = true ∧ s.bit F.TRU_PRG_STAT.BUSY = true) ∧
    (∃ (s : State) (p : Path) (v : Word) (vpp : Bool), s.rested ∧ s.on 5 = true ∧ F.TRU_PRG_CTRL.GO.read v = 1 ∧ F.TRU_PRG_CTRL.FUSE.read v = 0 ∧ (s.ptr.dev = DevState.start ∧ vpp = true ∧ s.bit F.TRU_PRG_STAT.BUSY = false) ∧ 4 ≤ (s.otpAddr p).toNat / 64 ∧ (¬((s.get F.OTP_LOCK.PL).testBit ((s.otpAddr p).toNat / 64) = true ∨ s.tru.fuses.getLsbD ((s.otpAddr p).toNat / 64) = true)) ∧ (s.otpRaw (s.otpAddr p).toNat = 0 ∧ s.otpWeak (s.otpAddr p).toNat = 0)) ∧
    (∃ (s : State) (p : Path) (v : Word) (vpp : Bool), s.rested ∧ s.on 5 = true ∧ F.TRU_PRG_CTRL.GO.read v = 1 ∧ F.TRU_PRG_CTRL.FUSE.read v = 0 ∧ (s.ptr.dev = DevState.start ∧ vpp = true ∧ s.bit F.TRU_PRG_STAT.BUSY = false) ∧ (s.otpAddr p).toNat / 64 < 4) ∧
    (∃ (s : State) (p : Path) (v : Word) (vpp : Bool), s.rested ∧ s.on 5 = true ∧ F.TRU_PRG_CTRL.GO.read v = 1 ∧ F.TRU_PRG_CTRL.FUSE.read v = 0 ∧ (s.ptr.dev = DevState.start ∧ vpp = true ∧ s.bit F.TRU_PRG_STAT.BUSY = false) ∧ 4 ≤ (s.otpAddr p).toNat / 64 ∧ ((s.get F.OTP_LOCK.PL).testBit ((s.otpAddr p).toNat / 64) = true ∨ s.tru.fuses.getLsbD ((s.otpAddr p).toNat / 64) = true)) ∧
    (∃ (s : State) (p : Path) (v : Word) (vpp : Bool), s.rested ∧ s.on 5 = true ∧ F.TRU_PRG_CTRL.GO.read v = 1 ∧ F.TRU_PRG_CTRL.FUSE.read v = 0 ∧ (s.ptr.dev = DevState.start ∧ vpp = true ∧ s.bit F.TRU_PRG_STAT.BUSY = false) ∧ 4 ≤ (s.otpAddr p).toNat / 64 ∧ (¬((s.get F.OTP_LOCK.PL).testBit ((s.otpAddr p).toNat / 64) = true ∨ s.tru.fuses.getLsbD ((s.otpAddr p).toNat / 64) = true)) ∧ (¬(s.otpRaw (s.otpAddr p).toNat = 0 ∧ s.otpWeak (s.otpAddr p).toNat = 0))) ∧
    (∃ (s : State) (v : Word), s.rested ∧ s.on 5 = true ∧ F.TRU_PRG_CTRL.GO.read v = 1 ∧ F.TRU_PRG_CTRL.FUSE.read v = 1 ∧ s.ptr.dev ≠ DevState.start) ∧
    (∃ (s : State) (v : Word) (vpp : Bool), s.rested ∧ s.on 5 = true ∧ F.TRU_PRG_CTRL.GO.read v = 1 ∧ F.TRU_PRG_CTRL.FUSE.read v = 1 ∧ s.ptr.dev = DevState.start ∧ vpp = false) ∧
    (∃ (s : State) (v : Word) (vpp : Bool), s.rested ∧ s.on 5 = true ∧ F.TRU_PRG_CTRL.GO.read v = 1 ∧ F.TRU_PRG_CTRL.FUSE.read v = 1 ∧ s.ptr.dev = DevState.start ∧ vpp = true ∧ s.bit F.TRU_PRG_STAT.BUSY = true) ∧
    (∃ (s : State) (v : Word) (vpp : Bool), s.rested ∧ s.on 5 = true ∧ F.TRU_PRG_CTRL.GO.read v = 1 ∧ F.TRU_PRG_CTRL.FUSE.read v = 1 ∧ (s.ptr.dev = DevState.start ∧ vpp = true ∧ s.bit F.TRU_PRG_STAT.BUSY = false) ∧ s.reg A.TRU_PRG_DATA = 61534 ∧ s.tru.fuses.getLsbD (F.TRU_PRG_CTRL.REGION.read v) = false ∧ (s.get F.OTP_LOCK.PL).testBit (F.TRU_PRG_CTRL.REGION.read v) = false) ∧
    (∃ (s : State) (v : Word) (vpp : Bool), s.rested ∧ s.on 5 = true ∧ F.TRU_PRG_CTRL.GO.read v = 1 ∧ F.TRU_PRG_CTRL.FUSE.read v = 1 ∧ (s.ptr.dev = DevState.start ∧ vpp = true ∧ s.bit F.TRU_PRG_STAT.BUSY = false) ∧ s.reg A.TRU_PRG_DATA = 61534 ∧ s.tru.fuses.getLsbD (F.TRU_PRG_CTRL.REGION.read v) = false ∧ (s.get F.OTP_LOCK.PL).testBit (F.TRU_PRG_CTRL.REGION.read v) = true) ∧
    (∃ (s : State) (v : Word) (vpp : Bool), s.rested ∧ s.on 5 = true ∧ F.TRU_PRG_CTRL.GO.read v = 1 ∧ F.TRU_PRG_CTRL.FUSE.read v = 1 ∧ (s.ptr.dev = DevState.start ∧ vpp = true ∧ s.bit F.TRU_PRG_STAT.BUSY = false) ∧ s.reg A.TRU_PRG_DATA ≠ 61534) ∧
    (∃ (s : State) (v : Word) (vpp : Bool), s.rested ∧ s.on 5 = true ∧ F.TRU_PRG_CTRL.GO.read v = 1 ∧ F.TRU_PRG_CTRL.FUSE.read v = 1 ∧ (s.ptr.dev = DevState.start ∧ vpp = true ∧ s.bit F.TRU_PRG_STAT.BUSY = false) ∧ s.reg A.TRU_PRG_DATA = 61534 ∧ s.tru.fuses.getLsbD (F.TRU_PRG_CTRL.REGION.read v) = true) ∧
    (∃ (s : State) (a : Nat) (v : Word), s.rested ∧ s.tru.burn = some (Burn.word a v)) ∧
    (∃ (s : State) (r : Nat), s.rested ∧ r < 16 ∧ s.tru.burn = some (Burn.fuse r)) ∧
    (∃ (s : State), s.rested ∧ s.tru.burn ≠ none) ∧
    (∃ (s : State), s.rested ∧ s.tru.burn = none ∧ s.on 5 = true) :=
  ⟨⟨(s0).atRest, F.TRU_PRG_CTRL.GO.write 0 1, State.atRest_rested rfl, by decide, by decide, by decide, by decide⟩,
   ⟨((s0.inState .start)).atRest, F.TRU_PRG_CTRL.GO.write 0 1, false, State.atRest_rested rfl, by decide, by decide, by decide, by decide, by decide⟩,
   ⟨((s0.inState .start).raise F.TRU_PRG_STAT.BUSY).atRest, F.TRU_PRG_CTRL.GO.write 0 1, true, State.atRest_rested rfl, by decide, by decide, by decide, by decide, by decide, by decide⟩,
   ⟨((s0.inState .start).onTru fun t => { t with addrHost := 256 }).atRest, .host, F.TRU_PRG_CTRL.GO.write 0 1, true, State.atRest_rested rfl, by decide, by decide, by decide, by decide, by decide, by decide, by decide⟩,
   ⟨((s0.inState .start).onTru fun t => { t with addrHost := 255 }).atRest, .host, F.TRU_PRG_CTRL.GO.write 0 1, true, State.atRest_rested rfl, by decide, by decide, by decide, by decide, by decide⟩,
   ⟨((s0.inState .start).onTru fun t => { t with addrHost := 1023, fuses := 0x8000 }).atRest, .host, F.TRU_PRG_CTRL.GO.write 0 1, true, State.atRest_rested rfl, by decide, by decide, by decide, by decide, by decide, by decide⟩,
   ⟨((s0.inState .start).onTru fun t => { t with addrHost := 256, otp := [(256, 1)] }).atRest, .host, F.TRU_PRG_CTRL.GO.write 0 1, true, State.atRest_rested rfl, by decide, by decide, by decide, by decide, by decide, by decide, by decide⟩,
   ⟨(s0).atRest, F.TRU_PRG_CTRL.FUSE.write (F.TRU_PRG_CTRL.GO.write (F.TRU_PRG_CTRL.REGION.write 0 15) 1) 1, State.atRest_rested rfl, by decide, by decide, by decide, by decide⟩,
   ⟨((s0.inState .start)).atRest, F.TRU_PRG_CTRL.FUSE.write (F.TRU_PRG_CTRL.GO.write (F.TRU_PRG_CTRL.REGION.write 0 15) 1) 1, false, State.atRest_rested rfl, by decide, by decide, by decide, by decide, by decide⟩,
   ⟨((s0.inState .start).raise F.TRU_PRG_STAT.BUSY).atRest, F.TRU_PRG_CTRL.FUSE.write (F.TRU_PRG_CTRL.GO.write (F.TRU_PRG_CTRL.REGION.write 0 15) 1) 1, true, State.atRest_rested rfl, by decide, by decide, by decide, by decide, by decide, by decide⟩,
   ⟨((s0.inState .start).setReg A.TRU_PRG_DATA 0xF05E).atRest, F.TRU_PRG_CTRL.FUSE.write (F.TRU_PRG_CTRL.GO.write (F.TRU_PRG_CTRL.REGION.write 0 15) 1) 1, true, State.atRest_rested rfl, by decide, by decide, by decide, by decide, by decide, by decide, by decide⟩,
   ⟨(((s0.inState .start).setReg A.TRU_PRG_DATA 0xF05E).put F.OTP_LOCK.PL 0x8000).atRest, F.TRU_PRG_CTRL.FUSE.write (F.TRU_PRG_CTRL.GO.write (F.TRU_PRG_CTRL.REGION.write 0 15) 1) 1, true, State.atRest_rested rfl, by decide, by decide, by decide, by decide, by decide, by decide, by decide⟩,
   ⟨((s0.inState .start)).atRest, F.TRU_PRG_CTRL.FUSE.write (F.TRU_PRG_CTRL.GO.write (F.TRU_PRG_CTRL.REGION.write 0 15) 1) 1, true, State.atRest_rested rfl, by decide, by decide, by decide, by decide, by decide⟩,
   ⟨(((s0.inState .start).setReg A.TRU_PRG_DATA 0xF05E).onTru fun t => { t with fuses := 0x8000 }).atRest, F.TRU_PRG_CTRL.FUSE.write (F.TRU_PRG_CTRL.GO.write (F.TRU_PRG_CTRL.REGION.write 0 15) 1) 1, true, State.atRest_rested rfl, by decide, by decide, by decide, by decide, by decide, by decide⟩,
   ⟨((s0.inState .start).onTru fun t => { t with burn := some (.word 1023 1) }).atRest, 1023, 1, State.atRest_rested rfl, by decide⟩,
   ⟨((s0.inState .start).onTru fun t => { t with burn := some (.fuse 15) }).atRest, 15, State.atRest_rested rfl, by decide, by decide⟩,
   ⟨((s0.inState .start).onTru fun t => { t with burn := some (.fuse 15) }).atRest, State.atRest_rested rfl, by decide⟩,
   ⟨(s0).atRest, State.atRest_rested rfl, by decide, by decide⟩⟩

/-- Meets the hypotheses of `Obligations.OtpCode`. -/
theorem test_w_OtpCode :
    (∃ (i : Nat), i < 39) ∧
    (∃ (i : Nat) (j : Nat), i < j ∧ j < 39) :=
  ⟨⟨38, by decide⟩,
   ⟨37, 38, by decide, by decide⟩⟩

/-- Meets the hypotheses of `Obligations.TestKeys`. -/
theorem test_w_TestKeys :
    (∃ (s : State) (v : Word), s.rested ∧ s.on 5 = true ∧ F.TRU_TEST_SEL.SEL.read v ∈ [1, 2, 3, 4]) ∧
    (∃ (s : State) (v : Word), s.rested ∧ s.on 5 = true ∧ ¬F.TRU_TEST_SEL.SEL.read v ∈ [1, 2, 3, 4]) ∧
    (∃ (s : State) (v : Word), s.rested ∧ s.on 5 = true ∧ F.TRU_TEST_KEY.KEY.read v = 32343 ∧ s.ptr.dev = DevState.start ∧ s.get F.TRU_TEST_SEL.SEL ≠ 0 ∧ ¬s.bit F.TRU_STAT.ARMED = true) ∧
    (∃ (s : State) (v : Word), s.rested ∧ s.on 5 = true ∧ F.TRU_TEST_KEY.KEY.read v = 32343 ∧ (s.ptr.dev ≠ DevState.start ∨ s.get F.TRU_TEST_SEL.SEL = 0 ∨ s.bit F.TRU_STAT.ARMED = true)) ∧
    (∃ (s : State) (v : Word), s.rested ∧ s.on 5 = true ∧ F.TRU_TEST_KEY.KEY.read v = 41244 ∧ (s.bit F.TRU_STAT.ARMED = true ∧ s.tru.tst = true ∧ s.ptr.dev = DevState.start)) ∧
    (∃ (s : State) (v : Word) (o : UnlockObs), s.rested ∧ s.on 5 = true ∧ F.TRU_TEST_KEY.KEY.read v = 41244 ∧ (s.bit F.TRU_STAT.ARMED = true ∧ s.tru.tst = true ∧ s.ptr.dev = DevState.start) ∧ 7 ≤ o.done) ∧
    (∃ (s : State) (v : Word) (o : UnlockObs), s.rested ∧ s.on 5 = true ∧ F.TRU_TEST_KEY.KEY.read v = 41244 ∧ (s.bit F.TRU_STAT.ARMED = true ∧ s.tru.tst = true ∧ s.ptr.dev = DevState.start) ∧ (o.zeroReadback = false ∨ o.done < 7)) ∧
    (∃ (s : State) (v : Word) (o : UnlockObs), s.rested ∧ s.on 5 = true ∧ F.TRU_TEST_KEY.KEY.read v = 41244 ∧ (s.bit F.TRU_STAT.ARMED = true ∧ s.tru.tst = true ∧ s.ptr.dev = DevState.start) ∧ (o.zeroReadback = false ∨ o.done < 7)) ∧
    (∃ (s : State) (v : Word), s.rested ∧ s.on 5 = true ∧ F.TRU_TEST_KEY.KEY.read v = 41244 ∧ (¬(s.bit F.TRU_STAT.ARMED = true ∧ s.tru.tst = true ∧ s.ptr.dev = DevState.start))) ∧
    (∃ (s : State), s.rested ∧ s.bit F.TRU_STAT.ARMED = true) ∧
    (∃ (s : State), s.rested ∧ ¬s.bit F.TRU_STAT.ARMED = true) :=
  ⟨⟨(s0).atRest, 4, State.atRest_rested rfl, by decide, by decide⟩,
   ⟨(s0).atRest, 5, State.atRest_rested rfl, by decide, by decide⟩,
   ⟨(((s0.inState .start).put F.TRU_TEST_SEL.SEL 4)).atRest, 0x7E57, State.atRest_rested rfl, by decide, by decide, by decide, by decide, by decide⟩,
   ⟨(s0).atRest, 0x7E57, State.atRest_rested rfl, by decide, by decide, by decide⟩,
   ⟨(((s0.inState .start).raise F.TRU_STAT.ARMED).onTru fun t => { t with tst := true }).atRest, 0xA11C, State.atRest_rested rfl, by decide, by decide, by decide⟩,
   ⟨(((s0.inState .start).raise F.TRU_STAT.ARMED).onTru fun t => { t with tst := true }).atRest, 0xA11C, ⟨true, 7⟩, State.atRest_rested rfl, by decide, by decide, by decide, by decide⟩,
   ⟨(((s0.inState .start).raise F.TRU_STAT.ARMED).onTru fun t => { t with tst := true }).atRest, 0xA11C, ⟨true, 6⟩, State.atRest_rested rfl, by decide, by decide, by decide, by decide⟩,
   ⟨(((s0.inState .start).raise F.TRU_STAT.ARMED).onTru fun t => { t with tst := true }).atRest, 0xA11C, ⟨false, 7⟩, State.atRest_rested rfl, by decide, by decide, by decide, by decide⟩,
   ⟨(s0).atRest, 0xA11C, State.atRest_rested rfl, by decide, by decide, by decide⟩,
   ⟨((s0.raise F.TRU_STAT.ARMED)).atRest, State.atRest_rested rfl, by decide⟩,
   ⟨(s0).atRest, State.atRest_rested rfl, by decide⟩⟩

/-- Meets the hypotheses of `Obligations.RegisterAccesses`. -/
theorem test_w_RegisterAccesses :
    (∃ (s : State) (a : Nat), s.rested ∧ s.on 5 = true ∧ a ∈ codeRegs) ∧
    (∃ (s : State) (e : InkEnv) (ra : BitVec 4) (imm : BitVec 18) (a : Nat), s.rested ∧ s.inkGoes e ∧ e.fetch = Ecc.clean ∧ a = BitVec.toNat (s.g ra + BitVec.signExtend 32 imm) ∧ a ∈ codeRegs) ∧
    (∃ (s : State) (a : Nat), s.rested ∧ s.on 5 = true ∧ s.on 6 = true ∧ a ∈ [A.GRD_EVT, A.GRD_EVT_EN]) ∧
    (∃ (s : State) (a : Nat) (e : InkEnv) (ra : BitVec 4) (imm : BitVec 18), s.rested ∧ s.on 5 = true ∧ s.on 6 = true ∧ a ∈ [A.GRD_EVT, A.GRD_EVT_EN] ∧ s.inkGoes e ∧ e.fetch = Ecc.clean ∧ a = BitVec.toNat (s.g ra + BitVec.signExtend 32 imm)) ∧
    (∃ (s : State) (a : Nat), s.rested ∧ (isReserved a = true ∨ s.on 5 = false)) ∧
    (∃ (s : State) (a : Nat), s.rested ∧ (isReserved a = true ∨ s.on 5 = false)) ∧
    (∃ (s : State) (p : Path) (a : Nat), s.rested ∧ s.on 5 = true ∧ isMailbox a = true ∧ isReserved a = false ∧ p ≠ Path.ink) :=
  ⟨⟨(s0).atRest, A.TRU_EVT, State.atRest_rested rfl, by decide, by decide⟩,
   ⟨(ink0).atRest, InkEnv.ok, 0, BitVec.ofNat 18 A.TRU_EVT, A.TRU_EVT, State.atRest_rested rfl, by unfold State.inkGoes; decide, by decide, by decide, by decide⟩,
   ⟨(s0).atRest, A.GRD_EVT, State.atRest_rested rfl, by decide, by decide, by decide⟩,
   ⟨(ink0).atRest, A.GRD_EVT_EN, InkEnv.ok, 0, BitVec.ofNat 18 A.GRD_EVT_EN, State.atRest_rested rfl, by decide, by decide, by decide, by unfold State.inkGoes; decide, by decide, by decide⟩,
   ⟨(s0).atRest, 0x4000, State.atRest_rested rfl, by decide⟩,
   ⟨(s0.domOnly 0).atRest, A.TRU_EVT, State.atRest_rested rfl, by decide⟩,
   ⟨(s0).atRest, .chain, 0x3FFF, State.atRest_rested rfl, by decide, by decide, by decide, by decide⟩⟩

/-- Meets the hypotheses of `Obligations.StepRuns`. -/
theorem test_w_StepRuns :
    (∃ (s : State), s.pending = [] ∧ s.ink.state ≠ InkState.running ∧ s.ink.state ≠ InkState.waiting) ∧
    (∃ (s : State), s.pending = [] ∧ s.ink.state = InkState.waiting) ∧
    (∃ (s : State), s.pending = [] ∧ s.ink.state = InkState.running) :=
  ⟨⟨(s0).atRest, by decide, by decide, by decide⟩,
   ⟨(s0.onInk fun k => { k with state := .waiting }).atRest, by decide, by decide⟩,
   ⟨(ink0).atRest, by decide, by decide⟩⟩

/-- Meets the hypotheses of `Obligations.StepRests`. -/
theorem test_w_StepRests :
    (∃ (s : State) (t : State), s.rested ∧ step s = Host.Outcome.next t) :=
  ⟨(s0).atRest, (tick s0.atRest), State.atRest_rested rfl, rfl⟩

/-- Meets the hypotheses of `Obligations.SafetyPermits`. -/
theorem test_w_SafetyPermits :
    (∃ (s : State), s.on 6 = true) :=
  ⟨(s0).atRest, by decide⟩

end Sys2Proof.Machine
end

section
/-! PROOFS. Register accesses and the state after reset (spec/00_scope.md): what a plain write does to its register
and to nothing else, which writes are plain, and what follows from them. -/

namespace Sys2Proof.Machine

/-! ### A plain write by its access codes (R6) -/

/-- The register at an address has no SL bits, and none that is both RW and W1C: a plain write is R6 bit by bit. -/
def codesApart (a : Nat) : Bool :=
  match regRow a with
  | some r => r.sl == 0 && (r.rw &&& r.w1c) == 0
  | none => false

theorem codesApart_iff (a : Nat) :
    codesApart a = true ↔ ∃ r, regRow a = some r ∧ r.sl = 0 ∧ r.rw &&& r.w1c = 0 := by
  unfold codesApart
  cases regRow a <;> simp

/-- A plain write changes nothing but the endpoint file. -/
theorem State.plainWrite_regs (s : State) (a : Nat) (v : Word) :
    s.plainWrite a v = { s with regs := (s.plainWrite a v).regs } := by
  unfold State.plainWrite
  cases regRow a <;> rfl

/-- Where the codes are apart, a plain write is the write of R6. -/
theorem wrote_plainWrite {s u : State} {a : Nat} (v : Word) (hu : u.regs = s.regs) (ha : codesApart a = true) :
    wrote s (u.plainWrite a v) a v := by
  obtain ⟨r, hr, hsl, hdisj⟩ := (codesApart_iff a).mp ha
  have hreg : u.reg a = s.reg a := by unfold State.reg; rw [hu]
  refine ⟨r, hr, fun i hi => ?_⟩
  have hapart : (r.rw.testBit i && r.w1c.testBit i) = false := by
    rw [← Nat.testBit_and, hdisj, Nat.zero_testBit]
  unfold State.plainWrite
  simp only [hr, hsl, hreg, State.rbit, State.reg_setReg_same, BitVec.getLsbD_or, BitVec.getLsbD_and, BitVec.getLsbD_not,
    BitVec.getLsbD_ofNat, Nat.zero_testBit, hi, decide_true, Bool.true_and, Bool.and_false, Bool.or_false]
  cases hrw : r.rw.testBit i
  · cases r.w1c.testBit i <;> simp
  · rw [hrw, Bool.true_and] at hapart
    simp [hapart]

/-- A plain write in a state with the same endpoint file takes its codes and changes no other register. -/
theorem plainWrite_wrote_only {s u : State} {a : Nat} (v : Word) (hu : u.regs = s.regs) (ha : codesApart a = true) :
    wrote s (u.plainWrite a v) a v ∧ only [Fld.whole a] s u (u.plainWrite a v) := by
  have hwhole : [Fld.whole a].any (fun g => g.addr == a && g.lo == 0 && Nat.ble 32 g.w) = true := by simp [Fld.whole]
  exact ⟨wrote_plainWrite v hu ha, ((keeps.refl _ s).of_regs hu).plainWrite a v hwhole, u.plainWrite_regs a v⟩

/-! ### The Guard's events bear on nothing that follows from a command -/

/-- The Guard's event register and its enables: no permit and no status of the Guard depends on them (R340, R366). -/
def grdEventRegs : List Nat := [A.GRD_EVT, A.GRD_EVT_EN]

/-- A field of another register reads as before a store. -/
theorem State.get_setReg_ne (s : State) {a : Nat} {f : Fld} (v : Word) (h : f.addr ≠ a) :
    (s.setReg a v).get f = s.get f := by
  unfold State.get
  rw [State.reg_setReg_ne s v h]

section GuardEvents

variable {a : Nat} (s : State) (v : Word)

theorem ne_of_grdEventRegs {b : Nat} (ha : a ∈ grdEventRegs) (hb : b ∉ grdEventRegs) : b ≠ a :=
  fun e => hb (e ▸ ha)

theorem grd_blk_not_event (k : Nat) : A.GRD_P k ∉ grdEventRegs := by
  simp only [grdEventRegs, A.GRD_P, A.GRD_EVT, A.GRD_EVT_EN, List.mem_cons, List.not_mem_nil, or_false]
  omega

/-- A field of any register but the Guard's events reads as before a store to these. -/
theorem get_setReg_grdEvent (ha : a ∈ grdEventRegs) (f : Fld) (hf : f.addr ∉ grdEventRegs) :
    (s.setReg a v).get f = s.get f := s.get_setReg_ne v (ne_of_grdEventRegs ha hf)

theorem bit_setReg_grdEvent (ha : a ∈ grdEventRegs) (f : Fld) (hf : f.addr ∉ grdEventRegs) :
    (s.setReg a v).bit f = s.bit f := by
  unfold State.bit
  rw [get_setReg_grdEvent s v ha f hf]

theorem reg_setReg_grdEvent (ha : a ∈ grdEventRegs) {b : Nat} (hb : b ∉ grdEventRegs) :
    (s.setReg a v).reg b = s.reg b := s.reg_setReg_ne v (ne_of_grdEventRegs ha hb)

theorem grdWord_setReg_grdEvent (ha : a ∈ grdEventRegs) (k : Nat) : (s.setReg a v).grdWord k = s.grdWord k := by
  unfold State.grdWord
  rw [get_setReg_grdEvent s v ha F.GRD_STAT.BLK (by decide), reg_setReg_grdEvent s v ha (grd_blk_not_event k)]

theorem demanding_setReg_grdEvent (ha : a ∈ grdEventRegs) (k : Nat) :
    (s.setReg a v).demanding k = s.demanding k := by
  unfold State.demanding State.pairEn State.siOpen State.rbit
  rw [grdWord_setReg_grdEvent s v ha, reg_setReg_grdEvent s v ha (show A.GRD_SI ∉ grdEventRegs by decide)]
  rfl

theorem lp_setReg_grdEvent (ha : a ∈ grdEventRegs) : (s.setReg a v).lp = s.lp := by
  unfold State.lp State.pairRole
  simp only [demanding_setReg_grdEvent s v ha, grdWord_setReg_grdEvent s v ha]
  rw [get_setReg_grdEvent s v ha F.GRD_STAT.BLK (by decide), get_setReg_grdEvent s v ha F.GRD_STAT.COMMIT (by decide),
    bit_setReg_grdEvent s v ha F.GRD_STAT.SUT_DONE (by decide),
    reg_setReg_grdEvent s v ha (show A.GRD_FLT ∉ grdEventRegs by decide)]
  rfl

theorem grdOk_setReg_grdEvent (ha : a ∈ grdEventRegs) : (s.setReg a v).grdOk = s.grdOk := by
  unfold State.grdOk
  rw [lp_setReg_grdEvent s v ha, bit_setReg_grdEvent s v ha F.GRD_STAT.FLI_OK (by decide),
    bit_setReg_grdEvent s v ha F.GRD_STAT.WD_ARMED (by decide)]
  rfl

theorem gst_setReg_grdEvent (ha : a ∈ grdEventRegs) : (s.setReg a v).gst = s.gst := by
  unfold State.gst
  rw [lp_setReg_grdEvent s v ha, grdOk_setReg_grdEvent s v ha, bit_setReg_grdEvent s v ha F.GRD_STAT.FLI_OK (by decide),
    reg_setReg_grdEvent s v ha (show A.GRD_FLT ∉ grdEventRegs by decide)]
  rfl

theorem floToggles_setReg_grdEvent (ha : a ∈ grdEventRegs) : (s.setReg a v).floToggles = s.floToggles := by
  unfold State.floToggles State.floOn State.originator
  rw [lp_setReg_grdEvent s v ha, grdWord_setReg_grdEvent s v ha, bit_setReg_grdEvent s v ha F.GRD_STAT.FLI_OK (by decide)]
  rfl

theorem slot_setReg_grdEvent (ha : a ∈ grdEventRegs) : (s.setReg a v).slot = s.slot := by
  unfold State.slot
  rw [bit_setReg_grdEvent s v ha F.CHN_NET_STAT.SLOTV (by decide),
    get_setReg_grdEvent s v ha F.CHN_NET_STAT.SLOT (by decide)]

theorem bcastPorts_setReg_grdEvent (ha : a ∈ grdEventRegs) : (s.setReg a v).bcastPorts = s.bcastPorts := by
  have hup : (s.setReg a v).portUp = s.portUp := by
    funext p
    unfold State.portUp State.linkState
    rw [get_setReg_grdEvent s v ha _ (by cases p <;> decide)]
  unfold State.bcastPorts
  rw [hup, bit_setReg_grdEvent s v ha F.CHN_NET_STAT.BRKV (by decide)]

theorem bcastGone_setReg_grdEvent (ha : a ∈ grdEventRegs) : (s.setReg a v).bcastGone = s.bcastGone := by
  funext x
  unfold State.bcastGone State.bcastLeft State.bcastFrame
  rw [slot_setReg_grdEvent s v ha]
  rfl

theorem noteGoes_setReg_grdEvent (ha : a ∈ grdEventRegs) : (s.setReg a v).noteGoes = s.noteGoes := by
  unfold State.noteGoes
  rw [bcastPorts_setReg_grdEvent s v ha]
  simp only [hasRoom_note _ ((s.setReg a v).newFrame 0 0x10 0x7F 0 16 []) (s.newFrame 0 0x10 0x7F 0 16 []) rfl rfl]
  rfl

/-- A store to the Guard's events leaves nothing to follow where nothing was left to follow. -/
theorem rested_setReg_grdEvent (ha : a ∈ grdEventRegs) (hs : s.rested) : (s.setReg a v).rested := by
  obtain ⟨hsettled, hnote⟩ := (grdSettle_self_iff s).mp hs.2
  constructor
  · apply bcastSettle_of_nil
    rw [bcastGone_setReg_grdEvent s v ha]
    exact bcastSettle_self hs.1
  · refine (grdSettle_self_iff _).mpr ⟨?_, (noteGoes_setReg_grdEvent s v ha).trans hnote⟩
    unfold State.settled at hsettled ⊢
    rw [floToggles_setReg_grdEvent s v ha, grdOk_setReg_grdEvent s v ha, gst_setReg_grdEvent s v ha]
    exact hsettled

/-- What follows from a command does not depend on the Guard's events before it. -/
theorem settle_setReg_grdEvent_before (ha : a ∈ grdEventRegs) (t : State) : settle (s.setReg a v) t = settle s t := by
  unfold settle settleCauses settleDemands
  simp only [demanding_setReg_grdEvent s v ha, State.setReg_ink,
    reg_setReg_grdEvent s v ha (show A.GRD_FLT ∉ grdEventRegs by decide)]

end GuardEvents

/-- A quiet command that stores to a register in both states it relates stays quiet. -/
theorem quiet.setReg_both {s t : State} (h : quiet s t) (a : Nat) (v : Word) : quiet (s.setReg a v) (t.setReg a v) := by
  obtain ⟨⟨hgrd, hrest⟩, hchn, hq⟩ := h
  have same : ∀ b, t.reg b = s.reg b → (t.setReg a v).reg b = (s.setReg a v).reg b := by
    intro b hb
    rw [State.reg_setReg, State.reg_setReg, hb]
  exact ⟨⟨fun b hb => same b (hgrd b hb), hrest⟩, fun b hb => same b (hchn b hb), hq⟩

/-- Nothing follows from a quiet command that also stores to the Guard's events. -/
theorem settle_setReg_grdEvent {s t : State} (hs : s.rested) (h : quiet s t) {a : Nat} (ha : a ∈ grdEventRegs) (v : Word) :
    settle s (t.setReg a v) = t.setReg a v := by
  rw [← settle_setReg_grdEvent_before s v ha]
  exact settle_quiet (rested_setReg_grdEvent s v ha hs) (h.setReg_both a v)

/-! ### The registers whose writes are plain -/

/-- The registers that obey their access codes alone, those of the Guard among them. -/
def plainRegs : List Nat := codeRegs ++ grdEventRegs

theorem isReserved_plainRegs : ∀ a ∈ plainRegs, isReserved a = false := by decide

theorem le_of_plainRegs : ∀ a ∈ plainRegs, a ≤ 0x3FFF := by decide

theorem codesApart_plainRegs : ∀ a ∈ plainRegs, codesApart a = true := by decide

theorem isGrd_codeRegs : ∀ a ∈ codeRegs, isGrd a = false := by decide

theorem isChn_codeRegs : ∀ a ∈ codeRegs, isChn a = false := by decide

theorem codeRegs_plain {a : Nat} (h : a ∈ codeRegs) : a ∈ plainRegs := List.mem_append_left _ h

theorem grdEventRegs_plain {a : Nat} (h : a ∈ grdEventRegs) : a ∈ plainRegs := List.mem_append_right _ h

/-- A write of one of them, on any path, is the plain write. -/
theorem epWrite_plain {a : Nat} (ha : a ∈ plainRegs) (p : Path) (v : Word) (s : State) :
    epWrite p a v s = s.plainWrite a v := by
  unfold plainRegs codeRegs grdEventRegs at ha
  simp only [List.cons_append, List.nil_append] at ha
  repeat' (rcases ha with _ | ⟨_, ha⟩)
  all_goals rfl

/-- Nothing follows from a quiet command that also writes one of them. -/
theorem settle_plainWrite {s t : State} (hs : s.rested) (h : quiet s t) {a : Nat} (ha : a ∈ plainRegs) (v : Word) :
    settle s (t.plainWrite a v) = t.plainWrite a v := by
  rcases List.mem_append.mp ha with hc | hg
  · exact settle_quiet hs (h.plainWrite a v (isGrd_codeRegs a hc) (isChn_codeRegs a hc))
  · unfold State.plainWrite
    split
    · exact settle_quiet hs h
    · exact settle_setReg_grdEvent hs h hg _

/-! ### Writes on a path -/

/-- A write that no reserved address and no domain bars acts on the endpoint. -/
theorem programWrite_acts {s : State} {a : Nat} (p : Path) (v : Word) (hr : isReserved a = false) (h5 : s.on 5 = true)
    (h6 : isGrd a = true → s.on 6 = true) : programWrite p a v s = epWrite p a v s := by
  unfold programWrite byGuard byProgram
  cases hg : isGrd a
  · simp [hr, h5]
  · simp [hr, h5, h6 hg]

/-- A write of a reserved address, and every write while D5 is off, does nothing (R486; log entry 8). -/
theorem programWrite_barred {s : State} {a : Nat} (p : Path) (v : Word) (h : isReserved a = true ∨ s.on 5 = false) :
    programWrite p a v s = s := by
  unfold programWrite byGuard byProgram
  rcases h with hr | h5
  · simp [hr]
  · simp [h5]

/-- A write of a plain register, on any path, is its plain write and nothing else. -/
theorem registerWrite_plain {s : State} (hs : s.rested) (h5 : s.on 5 = true) {a : Nat} (ha : a ∈ plainRegs)
    (h6 : isGrd a = true → s.on 6 = true) (p : Path) (v : Word) :
    exec (.registerWrite p a v) s = .next (s.plainWrite a v) := by
  show done s (programWrite p a v s) = _
  rw [programWrite_acts p v (isReserved_plainRegs a ha) h5 h6, epWrite_plain ha]
  exact congrArg _ (settle_plainWrite hs (quiet.refl s) ha v)

/-! ### STE (R304) -/

/-- An instruction that goes and is fetched clean has its own effect. -/
theorem inkData_goes {s : State} {e : InkEnv} (h : s.inkGoes e) (hf : e.fetch = .clean) (effect : State → State) :
    inkData e effect s = effect s := by
  obtain ⟨hrun, hpc, -, hcheck⟩ := h
  have hseq : (s.ink.pc == 0x3FFF) = false := beq_false_of_ne hpc
  simp only [inkData, inkFetch, inkSeq, inkChecked, hrun, hseq, hf, hcheck, bne_self_eq_false, Bool.false_eq_true, if_false]

/-- STE of an endpoint that is not reserved writes it on the Innkeeper's path, and PC moves on. -/
theorem ste_eq {s : State} {e : InkEnv} (h : s.inkGoes e) (hf : e.fetch = .clean) {rd ra : BitVec 4} {imm : BitVec 18}
    {a : Nat} (ha : a = (s.g ra + imm.signExtend 32).toNat) (hle : a ≤ 0x3FFF) (hr : isReserved a = false) :
    exec (.ste e rd ra imm) s = done s (pcNext (epWrite .ink a (s.g rd) s)) := by
  show done s (inkData e (fun s => inkEndpoint (s.g ra + immS imm) (inkSte rd) s) s) = _
  rw [inkData_goes h hf]
  unfold inkEndpoint immS
  rw [← ha, hr, Nat.ble_eq_true_of_le hle]
  rfl

/-- PC's move is quiet. -/
theorem quiet.pcNext (s : State) : quiet s (pcNext s) :=
  (quiet.refl s).of_eq rfl rfl rfl rfl rfl rfl rfl rfl rfl

/-- PC's move and a plain write can change places. -/
theorem pcNext_plainWrite (s : State) (a : Nat) (v : Word) :
    pcNext (s.plainWrite a v) = (pcNext s).plainWrite a v := by
  unfold State.plainWrite
  cases regRow a <;> rfl

/-- STE of a plain register is its plain write, with PC moved on. -/
theorem ste_plain {s : State} (hs : s.rested) {e : InkEnv} (h : s.inkGoes e) (hf : e.fetch = .clean) {rd ra : BitVec 4}
    {imm : BitVec 18} {a : Nat} (ha : a = (s.g ra + imm.signExtend 32).toNat) (hp : a ∈ plainRegs) :
    exec (.ste e rd ra imm) s = .next ((pcNext s).plainWrite a (s.g rd)) := by
  rw [ste_eq h hf ha (le_of_plainRegs a hp) (isReserved_plainRegs a hp), epWrite_plain hp, pcNext_plainWrite]
  exact congrArg _ (settle_plainWrite hs (quiet.pcNext s) hp _)

/-! ### Mailbox words (R309) -/

/-- A word whose bytes all lie outside the one stored reads as before. -/
theorem Mem.word_setWord_out (d : Byte) (m : List Host.Cell) (a : Nat) (v : Word) (c : Nat) (h : c + 4 ≤ a ∨ a + 4 ≤ c) :
    Mem.word d (Mem.setWord d m a v) c = Mem.word d m c := by
  unfold Mem.word
  simp only [Mem.bytes]
  rw [Mem.byte_setWord_out d m a v c (by omega), Mem.byte_setWord_out d m a v (c + 1) (by omega),
    Mem.byte_setWord_out d m a v (c + 1 + 1) (by omega), Mem.byte_setWord_out d m a v (c + 1 + 1 + 1) (by omega)]

@[simp] theorem State.dataWord_setData_same (s : State) (a : Nat) (v : Word) : (setData a v s).dataWord a = v :=
  Mem.word_setWord_same 0 s.ink.data (4 * a) v

theorem State.dataWord_setData_ne (s : State) {a b : Nat} (v : Word) (h : b ≠ a) :
    (setData a v s).dataWord b = s.dataWord b :=
  Mem.word_setWord_out 0 s.ink.data (4 * a) v (4 * b) (by omega)

@[simp] theorem State.get_setData (s : State) (a : Nat) (v : Word) (f : Fld) : (setData a v s).get f = s.get f := rfl

/-- The announcement of a mailbox word at an address: MBX, ADDR and COUNT (R309). -/
def mailboxNews (a : Nat) (s : State) : State :=
  ((s.raise F.INK_EVT.MBX).put F.INK_MBXA.ADDR a).bump F.INK_MBXA.COUNT 1

@[simp] theorem dataWord_mailboxNews (a b : Nat) (s : State) : (mailboxNews a s).dataWord b = s.dataWord b := rfl

theorem get_mailboxNews_mbx (a : Nat) (s : State) : (mailboxNews a s).get F.INK_EVT.MBX = 1 := by
  unfold mailboxNews
  rw [State.bump_eq, State.get_put_apart _ _ _ _ (by decide), State.get_put_apart _ _ _ _ (by decide), State.raise_eq,
    State.get_put_same _ _ _ (by decide)]
  rfl

theorem get_mailboxNews_count (a : Nat) (s : State) :
    (mailboxNews a s).get F.INK_MBXA.COUNT = (s.get F.INK_MBXA.COUNT + 1) % 2 ^ F.INK_MBXA.COUNT.w := by
  unfold mailboxNews
  rw [State.bump_eq, State.get_put_same _ _ _ (by decide), State.get_put_apart _ _ _ _ (by decide), State.raise_eq,
    State.get_put_apart _ _ _ _ (by decide)]

/-- A mailbox word written by the chain or the host is stored and announced. -/
theorem epWrite_mailbox {p : Path} (hp : p ≠ .ink) {a : Nat} (ha : isMailbox a = true) (v : Word) (s : State) :
    epWrite p a v s = mailboxNews a (setData a v s) := by
  unfold epWrite wrMailbox mailboxNews
  simp [ha, hp]

/-- Storing and announcing a mailbox word is quiet. -/
theorem quiet.mailbox (s : State) (a : Nat) (v : Word) : quiet s (mailboxNews a (setData a v s)) :=
  have hdata : quiet s (setData a v s) := (quiet.refl s).of_eq rfl rfl rfl rfl rfl rfl rfl rfl rfl
  ((hdata.put F.INK_EVT.MBX 1 (by decide) (by decide)).put F.INK_MBXA.ADDR a (by decide) (by decide)).put
    F.INK_MBXA.COUNT _ (by decide) (by decide)

/-- The mailbox lies outside the Guard. -/
theorem isGrd_of_isMailbox {a : Nat} (ha : isMailbox a = true) : isGrd a = false := by
  refine Bool.eq_false_iff.mpr fun hg => ?_
  simp only [isMailbox, isGrd, Bool.and_eq_true, Nat.ble_eq, Nat.blt_eq] at ha hg
  omega

theorem registerWrite_mailbox {s : State} (hs : s.rested) (h5 : s.on 5 = true) {p : Path} (hp : p ≠ .ink) {a : Nat}
    (ha : isMailbox a = true) (hr : isReserved a = false) (v : Word) :
    exec (.registerWrite p a v) s = .next (mailboxNews a (setData a v s)) := by
  have h6 : isGrd a = true → s.on 6 = true := fun h => by simp [isGrd_of_isMailbox ha] at h
  show done s (programWrite p a v s) = _
  rw [programWrite_acts p v hr h5 h6, epWrite_mailbox hp ha]
  exact done_quiet hs (quiet.mailbox s a v)

/-! ### The read of PTR_TIMEL (R421) -/

/-- The holding register of the path that reads, and no other, takes the high word of TIME. -/
theorem timeHold_timeTake (p q : Path) (s : State) :
    (timeTake p s).timeHold q = if q = p then s.timeNow.extractLsb' 32 32 else s.timeHold q := by
  cases p <;> cases q <;> rfl

@[simp] theorem timeTake_dev (p : Path) (s : State) : (timeTake p s).ptr.dev = s.ptr.dev := by cases p <;> rfl
@[simp] theorem timeTake_dom (p : Path) (s : State) : (timeTake p s).ptr.dom = s.ptr.dom := by cases p <;> rfl
@[simp] theorem timeTake_time (p : Path) (s : State) : (timeTake p s).ptr.time = s.ptr.time := by cases p <;> rfl

theorem timelRead_eq {s : State} (hs : s.rested) (h5 : s.on 5 = true) (p : Path) :
    exec (.timelRead p) s = .next (timeTake p s) := by
  have hq : quiet s (timeTake p s) :=
    (quiet.refl s).of_eq rfl (timeTake_dev p s) (timeTake_dom p s) rfl rfl rfl rfl rfl rfl
  show done s (byProgram (timeTake p) s) = _
  unfold byProgram
  rw [if_pos h5]
  exact done_quiet hs hq

/-! ### The statements -/

/-- Settles O56: every clause is the equation of its command above, with what that equation's state reads as. -/
theorem registerAccesses : Obligations.RegisterAccesses := by
  unfold Obligations.RegisterAccesses
  intro s hs
  have codes : ∀ {a : Nat} (u : State) (v : Word), a ∈ plainRegs → u.regs = s.regs →
      wrote s (u.plainWrite a v) a v ∧ only [Fld.whole a] s u (u.plainWrite a v) :=
    fun u v ha hu => plainWrite_wrote_only v hu (codesApart_plainRegs _ ha)
  refine ⟨fun p a v h5 ha => ?_, fun e rd ra imm a hgo hf hadr ha => ?_, fun h5 h6 a ha => ⟨fun p v => ?_, ?_⟩,
    fun p a v hbar => ?_, fun p a v h5 hm hr hp => ?_, fun p h5 => ?_⟩
  · have h6 : isGrd a = true → s.on 6 = true := fun h => by simp [isGrd_codeRegs a ha] at h
    exact ⟨_, registerWrite_plain hs h5 (codeRegs_plain ha) h6 p v, codes s v (codeRegs_plain ha) rfl⟩
  · exact ⟨_, ste_plain hs hgo hf hadr (codeRegs_plain ha), codes (pcNext s) _ (codeRegs_plain ha) rfl⟩
  · exact ⟨_, registerWrite_plain hs h5 (grdEventRegs_plain ha) (fun _ => h6) p v, codes s v (grdEventRegs_plain ha) rfl⟩
  · intro e rd ra imm hgo hf hadr
    exact ⟨_, ste_plain hs hgo hf hadr (grdEventRegs_plain ha), codes (pcNext s) _ (grdEventRegs_plain ha) rfl⟩
  · show done s (programWrite p a v s) = _
    rw [programWrite_barred p v hbar]
    exact done_quiet hs (quiet.refl s)
  · refine ⟨_, registerWrite_mailbox hs h5 hp hm hr v, ?_, get_mailboxNews_mbx _ _, get_mailboxNews_count _ _,
      fun b hb => ?_⟩
    · rw [dataWord_mailboxNews, State.dataWord_setData_same]
    · rw [dataWord_mailboxNews, State.dataWord_setData_ne s v hb]
  · exact ⟨_, timelRead_eq hs h5 p, (timeHold_timeTake p p s).trans (if_pos rfl),
      fun q hq => (timeHold_timeTake p q s).trans (if_neg hq), rfl, timeTake_time p s⟩

/-- After reset no endpoint stands off its reset value, so every register reads its own (R8, R491). -/
theorem reset_reg (a : Nat) : State.reset.reg a = Reg.reset a := rfl

/-- After reset D0 alone is on (R13, R400). -/
theorem reset_on (d : Nat) : State.reset.on d = (d == 0) := by
  show (1#10).getLsbD d = (d == 0)
  simp [BitVec.getLsbD_one, Bool.beq_eq_decide_eq]

/-- After reset nothing is outstanding and the Guard's record of its status is what its status is. -/
theorem reset_rested : State.reset.rested :=
  ⟨bcastSettle_of_nil rfl, (grdSettle_self_iff _).mpr ⟨by decide, by decide⟩⟩

/-- Settles O59: the state after reset evaluated, and the lemmas on its registers, its domains and its rest. -/
theorem resetState : Obligations.ResetState := by
  unfold Obligations.ResetState
  refine ⟨reset_rested, by decide, rfl, rfl, rfl, reset_on, reset_reg, ?_, ?_, ?_, by decide, by decide, rfl, ?_⟩
  · decide
  · decide
  · decide
  · intro p
    cases p <;> decide

end Sys2Proof.Machine
end

section
/-! PROOFS. What leaves the Porter's own state alone: the work of the other blocks that a domain's switching or an
automatic reaction brings about (R32, R33, R403) changes neither the device state nor a domain. -/

namespace Sys2Proof.Machine

/-! ### Choices and repetitions -/

/-- The Porter's state after a choice between two next states. -/
@[simp] theorem State.ptr_ite (c : Prop) [Decidable c] (s t : State) :
    (if c then s else t).ptr = if c then s.ptr else t.ptr := apply_ite ..

/-- Changes that each leave the Porter's state leave it together. -/
@[simp] theorem State.each_ptr {α : Type} (s : State) (xs : List α) (f : α → State → State)
    (hf : ∀ x t, (f x t).ptr = t.ptr) : (s.each xs f).ptr = s.ptr :=
  State.each_induct (fun t => t.ptr = s.ptr) f (fun x t h => (hf x t).trans h) xs s rfl

/-! ### Changes of one part -/

@[simp] theorem State.onTone_ptr (s : State) (t : Nat) (f : ToneSt → ToneSt) : (s.onTone t f).ptr = s.ptr := rfl
@[simp] theorem State.onCtx_ptr (s : State) (c : Nat) (f : CtxSt → CtxSt) : (s.onCtx c f).ptr = s.ptr := rfl
@[simp] theorem State.onFb_ptr (s : State) (f : FbSt → FbSt) : (s.onFb f).ptr = s.ptr := rfl
@[simp] theorem State.onStream_ptr (s : State) (n : Nat) (f : StreamSt → StreamSt) : (s.onStream n f).ptr = s.ptr := rfl
@[simp] theorem State.onPhase_ptr (s : State) (x : Nat) (f : PhaseSt → PhaseSt) : (s.onPhase x f).ptr = s.ptr := rfl
@[simp] theorem State.setPort_ptr (s : State) (p : Port) (q : PortSt) : (s.setPort p q).ptr = s.ptr := by cases p <;> rfl
@[simp] theorem State.onPort_ptr (s : State) (p : Port) (f : PortSt → PortSt) : (s.onPort p f).ptr = s.ptr :=
  s.setPort_ptr p _

/-! ### The Ledger's event log (R418) -/

@[simp] theorem logEntryAt_ptr (t : Time) (src : Nat) (ds : List Word) (s : State) :
    (logEntryAt t src ds s).ptr = s.ptr := by
  unfold logEntryAt; simp

@[simp] theorem logEntry_ptr (src : Nat) (ds : List Word) (s : State) : (logEntry src ds s).ptr = s.ptr :=
  logEntryAt_ptr ..

@[simp] theorem ptrLog_ptr (s : State) : (ptrLog s).ptr = s.ptr := logEntry_ptr ..

@[simp] theorem grdLog_ptr (s : State) : (grdLog s).ptr = s.ptr := logEntryAt_ptr ..

/-! ### Stream blocks (R97 to R102) -/

@[simp] theorem sramFound_ptr (m : Sram) (s : State) : (sramFound m s).ptr = s.ptr := by
  unfold sramFound; simp

theorem sramSees_ptr {m : Sram} {e : Ecc} {lost good : State → State} (hlost : ∀ s, (lost s).ptr = s.ptr)
    (hgood : ∀ s, (good s).ptr = s.ptr) (s : State) : (sramSees m e lost good s).ptr = s.ptr := by
  cases e <;> simp [sramSees, hlost, hgood]

@[simp] theorem fileBlock_ptr (found : Ecc) (src strm gen len : Nat) (payload : List Word) (s : State) :
    (fileBlock found src strm gen len payload s).ptr = s.ptr := by
  unfold fileBlock
  dsimp only
  split
  · simp
  · refine sramSees_ptr ?_ ?_ s <;> intro t <;> simp

@[simp] theorem pumpOwn_ptr (n : Nat) (s : State) : (pumpOwn n s).ptr = s.ptr := by
  induction n generalizing s with
  | zero => rfl
  | succ n ih =>
    unfold pumpOwn
    split
    · rfl
    · simp [ih]

@[simp] theorem noRoute_ptr (s : State) : (noRoute s).ptr = s.ptr := rfl

@[simp] theorem enqueue_ptr (p : Port) (f : Frame) (s : State) : (enqueue p f s).ptr = s.ptr := s.onPort_ptr p _

@[simp] theorem pumpStreams_ptr (n : Nat) (s : State) : (pumpStreams n s).ptr = s.ptr := by
  induction n generalizing s with
  | zero => rfl
  | succ n ih =>
    unfold pumpStreams
    split
    · rfl
    · split
      · rfl
      · split
        · simp [ih]
        · simp [ih]

@[simp] theorem emitBlock_ptr (strm : Nat) (payload : List Word) (s : State) : (emitBlock strm payload s).ptr = s.ptr := by
  unfold emitBlock; simp

@[simp] theorem streamFlush_ptr (n : Nat) (s : State) : (streamFlush n s).ptr = s.ptr := by
  unfold streamFlush; simp

@[simp] theorem recordsDue_ptr (n : Nat) (s : State) : (recordsDue n s).ptr = s.ptr := by
  unfold recordsDue; simp

@[simp] theorem recordOffer_ptr (bit : Nat) (w : Time) (rec3 : List Word) (s : State) :
    (recordOffer bit w rec3 s).ptr = s.ptr :=
  s.each_ptr _ _ fun n t => by simp

@[simp] theorem streamClose_ptr (n cause : Nat) (s : State) : (streamClose n cause s).ptr = s.ptr := by
  unfold streamClose; simp

@[simp] theorem sdpLeaveRun_ptr (s : State) : (sdpLeaveRun s).ptr = s.ptr := by
  unfold sdpLeaveRun streamsClose; simp

/-! ### The impedance engine's windows (R112, R128, R134) -/

@[simp] theorem tonesStop_ptr (s : State) : (tonesStop s).ptr = s.ptr :=
  s.each_ptr _ _ fun _ _ => rfl

@[simp] theorem excDrop_ptr (s : State) : (excDrop s).ptr = s.ptr := by
  unfold excDrop; simp

@[simp] theorem ctxResult_ptr (c : Nat) (w : Time) (cause ndone flags : Nat) (cfg re im : Word) (s : State) :
    (ctxResult c w cause ndone flags cfg re im s).ptr = s.ptr := by
  unfold ctxResult; simp

@[simp] theorem refLost_ptr (c : Nat) (w : Time) (cause : Nat) (cfg : Word) (s : State) :
    (refLost c w cause cfg s).ptr = s.ptr := by
  unfold refLost; simp

@[simp] theorem readyAbort_ptr (cause c : Nat) (s : State) : (readyAbort cause c s).ptr = s.ptr := by
  unfold readyAbort; split <;> simp

@[simp] theorem ctxAbort_ptr (cause c : Nat) (s : State) : (ctxAbort cause c s).ptr = s.ptr := by
  unfold ctxAbort; split <;> simp

@[simp] theorem ctxAbortIf_ptr (cause : Nat) (p : Nat → Word → Bool) (s : State) :
    (ctxAbortIf cause p s).ptr = s.ptr := by
  refine s.each_ptr _ _ fun c t => ?_
  dsimp only
  split
  · simp only [State.ptr_ite, ctxAbort_ptr, ite_self]
    split <;> simp
  · split <;> simp

@[simp] theorem fbResult_ptr (cell : Nat) (w : Time) (cause ndone flags : Nat) (re im : Word) (s : State) :
    (fbResult cell w cause ndone flags re im s).ptr = s.ptr := by
  unfold fbResult; simp

@[simp] theorem fbVoid_ptr (cell : Nat) (w : Time) (cause ndone : Nat) (seen : WinFlags) (s : State) :
    (fbVoid cell w cause ndone seen s).ptr = s.ptr := fbResult_ptr ..

@[simp] theorem fbReadyAbort_ptr (cause : Nat) (s : State) : (fbReadyAbort cause s).ptr = s.ptr := by
  unfold fbReadyAbort; split <;> simp

@[simp] theorem fbAbort_ptr (cause : Nat) (s : State) : (fbAbort cause s).ptr = s.ptr := by
  unfold fbAbort
  simp only [State.onFb_ptr, State.put_ptr]
  split <;> simp

@[simp] theorem impAbortAll_ptr (cause : Nat) (fb : Bool) (s : State) : (impAbortAll cause fb s).ptr = s.ptr := by
  unfold impAbortAll; simp

@[simp] theorem impPhcLost_ptr (s : State) : (impPhcLost s).ptr = s.ptr := by
  unfold impPhcLost; simp

@[simp] theorem impLeaveRun_ptr (s : State) : (impLeaveRun s).ptr = s.ptr := impAbortAll_ptr ..

/-! ### The phase controller (R162 to R175) -/

@[simp] theorem setTrim_ptr (x : Nat) (t : Int) (s : State) : (setTrim x t s).ptr = s.ptr := rfl

@[simp] theorem setActive_ptr (cut : Nat → Bool) (xs : List Nat) (s : State) : (setActive cut xs s).ptr = s.ptr := by
  unfold setActive; simp

@[simp] theorem trimRest_ptr (s : State) : (trimRest s).ptr = s.ptr := by
  unfold trimRest; simp

@[simp] theorem filtHold_ptr (s : State) : (filtHold s).ptr = s.ptr := rfl
@[simp] theorem filtGo_ptr (s : State) : (filtGo s).ptr = s.ptr := rfl

@[simp] theorem phcOff_ptr (st : Nat) (s : State) : (phcOff st s).ptr = s.ptr := by
  unfold phcOff; simp

@[simp] theorem phcCapture_ptr (cause phase : Nat) (s : State) : (phcCapture cause phase s).ptr = s.ptr := by
  unfold phcCapture phcCaptureOf; simp

@[simp] theorem phcLatch_ptr (s : State) : (phcLatch s).ptr = s.ptr := by
  unfold phcLatch; simp

@[simp] theorem shedOverride_ptr (s : State) : (shedOverride s).ptr = s.ptr := rfl

@[simp] theorem softStart_ptr (s : State) : (softStart s).ptr = s.ptr := by
  unfold softStart; simp

@[simp] theorem phcEnter_ptr (s : State) : (phcEnter s).ptr = s.ptr := by
  unfold phcEnter; simp

@[simp] theorem stopCheck_ptr (s : State) : (stopCheck s).ptr = s.ptr := by
  unfold stopCheck; simp

@[simp] theorem phcStop_ptr (s : State) : (phcStop s).ptr = s.ptr := by
  have hleave : ∀ (t : State) (xs : List Nat),
      (t.each xs fun x s => s.onPhase x fun p => { p with leaving := true }).ptr = t.ptr :=
    fun t xs => t.each_ptr xs _ fun _ _ => rfl
  unfold phcStop; simp [hleave]

@[simp] theorem phcPowerOff_ptr (s : State) : (phcPowerOff s).ptr = s.ptr := by
  unfold phcPowerOff; simp

/-! ### The measurement array (R49 to R51, R58, R76) -/

@[simp] theorem trvTo_ptr (st : TrvStep) (s : State) : (trvTo st s).ptr = s.ptr := rfl

@[simp] theorem trvAbandon_ptr (s : State) : (trvAbandon s).ptr = s.ptr := by
  unfold trvAbandon; simp

@[simp] theorem trvPark_ptr (s : State) : (trvPark s).ptr = s.ptr := by
  unfold trvPark; simp

@[simp] theorem trvCheck_ptr (s : State) : (trvCheck s).ptr = s.ptr := by
  unfold trvCheck; split <;> simp

@[simp] theorem calAbort_ptr (d : Nat) (s : State) : (calAbort d s).ptr = s.ptr := by
  unfold calAbort; simp

@[simp] theorem roundBegin_ptr (s : State) : (roundBegin s).ptr = s.ptr := by
  unfold roundBegin; simp

@[simp] theorem roundOver_ptr (aborted : Bool) (s : State) : (roundOver aborted s).ptr = s.ptr := by
  unfold roundOver; simp

@[simp] theorem roundCut_ptr (held : Bool) (s : State) : (roundCut held s).ptr = s.ptr := by
  unfold roundCut; simp

@[simp] theorem hkOff_ptr (s : State) : (hkOff s).ptr = s.ptr := by
  unfold hkOff; simp

@[simp] theorem hkDomainOff_ptr (s : State) : (hkDomainOff s).ptr = s.ptr := by
  unfold hkDomainOff; simp

@[simp] theorem banksBack_ptr (s : State) : (banksBack s).ptr = s.ptr := by
  unfold banksBack; simp

@[simp] theorem arrayOff_ptr (s : State) : (arrayOff s).ptr = s.ptr := by
  unfold arrayOff; simp

/-! ### Balancing, the satellite bus, the Innkeeper, the self-test items -/

@[simp] theorem slotCut_ptr (s : State) : (slotCut s).ptr = s.ptr := rfl

@[simp] theorem balHold_ptr (s : State) : (balHold s).ptr = s.ptr := by
  unfold balHold; simp

@[simp] theorem balStop_ptr (s : State) : (balStop s).ptr = s.ptr := rfl

@[simp] theorem satBusy_ptr (s : State) : (satBusy s).ptr = s.ptr := rfl

@[simp] theorem searchCut_ptr (s : State) : (searchCut s).ptr = s.ptr := by
  unfold searchCut; simp

@[simp] theorem satStop_ptr (s : State) : (satStop s).ptr = s.ptr := by
  unfold satStop satDrop; simp

@[simp] theorem inkStopNow_ptr (s : State) : (inkStopNow s).ptr = s.ptr := by
  unfold inkStopNow inkDiscard; simp

@[simp] theorem disableAll_ptr (s : State) : (disableAll s).ptr = s.ptr := by
  unfold disableAll; simp

@[simp] theorem thermalBegin_ptr (s : State) : (thermalBegin s).ptr = s.ptr := by
  unfold thermalBegin itemsStop; simp

/-! ### The Guard (R347, R350, R356) -/

theorem grdLatch_ptr (bit : Nat) {record : State → State} (hrec : ∀ s, (record s).ptr = s.ptr) (s : State) :
    (grdLatch bit record s).ptr = s.ptr := by
  unfold grdLatch; simp [hrec]

@[simp] theorem demandBegan_ptr (k : Nat) (s : State) : (demandBegan k s).ptr = s.ptr := by
  unfold demandBegan
  dsimp only
  split
  · exact grdLatch_ptr 6 (fun u => u.putBit_ptr _ _ _) _
  · simp

@[simp] theorem wdDisarm_ptr (s : State) : (wdDisarm s).ptr = s.ptr := rfl

@[simp] theorem siFresh_ptr (s : State) : (siFresh s).ptr = s.ptr := by
  unfold siFresh
  split
  · rfl
  · exact s.each_ptr _ _ fun k t => by simp [siPut]

@[simp] theorem grdState_ptr (was : Bool) (s : State) : (grdState was s).ptr = s.ptr := by
  unfold grdState; simp

end Sys2Proof.Machine
end

section
/-! PROOFS. A port's loss and what the head and the time port make of it (R211, R228, R236 to R247) are steady: the
chain's registers and rooms change, and nothing that the Guard's permits and the automatic reactions depend on. -/

namespace Sys2Proof.Machine

section Steady

variable {s t : State} (h : steady s t)
include h

/-! ### Ways to a steady state -/

/-- A change outside the endpoint file, the Porter and the Innkeeper is steady. -/
theorem steady.of_eq {u : State} (hr : u.regs = t.regs) (hp : u.ptr = t.ptr) (hi : u.ink = t.ink) : steady s u := by
  obtain ⟨hgrd, hdev, hdom, hink⟩ := h
  refine ⟨fun a ha => ?_, by rw [hp, hdev], by rw [hp, hdom], fun e => hink (hi ▸ e)⟩
  have hreg : u.reg a = t.reg a := by unfold State.reg; rw [hr]
  exact hreg.trans (hgrd a ha)

theorem steady.ite {u : State} {c : Prop} [Decidable c] (hu : steady s u) : steady s (if c then t else u) := by
  split
  · exact h
  · exact hu

theorem steady.each {α : Type} {f : α → State → State} (hf : ∀ x u, steady s u → steady s (f x u)) (xs : List α) :
    steady s (t.each xs f) := State.each_induct (steady s) f hf xs t h

theorem steady.raise (f : Fld) (hf : isGrd f.addr = false) : steady s (t.raise f) := h.put f 1 hf

theorem steady.raiseIf (b : Bool) (f : Fld) (hf : isGrd f.addr = false) : steady s (t.raiseIf b f) :=
  (h.raise f hf).ite h

/-! ### Rooms and frames -/

theorem steady.setPort (p : Port) (q : PortSt) : steady s (t.setPort p q) := by
  cases p
  · exact h.of_eq rfl rfl rfl
  · exact h.of_eq rfl rfl rfl

theorem steady.onPort (p : Port) (f : PortSt → PortSt) : steady s (t.onPort p f) := h.setPort p _

theorem steady.onSearch (f : SearchSt → SearchSt) : steady s (t.onSearch f) := h.of_eq rfl rfl rfl

theorem steady.offerFrom (host : Bool) (p : Port) (f : Frame) : steady s (offerFrom host p f t) := by
  unfold Machine.offerFrom
  split
  · exact h.onPort p _
  · exact h.of_eq rfl rfl rfl

theorem steady.sendNetLink (p : Port) (up : Bool) : steady s (sendNetLink p up t) :=
  h.each (fun q _ hu => hu.offerFrom false q _) _

theorem steady.headSend (step : HeadStep) (typ len : Nat) (payload : List Word) :
    steady s (headSend step typ len payload t) :=
  (h.each (fun p _ hu => hu.offerFrom false p _) _).of_eq rfl rfl rfl

/-! ### The time port (R242 to R247) -/

theorem steady.sendLine (p : Port) (f : Frame) : steady s (sendLine p f t) :=
  (h.setPort p _).put _ _ (by cases p <;> rfl)

theorem steady.rttSend (p : Port) : steady s (rttSend p t) := by
  unfold Machine.rttSend
  refine steady.sendLine ?_ p _
  exact h.of_eq rfl rfl rfl

theorem steady.setLock (b : Bool) : steady s (setLock b t) := by
  unfold Machine.setLock
  split
  · exact h
  · have hraised : steady s
        ((t.putB F.CHN_TIME_STAT.LOCK b).raise (if b then F.CHN_NET_EVT.LOCK else F.CHN_NET_EVT.UNLOCK)) :=
      (h.put F.CHN_TIME_STAT.LOCK _ rfl).raise _ (by cases b <;> rfl)
    exact (hraised.raiseIf _ F.MEAS_EVT.UNSYNC rfl).of_eq rfl rfl rfl

theorem steady.dropLock : steady s (dropLock t) := (h.setLock false).of_eq rfl rfl rfl

theorem steady.timePortCheck : steady s (timePortCheck t) := by
  have hdrop : ∀ c, steady s (Machine.dropLock (t.put F.CHN_TIME_STAT.TPORT c)) := fun c => (h.put _ c rfl).dropLock
  unfold Machine.timePortCheck
  dsimp only
  split
  · exact h
  · split
    · exact (hdrop _).rttSend _
    · exact hdrop _

/-! ### Routes and lost slots (R233, R236, R238) -/

theorem steady.putLost (n : Nat) (b : Bool) : steady s (putSlot A.CHN_LOSTL A.CHN_LOSTH n b t) := by
  refine h.put _ _ ?_
  show isGrd (if Nat.blt n 32 then A.CHN_LOSTL else A.CHN_LOSTH) = false
  split <;> rfl

theorem steady.markLost : steady s (markLost t) := by
  refine h.each (fun n u hu => ?_) _
  split
  · exact (hu.putLost n true).raise _ rfl
  · split
    · exact (hu.putLost n false).raise _ rfl
    · exact hu

/-- The table of positions lies above the Guard's registers. -/
theorem steady.setPos (k : Nat) (v : Word) : steady s (t.setReg (A.CHN_POS k) v) := by
  refine h.setReg _ v (Bool.eq_false_iff.mpr fun hg => ?_)
  simp only [isGrd, A.CHN_POS, Bool.and_eq_true, Nat.ble_eq, Nat.blt_eq] at hg
  omega

theorem steady.setRoutes (d : Nat) (brkv : Bool) (brk : Nat) (table : List Word) :
    steady s (setRoutes d brkv brk table t) := by
  have hstat := ((h.put F.CHN_NET_STAT.D d rfl).put F.CHN_NET_STAT.BRKV brkv.toNat rfl).put F.CHN_NET_STAT.BRK brk rfl
  have htable := hstat.each (f := fun k u => u.setReg (A.CHN_POS k) (table.getD k 0xFFFFFFFF))
    (fun k u hu => hu.setPos k _) (List.range 16)
  unfold Machine.setRoutes
  exact (htable.ite (htable.put _ _ rfl)).ite htable

theorem steady.recordBreak (b : Nat) : steady s (recordBreak b t) := (h.put _ b rfl).raise _ rfl

theorem steady.headBreak (b : Nat) : steady s (headBreak b t) :=
  (h.setRoutes _ _ _ _).markLost.ite (h.recordBreak b)

theorem steady.setGen (n : Nat) : steady s (setGen n t) := h.ite ((h.put _ n rfl).raise _ rfl)

/-! ### The head (R236 to R243) -/

theorem steady.surveyApply : steady s (surveyApply t) := (h.setRoutes _ _ _ _).markLost.timePortCheck

theorem steady.sendSearch (pre : List Nat) : steady s (sendSearch pre t) :=
  (h.onSearch fun x => { x with prefixNow := pre }).headSend _ _ _ _

theorem steady.sendSet : steady s (sendSet t) := (h.onSearch fun x => { x with again := false }).headSend _ _ _ _

theorem steady.headNext : steady s (headNext t) := by
  unfold Machine.headNext
  split
  · dsimp only
    split
    · exact (h.onSearch _).headSend _ _ _ _
    · exact ((h.onSearch _).onSearch _).raise _ rfl
  · split
    · exact (h.onSearch _).sendSearch _
    · exact h.headSend _ _ _ _

theorem steady.headOver : steady s (headOver t) :=
  have hidle := h.onSearch fun x => { x with step := .idle, full := false, past := [] }
  ((hidle.put _ 0 rfl).raise _ rfl).ite hidle

theorem steady.stepOver1 : steady s (stepOver1 t) := by
  unfold Machine.stepOver1
  split
  · exact h
  · exact (h.onSearch _).headNext
  · exact h.headNext
  · exact h.surveyApply.sendSet
  · exact h.sendSet.ite h.headOver

omit h in
theorem steady.headRun (fuel : Nat) : ∀ {u : State}, steady s u → steady s (headRun fuel u) := by
  induction fuel with
  | zero => exact fun hu => hu
  | succ fuel ih => exact fun hu => (ih hu.stepOver1).ite hu

theorem steady.headBegin (full : Bool) : steady s (headBegin full t) := by
  unfold Machine.headBegin
  refine steady.headRun _ ?_
  dsimp only
  split
  · exact ((h.onSearch _).raise _ rfl).sendSearch []
  · exact (h.onSearch _).headSend _ _ _ _

theorem steady.headChange (up : Bool) : steady s (headChange up t) := by
  have hgen := h.setGen (t.get F.CHN_NET_STAT.GEN + 1)
  unfold Machine.headChange
  dsimp only
  split
  · exact (hgen.raiseIf _ F.CHN_NET_EVT.SRCH_RESTART rfl).headBegin _
  · split
    · exact hgen.headBegin _
    · exact steady.headRun _ hgen.sendSet

/-! ### The port (R211, R228) -/

theorem steady.linkTo (p : Port) (st : Nat) : steady s (linkTo p st t) := h.put _ st (by cases p <;> rfl)

theorem steady.linkSilent (p : Port) (quiet : Bool) : steady s (linkSilent p quiet t) := (h.linkTo p 0).onPort p _

theorem steady.linkChanged (p : Port) (up : Bool) : steady s (linkChanged p up t) := by
  have hsent := h.sendNetLink p up
  have hacted : ∀ u, steady s u → steady s (Machine.timePortCheck (if u.net.headNow then Machine.headChange up u else u)) :=
    fun u hu => ((hu.headChange up).ite hu).timePortCheck
  exact hacted _ (hsent.ite ((hsent.headBreak _).ite (hsent.recordBreak _)))

theorem steady.pumpHanded (p : Port) : steady s (pumpHanded p t) := h.ite ((h.setPort p _).setPort p.opp _)

theorem steady.linkDown (p : Port) (cause : Nat) : steady s (linkDown p cause t) := by
  unfold Machine.linkDown
  extract_lets q up other goes keep drops s1 s2 waits net s3 s4 s5 s6 s7
  have h1 : steady s s1 := h.setPort p _
  have h2 : steady s s2 := h1.ite (h1.onPort other _)
  have h3 : steady s s3 := h2.of_eq rfl rfl rfl
  have h4 : steady s s4 := (h3.put _ _ (by cases p <;> rfl)).setReg _ 0 (by cases p <;> rfl)
  have h5 : steady s s5 := (h4.put _ _ (by cases p <;> rfl)).raise _ (by cases p <;> rfl)
  have h6 : steady s s6 := ((h5.linkTo p 0).put _ cause (by cases p <;> rfl)).pumpHanded p
  have h7 : steady s s7 := (h6.each (fun x _ hu => hu.offerFrom x.host other x.frame) waits).ite h6
  exact (h7.linkChanged p false).ite h7

theorem steady.linkStop (p : Port) : steady s (linkStop p t) :=
  (h.ite (h.linkDown p 6)).linkSilent p false

theorem steady.portGone (p : Port) : steady s (portGone p t) :=
  ((h.linkStop p).put _ 0 (by cases p <;> rfl)).setPort p _

end Steady

end Sys2Proof.Machine
end

section
/-! PROOFS. The domains (spec/01_architecture.md R13 to R15, spec/14_porter_and_power.md R408 and R409): what a request
stores, what a switch-on and a switch-off do to the domains, and that nothing that follows from a command switches one. -/

namespace Sys2Proof.Machine

/-! ### What follows from a command switches no domain -/

@[simp] theorem setDev_dom (d : DevState) (s : State) : (setDev d s).ptr.dom = s.ptr.dom := by
  unfold setDev
  split
  · rfl
  · simp

theorem enterRecover_dom (s : State) : (enterRecover s).ptr.dom = s.ptr.dom := by
  unfold enterRecover; simp

theorem ranked_dom (row : Nat) (s : State) : (ranked row s).ptr.dom = s.ptr.dom := rfl

theorem autoRecover_dom (f : Fld) (s : State) : (autoRecover f s).ptr.dom = s.ptr.dom := by
  unfold autoRecover
  split
  · rw [ranked_dom, enterRecover_dom, State.raise_ptr, State.raise_ptr]
  · rw [State.raise_ptr]
  · rfl

theorem causeLost_dom (f : Fld) (s : State) : (causeLost f s).ptr.dom = s.ptr.dom := by
  unfold causeLost
  rw [State.onPtr_ptr, State.raise_ptr]
  split <;> rfl

theorem autoCause_dom (lost : Bool) (f : Fld) (s : State) : (autoCause lost f s).ptr.dom = s.ptr.dom := by
  unfold autoCause
  split
  · exact causeLost_dom f s
  · split
    · exact causeLost_dom f s
    · exact autoRecover_dom f s

@[simp] theorem settleDemands_ptr (s t : State) : (settleDemands s t).ptr = t.ptr :=
  t.each_ptr _ _ demandBegan_ptr

theorem settleCauses_dom (s t : State) : (settleCauses s t).ptr.dom = t.ptr.dom := by
  have hcause : ∀ (c : Bool) (lost : Bool) (f : Fld) (u : State),
      (if c then autoCause lost f u else u).ptr.dom = u.ptr.dom := fun c lost f u => by
    split
    · exact autoCause_dom lost f u
    · rfl
  unfold settleCauses
  dsimp only
  rw [State.ptr_ite, thermalBegin_ptr, ite_self, hcause, hcause]

/-- What follows from a command switches no domain. -/
theorem settle_dom (s t : State) : (settle s t).ptr.dom = t.ptr.dom := by
  have hgrd : ∀ u : State, (grdSettle u).ptr = u.ptr := fun u => by rw [(grdSettle_only u).1]
  have hcpl : ∀ u : State, (bcastSettle u).ptr = u.ptr := fun u => by rw [show bcastSettle u = _ from bcastSettle_only u]
  unfold settle
  rw [hgrd, hcpl, settleCauses_dom, settleDemands_ptr]

theorem settle_on (s t : State) (d : Nat) : (settle s t).on d = t.on d := by
  unfold State.on
  rw [settle_dom]

/-! ### One domain's bit (R13) -/

/-- Switching one domain leaves every other. -/
theorem setDom_on {d x : Nat} (hx : x < 10) (b : Bool) (s : State) :
    (setDom d b s).on x = if x = d then b else s.on x := by
  have hbit : (BitVec.ofNat 10 (2 ^ d)).getLsbD x = decide (x = d) := by
    rw [BitVec.getLsbD_ofNat, Nat.testBit_two_pow]
    simp [hx, eq_comm]
  unfold setDom State.on
  rw [State.onPtr_ptr]
  cases b
  · simp only [Bool.false_eq_true, if_false, BitVec.getLsbD_and, BitVec.getLsbD_not, hbit, hx]
    by_cases h : x = d <;> simp [h]
  · simp only [if_true, BitVec.getLsbD_or, hbit]
    by_cases h : x = d <;> simp [h]

theorem setDom_dom_congr {s t : State} (h : t.ptr.dom = s.ptr.dom) (d : Nat) (b : Bool) :
    (setDom d b t).ptr.dom = (setDom d b s).ptr.dom := by
  unfold setDom
  simp only [State.onPtr_ptr, h]

theorem lt_of_mem_domSet : ∀ d ∈ domSet, d < 10 := by decide

/-! ### What a switch-on and a switch-off bring about (R32, R51, R174, R211) -/

@[simp] theorem linkLeave_ptr (p : Port) (s : State) : (linkLeave p s).ptr = s.ptr := by
  unfold linkLeave linkTo; simp

theorem domTurnOn_ptr (d : Nat) (s : State) : (domTurnOn d s).ptr = (setDom d true s).ptr := by
  unfold domTurnOn
  dsimp only
  split <;> simp

theorem domTurnOff_dom (d : Nat) (s : State) : (domTurnOff d s).ptr.dom = (setDom d false s).ptr.dom := by
  have hport : ∀ p, (portGone p s).ptr.dom = s.ptr.dom := fun p => by
    obtain ⟨-, -, hdom, -⟩ := (steady.refl s).portGone p
    exact hdom
  unfold domTurnOff
  split
  · rw [trvCheck_ptr]
    exact setDom_dom_congr (by rw [calAbort_ptr]) 2 false
  · rw [trvCheck_ptr]
    exact setDom_dom_congr (by rw [hkDomainOff_ptr]) 3 false
  · exact setDom_dom_congr (hport .north) 7 false
  · exact setDom_dom_congr (hport .south) 8 false
  · exact setDom_dom_congr (by rw [phcPowerOff_ptr]) 9 false
  · rfl

/-! ### A port whose domain has switched off is silent (R32, R211) -/

theorem linkState_setPort (s : State) (p q : Port) (x : PortSt) : (s.setPort q x).linkState p = s.linkState p := by
  cases q <;> rfl

theorem linkState_linkSilent (p : Port) (quiet : Bool) (s : State) : (linkSilent p quiet s).linkState p = 0 := by
  unfold linkSilent State.onPort
  rw [linkState_setPort]
  exact State.get_put_same s _ 0 (by cases p <;> rfl)

theorem linkState_portGone (p : Port) (s : State) : (portGone p s).linkState p = 0 := by
  unfold portGone
  rw [linkState_setPort]
  refine (State.get_put_apart _ _ _ 0 (by cases p <;> rfl)).trans ?_
  exact linkState_linkSilent p false _

/-- A domain other than the Guard's bears on nothing that follows from a command. -/
theorem settle_setDom_before {d : Nat} (hd : d ≠ 6) (b : Bool) (s t : State) :
    settle (setDom d b s) t = settle s t := by
  have hdem : ∀ k, (setDom d b s).demanding k = s.demanding k := fun k => by
    unfold State.demanding State.grdJudging
    rw [setDom_on (by decide), if_neg hd.symm]
    rfl
  unfold settle settleCauses settleDemands
  simp only [hdem]
  rfl

/-- A port of a domain that has switched off stays silent through what follows. -/
theorem linkState_portOff {p : Port} {d : Nat} (hd : d ≠ 6) (s : State) :
    (settle s (setDom d false (portGone p s))).linkState p = 0 := by
  obtain ⟨hgrd, hdev, hdom, hink⟩ := (steady.refl s).portGone p
  have hsteady : steady (setDom d false s) (setDom d false (portGone p s)) :=
    ⟨hgrd, hdev, setDom_dom_congr hdom d false, hink⟩
  rw [← settle_setDom_before hd false]
  unfold State.linkState State.get
  rw [(settle_only hsteady).regs _ (by cases p <;> decide)]
  exact linkState_portGone p s

/-! ### The two commands (R408, R409) -/

theorem domOn_go {d : Nat} {s : State} (hd : d ∈ domSet) (hoff : s.on d = false) (hwant : s.domWant d = true)
    (hready : s.domReady d = true) : domOn d s = domTurnOn d s := by
  unfold domOn
  simp [hd, hoff, hwant, hready]

theorem domOn_stay {d : Nat} {s : State}
    (h : d ∉ domSet ∨ s.on d = true ∨ s.domWant d = false ∨ s.domReady d = false) : domOn d s = s := by
  unfold domOn
  rcases h with h | h | h | h <;> simp [h]

theorem domOff_go {d : Nat} {s : State} (hd : d ∈ domSet) (hon : s.on d = true) (hwant : s.domWant d = false)
    (htest : s.ptr.dev ≠ .test) : domOff d s = domTurnOff d s := by
  unfold domOff
  simp [hd, hon, hwant, htest]

theorem domOff_stay {d : Nat} {s : State}
    (h : d ∉ domSet ∨ s.on d = false ∨ s.domWant d = true ∨ s.ptr.dev = .test) : domOff d s = s := by
  unfold domOff
  rcases h with h | h | h | h <;> simp [h]

/-- A domain is on after its switch-on, and the others are as before. -/
theorem settle_domTurnOn_on {x : Nat} (hx : x < 10) (d : Nat) (s : State) :
    (settle s (domTurnOn d s)).on x = if x = d then true else s.on x := by
  rw [settle_on, ← setDom_on hx]
  unfold State.on
  rw [domTurnOn_ptr]

/-- A domain is off after its switch-off, and the others are as before. -/
theorem settle_domTurnOff_on {x : Nat} (hx : x < 10) (d : Nat) (s : State) :
    (settle s (domTurnOff d s)).on x = if x = d then false else s.on x := by
  rw [settle_on, ← setDom_on hx]
  unfold State.on
  rw [domTurnOff_dom]

/-! ### A write to PTR_DOM (R15, R408) -/

/-- A sum of distinct powers of two, the largest last, has the bits of its exponents. -/
theorem testBit_sum_two_pow (xs : List Nat) : ∀ n : Nat, xs.Pairwise (· < ·) → (∀ x ∈ xs, n < 2 ^ x) →
    ∀ i, (xs.foldl (fun n x => n + 2 ^ x) n).testBit i = (n.testBit i || decide (i ∈ xs)) := by
  induction xs with
  | nil => intro n _ _ i; simp
  | cons x xs ih =>
    intro n hsorted hbelow i
    obtain ⟨hx, hxs⟩ := List.pairwise_cons.mp hsorted
    have hn : n < 2 ^ x := hbelow x List.mem_cons_self
    have hor : n + 2 ^ x = 2 ^ x ||| n := by
      rw [Nat.add_comm]
      simpa using Nat.two_pow_add_eq_or_of_lt hn 1
    have hnext : ∀ y ∈ xs, n + 2 ^ x < 2 ^ y := fun y hy => by
      have hpow : 2 ^ (x + 1) ≤ 2 ^ y := Nat.pow_le_pow_right (by decide) (hx y hy)
      omega
    rw [List.foldl_cons, ih _ hxs hnext, hor, Nat.testBit_or, Nat.testBit_two_pow]
    rw [Bool.eq_iff_iff]
    simp only [Bool.or_eq_true, decide_eq_true_eq, List.mem_cons, eq_comm (a := x)]
    exact or_assoc.trans or_left_comm

/-- The domains of PTR_DOM that a word asks for. -/
def requested (v : Word) : List Nat := domSet.filter fun d => v.getLsbD d

/-- A newly requested domain is allowed and lacks a prerequisite (R15). -/
def State.depError (s : State) (v : Word) : Bool :=
  (requested v).any fun d => !s.rbit A.PTR_DOM d && s.domMay d && !s.domReady d

theorem wrPtrDom_eq (v : Word) (s : State) :
    wrPtrDom v s =
      (s.put F.PTR_DOM.REQ ((requested v).foldl (fun n d => n + 2 ^ d) 0)).raiseIf (s.depError v) F.PTR_EVT.DEP_ERR := rfl

theorem depError_iff (s : State) (v : Word) : s.depError v = true ↔
    ∃ d ∈ domSet, v.getLsbD d = true ∧ s.rbit A.PTR_DOM d = false ∧ s.domMay d = true ∧ s.domReady d = false := by
  simp [State.depError, requested, and_assoc]

theorem quiet.wrPtrDom (v : Word) (s : State) : quiet s (wrPtrDom v s) :=
  ((quiet.refl s).put F.PTR_DOM.REQ _ rfl rfl).raiseIf _ F.PTR_EVT.DEP_ERR rfl rfl

theorem wrPtrDom_ptr (v : Word) (s : State) : (wrPtrDom v s).ptr = s.ptr := by
  rw [wrPtrDom_eq, State.raiseIf_ptr, State.put_ptr]

theorem rbit_wrPtrDom (v : Word) (s : State) {d : Nat} (hd : d < 10) :
    (wrPtrDom v s).rbit A.PTR_DOM d = (domSet.contains d && v.getLsbD d) := by
  have hreg : (wrPtrDom v s).reg A.PTR_DOM =
      F.PTR_DOM.REQ.write (s.reg A.PTR_DOM) ((requested v).foldl (fun n d => n + 2 ^ d) 0) := by
    rw [wrPtrDom_eq, State.raiseIf]
    refine Eq.trans ?_ (State.reg_setReg_same s A.PTR_DOM _)
    split
    · exact State.reg_put_ne _ F.PTR_EVT.DEP_ERR 1 (by decide)
    · rfl
  have hsorted : (requested v).Pairwise (· < ·) := List.Pairwise.filter _ (by decide)
  have hfield :
      (decide (d < 32) && decide (F.PTR_DOM.REQ.lo ≤ d) && decide (d < F.PTR_DOM.REQ.lo + F.PTR_DOM.REQ.w)) = true := by
    simp [F.PTR_DOM.REQ, hd, Nat.lt_trans hd (by decide : 10 < 32)]
  unfold State.rbit
  rw [hreg, Fld.getLsbD_write, if_pos hfield,
    testBit_sum_two_pow _ 0 hsorted fun x _ => Nat.two_pow_pos x]
  simp [requested, F.PTR_DOM.REQ]

theorem depErr_wrPtrDom (v : Word) (s : State) :
    (wrPtrDom v s).get F.PTR_EVT.DEP_ERR = if s.depError v then 1 else s.get F.PTR_EVT.DEP_ERR := by
  rw [wrPtrDom_eq]
  cases s.depError v
  · exact State.get_put_apart s F.PTR_DOM.REQ F.PTR_EVT.DEP_ERR _ (by decide)
  · exact State.get_put_same _ F.PTR_EVT.DEP_ERR 1 (by decide)

/-! ### The statement -/

theorem exec_domRequest {s : State} (hs : s.rested) (h5 : s.on 5 = true) (v : Word) :
    exec (.domRequest v) s = .next (wrPtrDom v s) := by
  show done s (byProgram (wrPtrDom v) s) = _
  unfold byProgram
  rw [if_pos h5]
  exact done_quiet hs (quiet.wrPtrDom v s)

theorem exec_domainOn (d : Nat) (s : State) : exec (.domainOn d) s = .next (settle s (domOn d s)) := rfl

theorem exec_domainOff (d : Nat) (s : State) : exec (.domainOff d) s = .next (settle s (domOff d s)) := rfl

/-- Settles O49: a request is quiet, and a switch-on and a switch-off change one bit of the domains, which nothing that
follows from them changes. -/
theorem porterDomains : Obligations.PorterDomains := by
  unfold Obligations.PorterDomains
  intro s hs
  refine ⟨fun v h5 => ?_, fun d hd hoff hwant hready => ?_, fun d h => ?_, fun d hd hon hwant htest => ?_, fun d h => ?_⟩
  · refine ⟨_, exec_domRequest hs h5 v, by rw [wrPtrDom_ptr], fun d hd => rbit_wrPtrDom v s hd, fun hbad => ?_,
      fun hgood => ?_⟩
    · rw [depErr_wrPtrDom, if_pos ((depError_iff s v).mpr hbad)]
    · rw [depErr_wrPtrDom, if_neg]
      intro hbad
      obtain ⟨d, hd, hv, hnew, hmay, hnot⟩ := (depError_iff s v).mp hbad
      simpa [hnew, hmay, hnot] using hgood d hd hv
  · refine ⟨_, exec_domainOn d s, ?_, fun x hx hne => ?_⟩
    · rw [domOn_go hd hoff hwant hready, settle_domTurnOn_on (lt_of_mem_domSet d hd), if_pos rfl]
    · rw [domOn_go hd hoff hwant hready, settle_domTurnOn_on hx, if_neg hne]
  · rw [exec_domainOn, domOn_stay h]
    exact done_quiet hs (quiet.refl s)
  · refine ⟨_, exec_domainOff d s, ?_, fun x hx hne => ?_, ?_, ?_⟩ <;> rw [domOff_go hd hon hwant htest]
    · rw [settle_domTurnOff_on (lt_of_mem_domSet d hd), if_pos rfl]
    · rw [settle_domTurnOff_on hx, if_neg hne]
    · rintro rfl
      exact linkState_portOff (by decide) s
    · rintro rfl
      exact linkState_portOff (by decide) s
  · rw [exec_domainOff, domOff_stay h]
    exact done_quiet hs (quiet.refl s)

end Sys2Proof.Machine
end

section
/-! PROOFS. The chain ports (spec/07_chain_link.md): a loss frees the rooms that requests wait for, and a request that
waited then acts within the command that lost the link. Where that request clears CHN_Px_EVT.LOST, the event of this very
loss does not stand after the command. -/

namespace Sys2Proof.Machine

/-! ### The commands that lose a link (R225, R227) -/

/-- A training block in UP loses the link with cause 5. -/
theorem exec_trainingBlock_up {s : State} {p : Port} (hup : s.linkState p = 4) (peerOk : Bool) :
    exec (.trainingBlock p false peerOk) s = .next (settle s (lossAt p 5 s)) := by
  show done s (blockTake p false peerOk s) = _
  unfold blockTake
  simp only [Bool.false_and, Bool.false_eq_true, if_false, hup]
  rfl

/-- The eighth expiry for the oldest uncovered frame loses the link with cause 4. -/
theorem exec_retryTimer_eighth {s : State} {p : Port} {x : TxFrame} {i : Nat} (hup : s.portUp p = true)
    (hold : (s.port p).oldest (fun y => y.stage != .new) = some (x, i)) (hsent : x.stage = .sent) (hexp : 7 ≤ x.expiries) :
    exec (.retryTimer p) s = .next (settle s (lossAt p 4 s)) := by
  show done s (retryExpire p s) = _
  unfold retryExpire
  simp only [hold, hup, hsent, Nat.ble_eq_true_of_le hexp, Bool.not_true, Bool.false_or, bne_self_eq_false,
    Bool.false_eq_true, if_false, if_true]
  rfl

/-! ### A request that waits for the loss -/

/-- The head's WRITE to slot 1 that clears CHN_P_EVT.LOST of the South port. -/
def clearLost : Frame :=
  { cls := 1, typ := 1, src := 0, dst := 1, gen := 0, gst := 0, seq := 0, len := 8, strm := 0, time := 0, crd := [0, 0, 0, 0],
    ack := 0, payload := [requestWord 16 1 (A.CHN_P_EVT 1), 2], crcOk := true, formOk := true }

/-- The response to an earlier WRITE of the head, sent with a SEQ and expired seven times. -/
def sentResponse (seq : Nat) : TxFrame :=
  ⟨{ cls := 1, typ := 33, src := 1, dst := 0, gen := 0, gst := 0, seq := seq, len := 4, strm := 0, time := 0,
     crd := [0, 0, 0, 0], ack := 0, payload := [responseWord seq 0 0 0], crcOk := true, formOk := true }, .sent, 7⟩

/-- A device in RUN at slot 1, the end of an open chain of two: South, towards the head, is in UP, sixteen responses fill its
CONTROL transmit room, and the head's WRITE waits in its receive room. -/
def writeWaits : State :=
  let s : State := { State.reset with
    ptr := { State.reset.ptr with dev := .run, dom := 0x3FF }
    south := { PortSt.fresh with
      tx := (List.range 16).map sentResponse, txSeq := 16, rx := [⟨clearLost, none⟩], rxSeq := 1 } }
  ((((((s.put (F.CHN_P_STAT.STATE 1) 4).put F.CHN_NET_STAT.SLOTV 1).put F.CHN_NET_STAT.SLOT 1).put F.CHN_NET_STAT.POS 1).put
    F.CHN_NET_STAT.D 2).put F.CHN_NET_STAT.BRKV 1).setReg (A.CHN_POS 0) 0xFFFF0100

theorem writeWaits_rested : writeWaits.rested :=
  ⟨bcastSettle_of_nil rfl, (grdSettle_self_iff _).mpr ⟨by decide, by decide⟩⟩

/-- Nothing that waits there can move before the loss (R22): the WRITE has no room for its response. -/
theorem pumpAll_writeWaits : pumpAll writeWaits = writeWaits := by decide +kernel

/-- The loss sets LOST, and with the only link gone the WRITE waits for no room any more (R228, R234). -/
theorem linkLoss_frees_write : ∀ cause ∈ [4, 5],
    (linkLoss .south cause writeWaits).get (F.CHN_P_EVT.LOST 1) = 1 ∧
    (linkLoss .south cause writeWaits).canTake clearLost = true := by decide

/-- So the WRITE is carried out before the command ends, and LOST reads 0 after it (R6, R22). -/
theorem lossAt_clears_lost : ∀ cause ∈ [4, 5],
    (settle writeWaits (lossAt .south cause writeWaits)).get (F.CHN_P_EVT.LOST 1) = 0 := by decide +kernel

/-! ### The statements -/

/-- Refutes O28: a training block in UP loses the link, and the WRITE that waited for room clears EVT.LOST in the same
command. -/
theorem not_linkStates : ¬ Obligations.LinkStates := by
  unfold Obligations.LinkStates
  intro h
  obtain ⟨-, -, -, -, -, -, -, -, -, -, -, hblock, -⟩ := h writeWaits .south writeWaits_rested
  have hup : writeWaits.linkState .south = 4 := by decide
  obtain ⟨t, ht, -, -, hlost, -⟩ := hblock false false hup
  rw [← Host.Outcome.next.inj ((exec_trainingBlock_up hup false).symm.trans ht)] at hlost
  exact absurd (hlost.symm.trans (lossAt_clears_lost 5 (by decide))) (by decide)

/-- Refutes O29: the eighth expiry loses the link, and the WRITE that waited for room clears EVT.LOST in the same
command. -/
theorem not_linkFrames : ¬ Obligations.LinkFrames := by
  unfold Obligations.LinkFrames
  intro h
  obtain ⟨-, -, -, -, -, -, -, -, -, hretry, -⟩ := h writeWaits .south writeWaits_rested
  have hup : writeWaits.portUp .south = true := by decide
  have hold : (writeWaits.port .south).oldest (fun y => y.stage != .new) = some (sentResponse 0, 0) := by decide
  obtain ⟨t, ht, -, -, hlost⟩ := (hretry _ _ hup hold rfl).1 (Nat.le_refl 7)
  rw [← Host.Outcome.next.inj ((exec_retryTimer_eighth hup hold rfl (Nat.le_refl 7)).symm.trans ht)] at hlost
  exact absurd (hlost.symm.trans (lossAt_clears_lost 4 (by decide))) (by decide)

end Sys2Proof.Machine
end

section
/-! PROOFS. The chain network, the host port and the rings (spec/08_chain_network.md, spec/13_store.md). What the
statements say of a command does not stand where its frame waits for a room (R22, R222); where the acknowledgement that came
with it lets another request go on within the same command (R225); where an older request stands for the new one (R258);
and where a ring is larger than its offsets reach (R381). -/

namespace Sys2Proof.Machine

/-! ### States, frames and outcomes -/

/-- Nothing is left to follow where no transaction of the Innkeeper is out, the Guard's status has been acted on, and no
note waits. -/
theorem rested_of_settled {s : State} (hout : s.ink.out = []) (hset : s.settled = true) (hnote : s.grd.noteWaits = false) :
    s.rested := by
  refine ⟨bcastSettle_of_nil (by rw [hout]; rfl), (grdSettle_self_iff s).mpr ⟨hset, ?_⟩⟩
  unfold State.noteGoes
  rw [hnote]
  rfl

/-- A command has one next state. -/
theorem exec_next_unique {i : Instr} {s t u : State} (ht : exec i s = .next t) (hu : exec i s = .next u) : t = u :=
  Host.Outcome.next.inj (ht.symm.trans hu)

/-- A device in RUN with every domain on. -/
def deviceRuns : State := { State.reset with ptr := { State.reset.ptr with dev := .run, dom := 0x3FF } }

/-- A good frame of `len` payload bytes from a slot, with its SEQ and ACK. -/
def chainFrame (cls typ src dst len seq ack : Nat) (payload : List Word) : Frame :=
  { cls := cls, typ := typ, src := src, dst := dst, gen := 0, gst := 0, seq := seq, len := len, strm := 0, time := 0,
    crd := [0, 0, 0, 0], ack := ack, payload := payload, crcOk := true, formOk := true }

/-! ### A NET_SEARCH whose way on is full (R222, R238) -/

/-- A GRD_NOTE of slot 2, passed on with a SEQ and not acknowledged yet. -/
def sentNote (seq : Nat) : TxFrame := ⟨chainFrame 0 0x10 2 0x7F 16 seq 0xFF [0xF, 0, 0, 0], .sent, 0⟩

/-- A member with both links UP; four notes fill the SAFETY transmit room of its North port. -/
def northFull : State :=
  let s : State := { deviceRuns with north := { PortSt.fresh with tx := (List.range 4).map sentNote, txSeq := 4 } }
  (s.put (F.CHN_P_STAT.STATE 0) 4).put (F.CHN_P_STAT.STATE 1) 4

theorem northFull_rested : northFull.rested := rested_of_settled rfl (by decide) rfl

/-- The head's NET_SEARCH that every number matches, before its first hop. -/
def firstSearch : Frame := chainFrame 0 0x08 0 0x7F 44 0 0xFF (0 :: 0 :: 0 :: List.replicate 8 0xFFFFFFFF)

/-- The member after it has arrived from the South. -/
def searchWaits : State := settle northFull (takeNet .south 0x08 firstSearch (searchDeliver .south firstSearch) northFull)

/-- It stays in the South receive room with its hop counted, and not in the North transmit room; no frame of the member's
own waits. -/
theorem searchWaits_rooms :
    (searchWaits.port .south).rx.map (fun x => (frameHops x.frame, x.dest)) = [(1, some .north)] ∧
      (∀ g ∈ (searchWaits.port .north).tx.map (·.frame), frameHops g ≠ 1) ∧ searchWaits.net.outbox = [] := by
  decide +kernel

/-- No frame that leaves by the North port has come one hop. -/
theorem searchWaits_not_leaving {g : Frame} (h : leaving searchWaits .north g) : frameHops g ≠ 1 := by
  obtain ⟨-, hroom, houtbox⟩ := searchWaits_rooms
  rcases h with htx | ⟨x, hx, -⟩
  · exact hroom g htx
  · rw [houtbox] at hx
    exact absurd hx List.not_mem_nil

/-- Refutes O30: a NET_SEARCH in order stands in the receive room, and not among the frames that leave, while the SAFETY
transmit room of the opposite port is full. -/
theorem not_networkSteps : ¬ Obligations.NetworkSteps := by
  unfold Obligations.NetworkSteps
  intro h
  obtain ⟨hsearch, -⟩ := h northFull northFull_rested
  obtain ⟨t, ht, -, g, hg, hhops, -⟩ := hsearch .south firstSearch
    ⟨⟨by decide, by decide, rfl, by decide, by decide⟩, by decide, rfl⟩ rfl (by decide) rfl (by decide)
  rw [exec_next_unique ht (u := searchWaits) rfl] at hg
  exact searchWaits_not_leaving hg (hhops.trans (by decide))

/-! ### A request that waits for room, and the acknowledgement that brings it (R22, R225) -/

/-- The response of the head to a WRITE of a slot, sent with a SEQ and not acknowledged yet. -/
def sentAnswer (dst seq : Nat) : TxFrame := ⟨chainFrame 1 33 0 dst 4 seq 0xFF [responseWord seq 0 0 0], .sent, 0⟩

/-- The head of an intact ring of four, slot `n` at position `n`. Sixteen responses fill the CONTROL transmit room of each
port: those to slot 3 the North one, and those to slot 2, as far either way, the South one. A request `x` waits in the
receive room of the North port. -/
def ringHead (x : Frame) : State :=
  let s : State := { deviceRuns with
    north := { PortSt.fresh with tx := (List.range 16).map (sentAnswer 3), txSeq := 16, rx := [⟨x, none⟩], rxSeq := 1 }
    south := { PortSt.fresh with tx := (List.range 16).map (sentAnswer 2), txSeq := 16 }
    net := { NetSt.fresh with headNow := true } }
  ((((s.put (F.CHN_P_STAT.STATE 0) 4).put (F.CHN_P_STAT.STATE 1) 4).put F.CHN_NET_STAT.SLOTV 1).put F.CHN_NET_STAT.D
    4).setReg (A.CHN_POS 0) 0x03020100

theorem ringHead_settled (x : Frame) : (ringHead x).settled = true := by
  show (ringHead default).settled = true
  decide

theorem ringHead_rested (x : Frame) : (ringHead x).rested := rested_of_settled rfl (ringHead_settled x) rfl

/-- The WRITE of one word to a register of the head, from a slot whose frames arrive at its North port. -/
def writeFrom (src a : Nat) (v : Word) : Frame := chainFrame 1 1 src 0 8 0 0xFF [requestWord 16 1 a, v]

/-- Slot 2's WRITE that clears GST and UNSLOT, and its WRITE that clears STRM_UNK. -/
def clearNotes : Frame := writeFrom 2 A.INK_SLATG 0x8000000F
def clearUnknown : Frame := writeFrom 2 A.CHN_NET_EVT 0x400

/-- Slot 3's WRITE that enables an event of the Porter. -/
def enableEvent : Frame := writeFrom 3 A.PTR_EVT_EN 1

/-- A GRD_NOTE of slot 1 with every bit of GST, which acknowledges the sixteen responses on the South link. -/
def fullNote : Frame := chainFrame 0 0x10 1 0x7F 16 0 15 [0xF, 0, 0, 0]

/-- The head after it: the note is latched, and the WRITE that has got its room is carried out. -/
def noteCleared : State := settle (ringHead clearNotes) (noteTake .south fullNote (ringHead clearNotes))

/-- Slot 2's READ of the Porter's enables, which acknowledges the sixteen responses on the North link. -/
def readEnables : Frame := chainFrame 1 0 2 0 4 1 15 [requestWord 0 1 A.PTR_EVT_EN]

/-- The head after it: the WRITE before it has got its room. -/
def enableWritten : State :=
  settle (ringHead enableEvent) (pumpAll (takeRequest .north 0 readEnables (ringHead enableEvent)))

/-- A STREAM block of slot 1, whose stream-table entry is not enabled, which acknowledges the sixteen responses on the South
link. -/
def strayBlock : Frame := chainFrame 2 0 1 0 8 0 15 [0, 0]

/-- The head after it: the block is counted as unknown, and the WRITE that has got its room is carried out. -/
def strayCleared : State :=
  settle (ringHead clearUnknown) (pumpAll (streamTake .south strayBlock (ringHead clearUnknown)))

/-- What the three heads hold then: each WRITE has been carried out within the command that brought the frame. -/
theorem writes_carried_out :
    noteCleared.get F.INK_SLATG.GST = 0 ∧ enableWritten.reg A.PTR_EVT_EN = 1 ∧
      strayCleared.get F.CHN_NET_EVT.STRM_UNK = 0 := by
  decide +kernel

/-- Refutes O31: the ACK of a GRD_NOTE frees the room that a WRITE of INK_SLATG waits for, and the WRITE clears what the
note has just merged. -/
theorem not_chainTime : ¬ Obligations.ChainTime := by
  unfold Obligations.ChainTime
  intro h
  obtain ⟨-, -, -, -, -, -, -, -, -, hnote⟩ := h (ringHead clearNotes) (ringHead_rested _)
  obtain ⟨hcleared, -⟩ := writes_carried_out
  obtain ⟨t, ht, hgst, -⟩ :=
    hnote .south fullNote ⟨by decide, by decide, rfl, by decide, by decide⟩ (by decide) rfl (by decide)
  rw [exec_next_unique ht (u := noteCleared) rfl, hcleared] at hgst
  exact absurd hgst (by decide)

/-- The response of `readEnables` goes South, where there is no room. -/
theorem readEnables_waits : (goodFrame .north readEnables (ringHead enableEvent)).canAnswer readEnables = false := by
  decide

/-- Refutes O32: a READ that has no room for its response frees with its ACK the room of a WRITE before it, which changes
the register while the READ waits. -/
theorem not_remoteAccesses : ¬ Obligations.RemoteAccesses := by
  unfold Obligations.RemoteAccesses
  intro h
  obtain ⟨-, -, -, -, -, hwaits⟩ := h (ringHead enableEvent) .north .south readEnables A.PTR_EVT_EN 0 (ringHead_rested _)
    ⟨by decide, by decide, rfl, by decide, by decide⟩ rfl (by decide) (by decide) (by decide) (by decide) (by decide) rfl
    (by decide)
  obtain ⟨-, hwritten, -⟩ := writes_carried_out
  obtain ⟨t, ht, -, hreg⟩ := (hwaits readEnables_waits).1 rfl
  rw [exec_next_unique ht (u := enableWritten) rfl, hwritten] at hreg
  exact absurd hreg (by decide)

/-- Refutes O45: the ACK of a STREAM frame frees the room that a WRITE of CHN_NET_EVT waits for, and the WRITE clears
STRM_UNK, which the frame has just set. -/
theorem not_rings : ¬ Obligations.Rings := by
  unfold Obligations.Rings
  intro h
  obtain ⟨-, -, -, -, -, -, hstream, -⟩ := h (ringHead clearUnknown) 0 0 (ringHead_rested _) (by decide) (by decide)
  obtain ⟨t, ht, -, hunknown, -⟩ := hstream .south strayBlock rfl (by decide) rfl (by decide) rfl (by decide) (by decide)
    (by decide) (by decide) rfl rfl rfl
  obtain ⟨-, -, hcleared⟩ := writes_carried_out
  have hevent := hunknown (by decide) (by decide)
  rw [exec_next_unique ht (u := strayCleared) rfl, hcleared] at hevent
  exact absurd hevent (by decide)

/-! ### A mirror range that has moved (R258) -/

/-- The READ of mirror range 0 that is outstanding at slot 1, from the range's former address. -/
def formerRead : Request := ⟨.mirror 0, 1, 0, 0x100, 1, [], some 0, false, 0⟩

/-- A head with slot 1 assigned, whose range 0 has been moved to 0x200 since that READ went out. -/
def rangeMoved : State :=
  let s : State := { deviceRuns with net := { NetSt.fresh with headNow := true, requests := [formerRead] } }
  ((s.put (F.CHN_MIR_A.EN 0) 1).put (F.CHN_MIR_A.ADDR 0) 0x200).putBit A.CHN_ASGL 1 true

theorem rangeMoved_rested : rangeMoved.rested := rested_of_settled rfl (by decide) rfl

/-- The head after the refresh of the range. -/
def rangeRefreshed : State := settle rangeMoved (upTo 16 0 (mirrorRead 0) rangeMoved)

/-- The new READ has joined the one that is outstanding (log entry 44), whose address stays. -/
theorem rangeRefreshed_requests : rangeRefreshed.net.requests = [formerRead] := by decide

/-- Refutes O33: a refresh asks a slot for nothing new while an older READ of the range is outstanding there, though the
range has got another address since. -/
theorem not_remoteTransfers : ¬ Obligations.RemoteTransfers := by
  unfold Obligations.RemoteTransfers
  intro h
  obtain ⟨-, -, -, -, -, -, -, -, hmirror, -⟩ := h rangeMoved rangeMoved_rested
  obtain ⟨t, ht, hall⟩ := hmirror 0 (by decide) rfl (by decide)
  obtain ⟨r, hr, -, -, -, haddr, -⟩ := hall 1 (by decide) (by decide) (by decide) (by decide)
  rw [exec_next_unique ht (u := rangeRefreshed) rfl, rangeRefreshed_requests, List.mem_singleton] at hr
  rw [hr] at haddr
  exact absurd haddr (by decide)

/-! ### A ring larger than its offsets reach (R380, R381) -/

/-- RD of a ring lies below 2^26, whatever the ring's size. -/
theorem ringRd_lt (s : State) (n : Nat) : s.ringRd n < 2 ^ 26 := Fld.read_lt _ _

/-- A head whose ring 0 has a SIZE of 16,385, which the field holds and `wrRingPlace` refuses to write: 4 KiB more than an
offset of 26 bits reaches. RD stands one word below 2^26, and WR at 0. -/
def ringTooLarge : State :=
  let s : State := { deviceRuns with net := { NetSt.fresh with headNow := true } }
  ((s.put F.STO_CEL_STAT.READY 1).put (F.STO_RING_SIZE.SIZE 0) 16385).put (F.STO_RING_RD.OFF 0) (2 ^ 26 - 4)

theorem ringTooLarge_rested : ringTooLarge.rested := rested_of_settled rfl (by decide) rfl

/-- The word after RD lies at 2^26. -/
theorem ringTooLarge_next : (ringTooLarge.ringRd 0 + 4 * min 1 (ringTooLarge.ringUnread 0)) % ringTooLarge.ringSize 0 =
    2 ^ 26 := by
  decide

/-- The host's RREAD of one word of ring 0. -/
def readWord : HostReq :=
  { cmd := 6, flags := 0, count := 1, addr := 0, data := [], counter := 0, tag := [], crcOk := true, whole := true }

/-- Refutes O34: an RREAD of a ring above 64 MiB would have to move RD to an offset that its field cannot hold. -/
theorem not_hostPort : ¬ Obligations.HostPort := by
  unfold Obligations.HostPort
  intro h
  obtain ⟨-, -, -, -, -, -, -, -, -, -, -, -, -, hrread, -⟩ :=
    h ringTooLarge readWord ringTooLarge_rested (by decide) rfl (by decide) rfl (by decide)
  obtain ⟨t, -, -, -, hwhole⟩ := hrread rfl (by decide) (by decide)
  rcases hwhole rfl with hrd | hnone
  · exact absurd (ringRd_lt t 0) (Nat.not_lt_of_ge (Nat.le_of_eq (hrd.trans ringTooLarge_next).symm))
  · exact absurd hnone (by decide)

end Sys2Proof.Machine
end
